-- ==== Sys2Proof/Word.lean ====
section
/-! DEFINITION. The word types of the Ocyel model and the bounded index types of its units (R2, R6, R7, R135, R243). -/

namespace Sys2Proof

/-- One byte. -/
abbrev Byte := BitVec 8
/-- A 16-bit value (U16 of R17). -/
abbrev Word16 := BitVec 16
/-- A 32-bit value (U32 and F32 of R17). -/
abbrev Word32 := BitVec 32
/-- A 64-bit value (U64 and TIME64 of R17). -/
abbrev Word64 := BitVec 64

/-- A field, numbered by R2. -/
abbrev FieldId := Fin 30
/-- A span (R6). -/
abbrev SpanId := Fin 8
/-- A bank of one scratchpad (R135). -/
abbrev BankId := Fin 40
/-- A memory tower (R243). -/
abbrev TowerId := Fin 24
/-- A device channel 8t + c (R243). -/
abbrev ChannelId := Fin 192
/-- An interleave set (R253). -/
abbrev SetId := Fin 16
/-- A mesh router, index 12y + x (R276). -/
abbrev RouterId := Fin 120
/-- A link port of a router: North, East, South, West (R276). -/
abbrev LinkDir := Fin 4
/-- An Ethernet port (R539). -/
abbrev EthId := Fin 8
/-- A spanlink port (R278). -/
abbrev LinkId := Fin 8
/-- A media stream (R551). -/
abbrev StreamId := Fin 16384
/-- A media group (R555). -/
abbrev MediaGroup := Fin 64
/-- One of sixteen: an index register, a token, a channel of R184, a mover channel, a regulator cell. -/
abbrev Idx16 := Fin 16

end Sys2Proof
end

