-- ==== Sys2Proof/Syntax.lean ====
section
/-! DEFINITION. The commands of the Ocyel: one constructor of `Instr` for each row of spec/opcode_table.json, with the operands
that the rule of the row names.  The table gives no bits, so the operands are typed from the rules' own fields. -/

namespace Sys2Proof

/-- What the checks of issue find in the cycle of an issue (R168, R196): nothing, a corrected or an uncorrectable program word,
or a difference between the marionettes with twin B's instruction index. -/
inductive IssueFault where
  | clean
  | corrected
  | uncorrectable
  | twin (indexB : BitVec 16)
deriving DecidableEq, Repr

/-- The common header of an instruction (R169) at the pier of a field, with what the checks of issue find. -/
structure Hdr where
  field : FieldId
  wait  : BitVec 16
  token : Idx16
  sett  : Bool
  fault : IssueFault
deriving DecidableEq, Repr

/-- A scratchpad operand (R175): an index register and an offset. -/
structure Opnd where
  ireg   : Idx16
  offset : BitVec 22
deriving DecidableEq, Repr

/-- The tower range of FETCH.LINEAR and SEND.STORE (R180): register, byte offset, rows minus 1. -/
structure TowerOpnd where
  treg : Idx16
  toff : BitVec 32
  len  : BitVec 7
deriving DecidableEq, Repr

/-- The operands of PASS (R176). -/
structure PassOp where
  desc  : BitVec 10
  chain : Bool
  drain : Bool
  wsrc  : Opnd
  asrc  : Opnd
  dst   : Opnd
deriving DecidableEq, Repr

/-- The operands of VEC (R178); the operation code is the constructor. -/
structure VecOp where
  vdesc : BitVec 10
  src1  : Opnd
  src2  : Opnd
  dst   : Opnd
deriving DecidableEq, Repr

/-- The tokens that the target sampled at the nodes of one sequence: what the accept handler of R230 reads from the bank. -/
structure SampledSeq where
  seq    : BitVec 32
  tokens : List Word32
deriving DecidableEq, Repr

/-- SEND.ROWS and SEND.MCAST operands (R183). -/
structure SendOp where
  target : BitVec 8
  chan   : Idx16
  count  : BitVec 12
  src    : Opnd
  rdst   : Opnd
deriving DecidableEq, Repr

/-- COLL operands (R185). -/
structure CollOp where
  group : BitVec 8
  count : BitVec 12
  src   : Opnd
  dst   : Opnd
deriving DecidableEq, Repr

/-- The units of a pier that hold queued instructions (R170). -/
inductive PierUnit where
  | array | vector | turn | mesh | fetch
deriving DecidableEq, Repr

/-- What a check code finds in a row, granule or word that is read (R144, R145, R247). -/
inductive EccResult where
  | clean | corrected | uncorrectable
deriving DecidableEq, Repr

/-- One access to a bank (R138): a read of a row, a whole-row write, or a narrow write of bytes at an offset. -/
inductive BankOp where
  | read
  | write (bytes : List Byte)
  | narrow (offset : BitVec 9) (bytes : List Byte)
deriving DecidableEq, Repr

/-- The masters of R140 as a bank tells them apart (R141, R145): array intake; array drain, vector unit and sequencer; turn unit; FETCH
returns, RECV and COLL arrivals; mover channels of another field and of the bank's own; a core of a field; the supervisor; the scrub; spin. -/
inductive BankMaster where
  | intake | unit | turn | arrival | remote (field : FieldId) (ch : Idx16) | mover (ch : Idx16) | processor (field : FieldId) (core : Fin 4)
  | supervisor | scrub | spin
deriving DecidableEq, Repr

/-- The fields of a packet header that the mesh or a target acts on (R282), source and destination as router and unit code, and where the
packet is damaged, if it is: the router that finds an uncorrectable word, or that of the destination that finds HCRC wrong (R285). -/
structure Pkt where
  span    : BitVec 8
  epoch   : BitVec 8
  master  : BitVec 12
  tag     : BitVec 16
  step    : BitVec 64
  attempt : BitVec 8
  src     : RouterId
  srcUnit : Fin 8
  dst     : RouterId
  dstUnit : Fin 8
  gen     : Bool
  damage  : Option RouterId
deriving DecidableEq, Repr

/-- The 8-byte atomic operations of R283. -/
inductive AtomicOp where
  | fetchAdd | swap | compareSwap
deriving DecidableEq, Repr

/-- What the cells of an array got wrong in a pass, as the checker of R95 meets it: a column accumulator of a 64 × 64 block off by m × 2^e in a
beat, or the checksum column in a beat or the checksum row in a column of the block itself (R98).  In DIAGONAL mode the column is the
cell of the block's diagonal. -/
inductive CellFault where
  | cell (block : Fin 16) (col : Fin 64) (beat : BitVec 16) (m e : Int)
  | column (block : Fin 16) (beat : BitVec 16) (m e : Int)
  | row (block : Fin 16) (col : Fin 64) (m e : Int)
deriving DecidableEq, Repr

/-- What a lane of the vector unit, or a node of its reduction tree, got wrong in an operation (R373): the node `index` of tree level `level`
(level 0 is a lane), and the bits of its FP32 result that are wrong. -/
structure LaneFault where
  level : Fin 10
  index : Fin 512
  bits  : BitVec 32
deriving DecidableEq, Repr

/-- What the turn unit got wrong in a tile (R374): the element of the destination, and its bits that are wrong. -/
structure TurnFault where
  tile : BitVec 12
  row  : Fin 32
  col  : Fin 32
  bits : BitVec 32
deriving DecidableEq, Repr

/-- What an adder got wrong in the sum of a collective (R380): the entry, and how far off its integer is. -/
structure SumFault where
  entry : BitVec 17
  off   : BitVec 128
deriving DecidableEq, Repr

/-- The reports of R31, R32 and R40. -/
inductive ReportKind where
  | ready | failed | abortDone
deriving DecidableEq, Repr

/-- Where a keystone advance arrives (R35). -/
inductive AdvanceDest where
  | pier (f : FieldId)
  | engine
  | supervisor
deriving DecidableEq, Repr

/-- The COLL_DATA fields of R378 that a receiver checks. -/
structure CollHdr where
  group  : BitVec 8
  digest : BitVec 64
  words  : Bool
  rank   : BitVec 8
  seq    : BitVec 16
  row    : BitVec 16
  lossy  : Bool
  nonfin : Bool
  sender : FieldId
deriving DecidableEq, Repr

/-- A dictionary request's sender and flags (R512): master, span tag, TX flag and REQ_ID. -/
structure Req where
  master : BitVec 12
  span   : BitVec 8
  tx     : Bool
  reqId  : BitVec 32
deriving DecidableEq, Repr

/-- A dictionary slot (R521, R522): one of the four of BAR0, or the slot of a core. -/
inductive Slot where
  | pcie (s : Fin 4)
  | core (f : FieldId) (c : Fin 4)
deriving DecidableEq, Repr

/-- A UDP datagram at an Ethernet port: source address (16 bytes, IPv4 as ::ffff:a.b.c.d), source port and payload. -/
structure Datagram where
  port    : EthId
  srcAddr : BitVec 128
  srcPort : BitVec 16
  payload : List Byte
deriving DecidableEq, Repr

/-- An RTP packet of a stream (R551): sequence number, timestamp, SSRC, payload type, payload, and the jitter J and the play
tick that its arrival gives under R553. -/
structure RtpPkt where
  seq     : BitVec 16
  ts      : BitVec 32
  ssrc    : BitVec 32
  pt      : BitVec 7
  payload : List Byte
  jitter  : BitVec 32
deriving DecidableEq, Repr

/-- A frame that is no request, RTP, RTCP, PTP or valid dictionary datagram (R540): what it is. -/
inductive OtherFrame where
  | arp | neighbour | icmpEcho | pause | pfc | fragment | zeroChecksum | unservedPort | badTag | wrongVlan
deriving DecidableEq, Repr

/-- A port that receives such a frame. -/
inductive FramePort where
  | eth (e : EthId)
  | t1s (p : Fin 2)
deriving DecidableEq, Repr

/-- One copy of a reference input (R433): reference REFB when `b`, at field 29 when `backup`. -/
structure RefCopy where
  b      : Bool
  backup : Bool
deriving DecidableEq, Repr

/-- The rails of a field (R460). -/
inductive Rail where
  | p | m | f
deriving DecidableEq, Repr

/-- The checks that a recovery reload makes (R383, R385). -/
inductive ReloadResult where
  | matches | mismatch
deriving DecidableEq, Repr

/-- What a located test finds (R403, R404, R413): the identifiers of the failing units, none when it locates nothing. -/
abbrev Findings := List Word32

/-- The symbols of a granule that a read finds disturbed (R247): symbol, and what has been added to it. -/
abbrev SymbolErrors := List (Fin 72 × Byte)

/-- One access of a tower controller to a granule (R246). -/
inductive GranuleOp where
  | read
  | write (bytes : List Byte)
  | narrow (offset : BitVec 6) (bytes : List Byte)
deriving DecidableEq, Repr

/-- What a supervisor of another device of a bridged span sends (R360, R371, R377): LOADED, an epoch, a profile, a digest seed. -/
inductive PeerControl where
  | loaded
  | epoch (e : BitVec 8)
  | profile (v : BitVec 8)
  | seed (v : Word64)
deriving DecidableEq, Repr

/-- What the end of a bring-up step found (R484, R487, R491): nothing wrong, the boot bank's image refused but the other one good, both
refused, an unreadable fuse word, or both copies of the retirement map invalid; and for step 8 the units that failed BIST. -/
inductive StepFinding where
  | good
  | otherBank
  | bothRefused
  | fuseUnreadable
  | maps (badA badB : Bool)
  | units (failed : List Word32)
deriving DecidableEq, Repr

/-- What step 1 of bring-up finds in the event area of flash (R431): its ring header damaged, and records, by page and place in it, whose
CRC is wrong. -/
structure FlashFinding where
  header : Bool
  bad    : List (BitVec 7 × BitVec 7)
deriving DecidableEq, Repr

/-- What the end of a bring-up step reports: what the step found, and for step 1 what stands in the event area. -/
structure StepReport where
  found : StepFinding
  flash : FlashFinding
deriving DecidableEq, Repr

/-- An instruction completes: its unit, and what an adder of a collective got wrong (R380). -/
structure Completion where
  unit   : PierUnit
  faults : List SumFault
deriving DecidableEq, Repr

/-- The commands: one for each row of spec/opcode_table.json, in its order but for those without operands, which stand last. -/
inductive Instr where
  | pass (h : Hdr) (o : PassOp)
  | vecConvert (h : Hdr) (o : VecOp)
  | vecAdd (h : Hdr) (o : VecOp)
  | vecMul (h : Hdr) (o : VecOp)
  | vecRmsnorm (h : Hdr) (o : VecOp)
  | vecAddnorm (h : Hdr) (o : VecOp)
  | vecLayernorm (h : Hdr) (o : VecOp)
  | vecSoftmax (h : Hdr) (o : VecOp)
  | vecSwiglu (h : Hdr) (o : VecOp)
  | vecGelu (h : Hdr) (o : VecOp)
  | vecRotary (h : Hdr) (o : VecOp)
  | vecTreemask (h : Hdr) (o : VecOp)
  | vecTopk (h : Hdr) (o : VecOp)
  | vecSample (h : Hdr) (o : VecOp)
  | vecGather (h : Hdr) (o : VecOp)
  | vecNotify (h : Hdr) (o : VecOp) (sampled : List SampledSeq)
  | moveCopy (h : Hdr) (count : BitVec 12) (src dst : Opnd)
  | moveTurn (h : Hdr) (count : BitVec 12) (esize : Fin 4) (src dst : Opnd) (faults : List TurnFault)
  | moveFill (h : Hdr) (count : BitVec 12) (dst : Opnd)
  | fetchLinear (h : Hdr) (ra : Bool) (t : TowerOpnd) (dst : Opnd)
  | fetchList (h : Hdr) (ra : Bool) (count : BitVec 6) (list dst : Opnd)
  | sendRows (h : Hdr) (o : SendOp)
  | sendSignal (h : Hdr) (target : BitVec 8) (chan : Idx16)
  | sendStore (h : Hdr) (t : TowerOpnd) (src : Opnd)
  | sendMcast (h : Hdr) (o : SendOp)
  | recvRows (h : Hdr) (chan : Idx16) (count : BitVec 12)
  | recvSignal (h : Hdr) (chan : Idx16) (count : BitVec 12)
  | collReduce (h : Hdr) (o : CollOp)
  | collAllreduce (h : Hdr) (o : CollOp)
  | collAllgather (h : Hdr) (o : CollOp)
  | collBroadcast (h : Hdr) (o : CollOp)
  | syncSpan (h : Hdr)
  | syncGroup (h : Hdr) (group : BitVec 8)
  | syncLocal (h : Hdr)
  | checkWait (h : Hdr)
  | checkForce (h : Hdr)
  | checkWindow (h : Hdr) (ireg : Idx16)
  | phase (h : Hdr) (code : BitVec 3)
  | commit (h : Hdr) (outTail reqHead : Word32) (more : Bool)
  | stepNext (h : Hdr)
  | stepBase (h : Hdr) (ireg : Idx16) (modulus : BitVec 8) (base : BitVec 48) (stride : BitVec 32)
  | stepAdd (h : Hdr) (ireg : Idx16) (imm : BitVec 48)
  | stepLoop (h : Hdr) (lc : Fin 4) (iter : BitVec 16)
  | stepEndloop (h : Hdr) (lc : Fin 4) (target : BitVec 14)
  | stepJump (h : Hdr) (target : BitVec 14)
  | stepLdx (h : Hdr) (ireg : Idx16) (src : Opnd) (word : BitVec 6)
  | unitCompletion (f : FieldId) (done : Completion)
  | progmemScrub (f : FieldId) (found : EccResult)
  | progmemRewriteDone (f : FieldId)
  | programLoad (f : FieldId) (image : BitVec 48)
  | checksumVerdict (f : FieldId) (pass : BitVec 16) (faults : List CellFault)
  | vectorVerdict (f : FieldId) (q : BitVec 16) (faults : List LaneFault)
  | readyReport (f : FieldId)
  | keystoneReadbackDone (s : SpanId)
  | commitTimeout (s : SpanId)
  | pierCommitTimeout (f : FieldId)
  | abortDone (f : FieldId)
  | epochWaitEnd (s : SpanId)
  | spanDrained (s : SpanId)
  | weightLoadDone (s : SpanId) (result : ReloadResult)
  | requestArrival (s : SpanId)
  | spinThresholdExpiry (f : FieldId)
  | spinRampEnd (f : FieldId)
  | preRampDone (f : FieldId)
  | bankAccess (f : FieldId) (b : BankId) (row : BitVec 16) (m : BankMaster) (op : BankOp) (ecc : EccResult)
  | accessAged (f : FieldId) (b : BankId)
  | scrubRead (f : FieldId) (b : BankId) (ecc : EccResult)
  | retainScrubDue (f : FieldId) (b : BankId)
  | rowRepair (f : FieldId) (b : BankId) (row : BitVec 16) (rowGood : Bool)
  | bankDrained (f : FieldId) (b : BankId)
  | bankWakeDone (f : FieldId) (b : BankId)
  | read (p : Pkt) (addr : BitVec 48) (len : BitVec 17)
  | atomic (p : Pkt) (addr : BitVec 48) (op : AtomicOp) (a b : Word64)
  | smallWrite (p : Pkt) (addr : BitVec 48) (bytes : List Byte)
  | signal (p : Pkt) (f : FieldId) (chan : Idx16)
  | arrive (p : Pkt) (group : BitVec 8) (seq : BitVec 16) (count : BitVec 16)
  | report (p : Pkt) (kind : ReportKind) (count : BitVec 16) (status : BitVec 16) (window : BitVec 32)
  | release (p : Pkt) (f : FieldId) (group : BitVec 8) (seq : BitVec 16)
  | advance (p : Pkt) (dest : AdvanceDest) (windowStart : Word64)
  | abort (p : Pkt) (f : FieldId)
  | openMsg (p : Pkt) (f : FieldId) (windowStart : Word64)
  | slip (p : Pkt) (f : FieldId)
  | creditReset (p : Pkt) (group : Fin 32) (target : FieldId)
  | readData (p : Pkt) (bytes : List Byte)
  | ack (p : Pkt) (old : Word64)
  | nack (p : Pkt) (code : BitVec 8)
  | mcastAck (p : Pkt) (group : Fin 32) (target : FieldId)
  | write (p : Pkt) (addr : BitVec 48) (bytes : List Byte)
  | rows (p : Pkt) (f : FieldId) (chan : Idx16) (rdst : BitVec 22) (bytes : List Byte)
  | readback (p : Pkt) (addr : BitVec 48)
  | mcastData (p : Pkt) (f : FieldId) (group : Fin 32) (chan : Idx16) (rdst : BitVec 22) (bytes : List Byte)
  | collData (p : Pkt) (f : FieldId) (c : CollHdr) (bytes : List Byte)
  | eventNotice (src : BitVec 12)
  | pairingNotice (dst : SpanId) (src : SpanId) (step : Word64)
  | proposalTimeout (s : SpanId)
  | linkReplay (r : RouterId) (d : LinkDir) (wires : List (BitVec 12)) (failed : Bool)
  | linkRepairDone (r : RouterId) (d : LinkDir) (ok : Bool)
  | responseTimeout (p : Pkt)
  | mcastTargetTimeout (s : SpanId) (group : Fin 32) (target : FieldId)
  | timetableLoad (s : SpanId)
  | timetableWindowStart (s : SpanId)
  | timetableSlot (f : FieldId) (ready : Bool)
  | timetableWindowEnd (s : SpanId)
  | go (p : Pkt) (f : FieldId) (ch : Idx16)
  | armShadow (p : Pkt) (f : FieldId) (ch : Idx16)
  | stop (p : Pkt) (f : FieldId) (ch : Idx16)
  | clear (p : Pkt) (f : FieldId) (ch : Idx16)
  | registerSetWrite (p : Pkt) (f : FieldId) (ch : Idx16) (shadow : Bool) (offset : BitVec 6) (bytes : List Byte)
  | moverTimer (f : FieldId) (ch : Idx16)
  | moverResume (f : FieldId) (ch : Idx16)
  | moverLastWrite (f : FieldId) (ch : Idx16)
  | moverComplete (f : FieldId) (ch : Idx16)
  | moverStopped (f : FieldId) (ch : Idx16)
  | mailboxWrite (p : Pkt) (f : FieldId) (offset : BitVec 12) (bytes : List Byte)
  | supervisorSwap (r : Req) (value : List Byte)
  | create (r : Req) (s : SpanId)
  | spanReset (r : Req) (s : SpanId)
  | spanDelete (r : Req) (s : SpanId)
  | pause (r : Req) (s : SpanId) (value : List Byte)
  | stepVariant (r : Req) (s : SpanId) (value : List Byte)
  | coreSpan (r : Req) (f : FieldId) (value : List Byte)
  | accessEntry (r : Req) (target : BitVec 8) (e : Fin 64) (value : List Byte)
  | setDesc (r : Req) (k : SetId) (value : List Byte)
  | checkProfile (r : Req) (s : SpanId) (value : List Byte)
  | predReset (r : Req) (s : SpanId) (value : List Byte)
  | spinEnable (r : Req) (f : FieldId) (value : List Byte)
  | bankPower (r : Req) (f : FieldId) (value : List Byte)
  | retireUnit (r : Req) (value : List Byte)
  | digestPassEnd (f : FieldId)
  | weightRewriteDone (f : FieldId) (b : BankId) (result : ReloadResult)
  | segmentStart (f : FieldId) (unit : BitVec 8) (pattern : Word32)
  | segmentEnd (f : FieldId) (passed : Bool) (charged : Word32)
  | coverageOverdue (f : FieldId)
  | diagnosticTestDone (unit : Word32) (found : Findings)
  | probeTimeout (f : FieldId)
  | spareReloadDone (s : SpanId) (result : ReloadResult)
  | planReloadDone (s : SpanId) (result : ReloadResult)
  | windowRead (r : Req)
  | historyClear (r : Req) (value : List Byte)
  | refCopyBad (c : RefCopy)
  | refCopyGood (c : RefCopy)
  | drawbridgeStart (f : FieldId)
  | drawbridgeEnd (f : FieldId) (ns : BitVec 16)
  | pllLockTimeout (f : FieldId)
  | droopDetect (f : FieldId)
  | stretchEnd (f : FieldId) (periods : Word32) (overQuarter : Bool)
  | beacon (f : FieldId) (error : BitVec 64)
  | beaconNotice (f : FieldId) (value : Word64)
  | ptpSync (offset : BitVec 64)
  | ptpDelayResponse (delay : Word32)
  | ptpAnnounce (identity : Word64)
  | inputUndervoltage (millivolts : Word16)
  | inputOvervoltage (millivolts : Word16)
  | regCellTrip (f : FieldId) (cell : Idx16)
  | regCellRestart (f : FieldId) (cell : Idx16)
  | contactCheck (f : FieldId) (g : Fin 24) (departure : BitVec 16)
  | contactCalibration (models : List Word32)
  | vminSample (f : FieldId) (rail : Rail) (millivolts : Word16)
  | vminClear (r : Req) (f : FieldId) (value : List Byte)
  | ageingCheck (f : FieldId) (mhz : Word16)
  | voltageSlewDone (f : FieldId)
  | phaseHoldExpiry (f : FieldId)
  | guardBand (r : Req) (value : List Byte)
  | powerCap (r : Req) (value : List Byte)
  | capControlInterval (milliwatts : Word32) (pierMilliamps : List Word32)
  | pierPowerRequest (r : Req) (f : FieldId) (value : List Byte)
  | admissionCheck (f : FieldId) (zoneMilliamps : Word32)
  | admissionTimeout (f : FieldId)
  | pierStageDone (f : FieldId)
  | junctionSample (f : FieldId) (millidegrees : Word32)
  | thermalRelease (f : FieldId)
  | heatKeystoneTimeout (s : SpanId)
  | heatSwapExpiry (f : FieldId)
  | fieldHeatRelease (f : FieldId)
  | fieldUp (f : FieldId)
  | fieldWakeTimeout (f : FieldId)
  | bringupStepDone (report : StepReport)
  | spanlinkRetry (p : LinkId)
  | stageOpen (r : Req)
  | stageVerify (r : Req)
  | stageAbort (r : Req)
  | stageChunk (r : Req) (value : List Byte)
  | stagingWindowWrite (offset : BitVec 25) (bytes : List Byte)
  | activateTime (r : Req) (value : List Byte)
  | fieldRestart (f : FieldId)
  | fieldRestartDone (f : FieldId)
  | fieldRestartTimeout (f : FieldId)
  | attestNonce (r : Req) (value : List Byte)
  | linkSavedClear (r : Req) (value : List Byte)
  | dictRead (r : Req) (index : BitVec 16) (sub : BitVec 8) (offset length : Word32)
  | dictWrite (r : Req) (index : BitVec 16) (sub : BitVec 8) (value : List Byte)
  | txBegin (r : Req)
  | txCommit (r : Req)
  | txAbort (r : Req)
  | summary (r : Req) (length : Word32)
  | describe (r : Req) (index : BitVec 16) (sub : BitVec 8)
  | nop (r : Req)
  | hello (port : Fin 2) (slot : BitVec 8) (clientNonce deviceNonce : List Byte)
  | auth (session : Idx16) (tag : List Byte)
  | close (session : Idx16)
  | txTimeout (master : BitVec 12)
  | sessionIdleTimeout (session : Idx16)
  | keySlotUnlock (slot : Fin 8)
  | frozenCopyExpiry (master : BitVec 12)
  | mgmtKey (r : Req) (slot : Fin 8) (value : List Byte)
  | submit (slot : Slot) (master : BitVec 12) (request : List Byte)
  | irqStatusClear (mask : Word32)
  | ethMode (r : Req) (e : EthId) (value : List Byte)
  | ethLinkUp (e : EthId)
  | ethLinkDown (e : EthId) (retiredLane : Option Idx16)
  | start (d : Datagram)
  | append (d : Datagram)
  | endSeq (d : Datagram)
  | cancel (d : Datagram)
  | rtpPacket (st : StreamId) (p : RtpPkt)
  | rtcpPacket (st : StreamId) (roundTrip : Word32)
  | rtcpIntervalTimer (engine : Fin 2)
  | streamTimeout (st : StreamId)
  | mediaTick (g : MediaGroup)
  | txSendPoint (g : MediaGroup)
  | streamDesc (r : Req) (value : List Byte)
  | groupDesc (r : Req) (g : MediaGroup) (value : List Byte)
  | spanlinkTrainingDone (p : LinkId) (answered : Bool) (goodLanes : BitVec 16) (serial : Word64) (peerPort : BitVec 8)
      (crossNs : Word32)
  | spanlinkFlitReplay (p : LinkId) (failed : Bool)
  | spanlinkFault (p : LinkId)
  | spanlinkRetrainTimeout (p : LinkId)
  | spanlinkPacket (p : LinkId) (inbound : Bool) (type : BitVec 8) (k : Pkt) (addr : BitVec 48)
  | towerAccess (c : ChannelId) (granule : BitVec 28) (op : GranuleOp) (errs : SymbolErrors)
  | towerAccessAged (c : ChannelId)
  | edcReplay (c : ChannelId) (failed : Bool)
  | patrolScrub (c : ChannelId) (errs : SymbolErrors)
  | channelTrainingDone (c : ChannelId) (passed : Bool)
  | towerTestDone (t : TowerId) (passed : Bool)
  | retrainDone (c : ChannelId) (micros : Word32)
  | retrainTryTimeout (c : ChannelId)
  | remapFill (k : SetId)
  | reserveRefill (k : SetId)
  | coolantSample (inlet outlet : Word32) (flow : Option Word32)
  | samplePreload (preload : Option Word64)
  | diag (request : List Byte)
  | towerDieTemperatureSample (t : TowerId) (millidegrees : Word32)
  | admissionRecheck (f : FieldId) (zoneMilliamps : Word32)
  | frameReceived (port : FramePort) (kind : OtherFrame)
  | t1sLinkChange (p : Fin 2) (up plca : Bool)
  | pcieLinkTrained (rate : BitVec 8) (width : BitVec 4)
  | spanlinkPeerNotice (p : LinkId) (retired : Bool)
  | restartKeystoneTimeout (s : SpanId)
  | supervisorControlPacket (s : SpanId) (device : Fin 4) (c : PeerControl)
  | bridgedTakeoverTimeout (s : SpanId) (device : Fin 4)
  | routeHoldEnd
  | heartbeat
  | heartbeatTimeout
  | flashPageWrite
  | pageBucketRefill
  | refRevert
  | ptpAnnounceTimeout
  | undervoltageRelease
  | powerLoss
  | alertAssert
  | alertRelease
  | alertHoldExpiry
  | persistCounts
  | powerGood
  | activationStart
  | attestTokenRefill
  | summaryCmd
  | pcieFunctionReset
  | modResetN
  | leakDetect
  | bypass
  | idcode
  | extest
  | clamp
  | supervisorRestartDone
  | supervisorStartTimeout
  | reservedPacketType
deriving DecidableEq, Repr

end Sys2Proof
end

