-- ==== Sys2Proof/Decode.lean ====
section
/-! DEFINITION. The decoder of the opcode table.  No row of the table gives bits (the commands of the block come with typed
operands, not as words), so no word spells a command. -/

namespace Sys2Proof

/-- The command that `nbits` bits `w` spell by the table: none, since no row of the table gives bits. -/
def decodeTableWord (_nbits _w : Nat) : Option Instr := none

end Sys2Proof
end

