-- ==== Sys2Proof/Config.lean ====
section
/-! DEFINITION. What the spec leaves open: free values. Each is an uninterpreted constant, so no proof can see what it is.
The log entry of each stands in its docstring. -/

namespace Sys2Proof.Config

/-- A fresh value of `w` bits for the `n`-th value that the spec leaves open (notes/assumptions/5). -/
opaque freeValue : Nat → (w : Nat) → BitVec w

/-- The order in which the 32-element blocks of a weight tile stand in its rows, which the spec does not give beside the tile shapes of R76
and R80 (notes/assumptions/6).  Argument: the descriptor's mode, dataflow and formats. -/
opaque tileOrder : List Nat → List Nat
/-- Sign and payload of a NaN that an operation writes as FP32, given its operands' bytes and the output's index: R204 says only that
NaNs propagate under IEEE 754 (notes/assumptions/7). -/
opaque nanTail : List (BitVec 8) → Nat → BitVec 23

/-- Which of the values within 1 ulp 1/√x takes (R205), given its significand and exponent parity: the 512-entry table of the method is not
given (notes/assumptions/7). -/
opaque rsqrtPick : BitVec 25 → Nat
/-- Which of the values within 3 ulp σ(x) takes (R205): how it is built from exp and one division is not given (notes/assumptions/7). -/
opaque sigmoidPick : BitVec 32 → Nat
/-- Which of the values within 3 ulp tanh takes (R205; notes/assumptions/7). -/
opaque tanhPick : BitVec 32 → Nat
/-- The order of the FP32 operations in GELU's tanh form (R203), which is not given (notes/assumptions/7). -/
opaque geluOrder : Nat
/-- Where within 2 × 10⁻⁷ the cosine of a turn fraction of 32 bits lies (R205): the 1,024-entry table is not given
(notes/assumptions/7). -/
opaque cosPick : BitVec 32 → BitVec 64
/-- Where within 2 × 10⁻⁷ the sine of a turn fraction lies (R205; notes/assumptions/7). -/
opaque sinPick : BitVec 32 → BitVec 64
/-- What stands in the two rows of a TREEMASK after its nodes, given its rows and descriptor (R206, R208; notes/assumptions/18). -/
opaque treeRest : List (BitVec 8) → BitVec 8192
/-- x³ in binary64, as the power of exponent 3 in R241: the spec does not say how the power is rounded
(notes/assumptions/8). -/
opaque cube64 : BitVec 64 → BitVec 64

/-- HMAC-SHA-384 (R534), of an external standard: key, message (notes/assumptions/9). -/
opaque hmacSha384 : List (BitVec 8) → List (BitVec 8) → List (BitVec 8)
/-- The device's ECDSA P-384 signature of a message (R503) (notes/assumptions/9). -/
opaque ecdsaSign : List (BitVec 8) → List (BitVec 8)
/-- The device's LMS signature of a message with leaf q (R503, R504) (notes/assumptions/9). -/
opaque lmsSign : Nat → List (BitVec 8) → List (BitVec 8)
/-- The X.509 certificate of the device's LMS key when the argument is true, else of its ECDSA key (R502) (notes/assumptions/9). -/
opaque certificate : Bool → List (BitVec 8)
/-- Does an ECDSA P-384 signature verify: public key, signature, message (R496) (notes/assumptions/9). -/
opaque ecdsaVerify : List (BitVec 8) → List (BitVec 8) → List (BitVec 8) → Bool
/-- Does an LMS signature verify: public key, signature, message (R496) (notes/assumptions/9). -/
opaque lmsVerify : List (BitVec 8) → List (BitVec 8) → List (BitVec 8) → Bool

/-- The samples of 16 bits that a codec of R551 decodes from a payload (codec, payload): the codecs follow external standards
(notes/assumptions/9). -/
opaque codecDecode : Nat → List (BitVec 8) → List (BitVec 16)
/-- The payload that a codec of R551 encodes from a frame (notes/assumptions/9). -/
opaque codecEncode : Nat → List (BitVec 16) → List (BitVec 8)
/-- The 2:1 resampler of R553: its filter is not given (notes/assumptions/9). -/
opaque resample : Bool → List (BitVec 16) → List (BitVec 16)
/-- A frame repeated 3 dB lower (R553): the rounding is not given (notes/assumptions/9). -/
opaque attenuate : List (BitVec 16) → List (BitVec 16)
/-- The noise-floor estimate of a stream in 0.01 dBov after a frame, from the one before (R554): how it is made is not given
(notes/assumptions/9). -/
opaque noiseFloor : Int → List (BitVec 16) → Int
/-- The level of a frame list in 0.01 dBov (R554): its rounding is not given (notes/assumptions/9). -/
opaque levelDbov : Nat → List (BitVec 16) → BitVec 16

/-- A sample of 16 bits in a group's FORMAT 2 or 3, BF16 or FP32 (R555): the scale of the conversion is not given
(notes/assumptions/28). -/
opaque sampleTo : Nat → BitVec 16 → BitVec 32
/-- The sample of 16 bits that a value in FORMAT 2 or 3 stands for (R557; notes/assumptions/28). -/
opaque sampleFrom : Nat → BitVec 32 → BitVec 16
/-- The RTP time of tick 0 of a stream that is sent (R551): RFC 3550 leaves it to the sender (notes/assumptions/28). -/
opaque rtpOffset : Nat → BitVec 32
/-- The sender or receiver report of a stream with its SDES CNAME (R551), from the stream's number, SSRC and record: the encoding follows
RFC 3550 (notes/assumptions/9). -/
opaque rtcpReport : Nat → List (BitVec 8) → List (BitVec 8)

/-- The choice that the supervisor makes among the addresses that R269 allows for a span (R27, R356): which of keystone copy A (0),
copy B (1), request queue (2) and output queue (3), and the placement record as a number (notes/assumptions/10). -/
opaque spanAddress : Nat → Nat → BitVec 48

/-- The die row in which a granule of a channel lies on every die of its tower (R249; notes/assumptions/39). -/
opaque dieRow : Nat → Nat → Nat
/-- The spare rows of a die: tower, die (R249; notes/assumptions/39). -/
opaque dieSpareRows : Nat → Nat → Nat
/-- Has a sequence KV on a channel's lost units?  Span, sequence, frontier, channel: where a program puts a slot is its own (R261;
notes/assumptions/27). -/
opaque kvOn : Nat → Nat → Nat → Nat → BitVec 1

/-- How many tokens the program of a span makes of the payload of a START or APPEND of UTF-8 text (notes/assumptions/15). -/
opaque promptTokens : List (BitVec 8) → Nat
/-- The physical KV slots that a span's program gives a sequence: span, sequence (R232; notes/assumptions/15). -/
opaque kvCapacity : Nat → Nat → BitVec 32
/-- The UTF-8 text that field software writes for a token (R546; notes/assumptions/15). -/
opaque tokenText : Nat → List (BitVec 8)

/-- The rate correction of a field's clock after a beacon, from the one before and the sum of the errors at the last 16 beacons, in ns
(R449; notes/assumptions/23). -/
opaque rateCorrection : Int → Int → Int

end Sys2Proof.Config
end

