-- ==== Sys2Proof/Machine/Bits.lean ====
section
/-! DEFINITION. Bytes, little-endian numbers (R12), slices of byte strings, bit fields and CRC-32. -/

namespace Sys2Proof.Machine

/-- The `n` little-endian bytes of a number (R12). -/
def leBytes : Nat → Nat → List Byte
  | 0, _ => []
  | n + 1, v => BitVec.ofNat 8 v :: leBytes n (v / 256)

/-- The number whose little-endian bytes are given (R12). -/
def ofLe : List Byte → Nat
  | [] => 0
  | b :: r => b.toNat + 256 * ofLe r

/-- `len` bytes from offset `off`. -/
def slice (off len : Nat) (l : List Byte) : List Byte := (l.drop off).take len

/-- The little-endian number of `n` bytes at offset `off` (bytes beyond the string are 0). -/
def leAt (l : List Byte) (off n : Nat) : Nat := ofLe (slice off n l)

/-- `l` with `new` put at offset `off`. -/
def splice (l : List Byte) (off : Nat) (new : List Byte) : List Byte := l.take off ++ new ++ l.drop (off + new.length)

/-- `n` bytes of zeros. -/
def zeros (n : Nat) : List Byte := List.replicate n 0

/-- A byte string cut or filled with zeros to `n` bytes. -/
def padTo (n : Nat) (l : List Byte) : List Byte := l.take n ++ zeros (n - l.length)

/-- Bits [lo + n - 1 : lo] of a number. -/
def bits (v lo n : Nat) : Nat := v / 2 ^ lo % 2 ^ n

/-- `v` with bit `i` set. -/
def setBit (v i : Nat) : Nat := v ||| 2 ^ i

/-- `v` with bit `i` clear. -/
def clearBit (v i : Nat) : Nat := if v.testBit i then v - 2 ^ i else v

/-- `v` with bit `i` made `b`. -/
def putBit (v i : Nat) (b : Bool) : Nat := if b then setBit v i else clearBit v i

/-- 1 for true. -/
def boolNat (b : Bool) : Nat := if b then 1 else 0

/-- The number whose bit i is the i-th Boolean. -/
def packBools : List Bool → Nat
  | [] => 0
  | b :: r => boolNat b + 2 * packBools r

/-- The positions below `n` whose bit is set. -/
def bitList (n v : Nat) : List Nat := (List.range n).filter (v.testBit ·)

/-- How many of the low `n` bits are set. -/
def popCount (n v : Nat) : Nat := (bitList n v).length

/-- A counter of `bytes` bytes after `n` more: it saturates. -/
def satAdd (bytes v n : Nat) : Nat := min (v + n) (256 ^ bytes - 1)

/-- A two's complement number of `w` bits as an integer. -/
def signed (w v : Nat) : Int := if v % 2 ^ w < 2 ^ (w - 1) then (v % 2 ^ w : Nat) else (v % 2 ^ w : Nat) - (2 ^ w : Nat)

/-- An integer as a two's complement number of `w` bits. -/
def toTwos (w : Nat) (i : Int) : Nat := (i % (2 ^ w : Nat)).toNat

/-- An integer limited to the two's complement range of `w` bits. -/
def satInt (w : Nat) (i : Int) : Int := max (-(2 ^ (w - 1) : Nat)) (min (2 ^ (w - 1) - 1 : Nat) i)

/-- One bit of CRC-32 over the reflected IEEE 802.3 polynomial. -/
def crcBit (c : Nat) : Nat := if c % 2 = 1 then (c / 2) ^^^ 0xEDB88320 else c / 2

/-- One byte of CRC-32. -/
def crcByte (c : Nat) (b : Byte) : Nat := crcBit (crcBit (crcBit (crcBit (crcBit (crcBit (crcBit (crcBit (c ^^^ b.toNat))))))))

/-- CRC-32 (IEEE 802.3 polynomial), as R27, R165, R226, R419 and R520 use it. -/
def crc32 (l : List Byte) : Nat := l.foldl crcByte 0xFFFFFFFF ^^^ 0xFFFFFFFF

/-- `body` followed by its CRC-32. -/
def withCrc (body : List Byte) : List Byte := body ++ leBytes 4 (crc32 body)

/-- Do the last four bytes hold the CRC-32 of those before them, in a string of `n` bytes? -/
def crcGood (n : Nat) (l : List Byte) : Bool := l.length == n && leAt l (n - 4) 4 == crc32 (l.take (n - 4))

end Sys2Proof.Machine
end

