-- ==== Sys2Proof/Machine/Regs.lean ====
section
/-! DEFINITION. The objects of the dictionary (R17, R18, R508): one definition for each row of the dictionary tables of the chapters,
with its type, access and persistence code, size and default, and the catalogue of all of them. -/

namespace Sys2Proof.Machine

/-- The types of R17. -/
inductive ObjType where
  | bool | u8 | u16 | u32 | u64 | i32 | f32 | str | blob | time64
deriving DecidableEq, Repr

/-- The access codes of R17. -/
inductive ObjAccess where
  | ro | rw | wo | rwt
deriving DecidableEq, Repr

/-- An object, or a family of them: first index, how many indices, first subindex, how many subindices, type, access, is it NV,
size in bytes (maximum for a value of variable length), default as a little-endian number. -/
structure Obj where
  index  : Nat
  count  : Nat
  sub    : Nat
  subs   : Nat
  type   : ObjType
  access : ObjAccess
  nv     : Bool
  size   : Nat
  dflt   : Nat
deriving DecidableEq, Repr

/-- 0x5100+s.01 SPAN_STATE. -/
def regSpanState : Obj :=
  ⟨0x5100, 8, 0x01, 1, .u8, .ro, false, 1, 0⟩
/-- 0x5100+s.02 COMMITTED_STEP. -/
def regCommittedStep : Obj :=
  ⟨0x5100, 8, 0x02, 1, .u64, .ro, false, 8, 0⟩
/-- 0x5100+s.03 EPOCH. -/
def regEpoch : Obj :=
  ⟨0x5100, 8, 0x03, 1, .u8, .ro, false, 1, 0⟩
/-- 0x5100+s.04 ANCHOR_FIELD. -/
def regAnchorField : Obj :=
  ⟨0x5100, 8, 0x04, 1, .u8, .ro, false, 1, 0⟩
/-- 0x5100+s.05 COMMIT_TIMEOUT. -/
def regCommitTimeout : Obj :=
  ⟨0x5100, 8, 0x05, 1, .u32, .rwt, false, 4, 0x32⟩
/-- 0x5100+s.06 ABORT_COUNT. -/
def regAbortCount : Obj :=
  ⟨0x5100, 8, 0x06, 1, .u32, .ro, false, 4, 0⟩
/-- 0x5100+s.07 LAST_ABORT_CAUSE. -/
def regLastAbortCause : Obj :=
  ⟨0x5100, 8, 0x07, 1, .u16, .ro, false, 2, 0⟩
/-- 0x5100+s.08 STALE_DROPS. -/
def regStaleDrops : Obj :=
  ⟨0x5100, 8, 0x08, 1, .u64, .ro, false, 8, 0⟩
/-- 0x5100+s.09 KEYSTONE_TIME. -/
def regKeystoneTime : Obj :=
  ⟨0x5100, 8, 0x09, 1, .time64, .ro, false, 8, 0⟩
/-- 0x5100+s.0A RECORD_ADDR_A. -/
def regRecordAddrA : Obj :=
  ⟨0x5100, 8, 0x0A, 1, .u64, .ro, false, 8, 0⟩
/-- 0x5100+s.0B RECORD_ADDR_B. -/
def regRecordAddrB : Obj :=
  ⟨0x5100, 8, 0x0B, 1, .u64, .ro, false, 8, 0⟩
/-- 0x5100+s.0C WINDOW_STEPS. -/
def regWindowSteps : Obj :=
  ⟨0x5100, 8, 0x0C, 1, .u32, .ro, false, 4, 0⟩
/-- 0x5100+s.0D PAUSE. -/
def regPause : Obj :=
  ⟨0x5100, 8, 0x0D, 1, .bool, .rwt, false, 1, 0⟩
/-- 0x3000+f.20 SPIN_ENABLE. -/
def regSpinEnable : Obj :=
  ⟨0x3000, 30, 0x20, 1, .bool, .rw, false, 1, 1⟩
/-- 0x3000+f.21 SPIN_THRESHOLD. -/
def regSpinThreshold : Obj :=
  ⟨0x3000, 30, 0x21, 1, .u16, .rw, false, 2, 4⟩
/-- 0x3000+f.22 SPIN_RAMP. -/
def regSpinRamp : Obj :=
  ⟨0x3000, 30, 0x22, 1, .u16, .ro, false, 2, 0x14⟩
/-- 0x3000+f.23 PASSES. -/
def regPasses : Obj :=
  ⟨0x3000, 30, 0x23, 1, .u64, .ro, false, 8, 0⟩
/-- 0x3000+f.24 CHECKED_PASSES. -/
def regCheckedPasses : Obj :=
  ⟨0x3000, 30, 0x24, 1, .u64, .ro, false, 8, 0⟩
/-- 0x3000+f.25 CHECKSUM_FAILS. -/
def regChecksumFails : Obj :=
  ⟨0x3000, 30, 0x25, 1, .u32, .ro, false, 4, 0⟩
/-- 0x3000+f.26 LAST_FAIL_BLOCKS. -/
def regLastFailBlocks : Obj :=
  ⟨0x3000, 30, 0x26, 1, .u16, .ro, false, 2, 0⟩
/-- 0x3000+f.27 GIRDER_SPARES. -/
def regGirderSpares : Obj :=
  ⟨0x3000, 30, 0x27, 1, .u16, .ro, true, 2, 0⟩
/-- 0x3000+f.28 SPIN_CYCLES. -/
def regSpinCycles : Obj :=
  ⟨0x3000, 30, 0x28, 1, .u64, .ro, false, 8, 0⟩
/-- 0x3000+f.29 DIAGONAL_PASSES. -/
def regDiagonalPasses : Obj :=
  ⟨0x3000, 30, 0x29, 1, .u64, .ro, false, 8, 0⟩
/-- 0x3000+f.2A PRE_RAMPS. -/
def regPreRamps : Obj :=
  ⟨0x3000, 30, 0x2A, 1, .u32, .ro, false, 4, 0⟩
/-- 0x3000+f.2B BANK_STALLS. -/
def regBankStalls : Obj :=
  ⟨0x3000, 30, 0x2B, 1, .u64, .ro, false, 8, 0⟩
/-- 0x3000+f.2C CHECK_SPACING_STALLS. -/
def regCheckSpacingStalls : Obj :=
  ⟨0x3000, 30, 0x2C, 1, .u64, .ro, false, 8, 0⟩
/-- 0x3000+f.30 WINDOW_PASSES. -/
def regWindowPasses : Obj :=
  ⟨0x3000, 30, 0x30, 1, .u64, .ro, false, 8, 0⟩
/-- 0x3000+f.31 WINDOW_DROPS. -/
def regWindowDrops : Obj :=
  ⟨0x3000, 30, 0x31, 1, .u64, .ro, false, 8, 0⟩
/-- 0x3000+f.32 SATURATIONS. -/
def regSaturations : Obj :=
  ⟨0x3000, 30, 0x32, 1, .u64, .ro, false, 8, 0⟩
/-- 0x3000+f.33 NONFINITE. -/
def regNonfinite : Obj :=
  ⟨0x3000, 30, 0x33, 1, .u64, .ro, false, 8, 0⟩
/-- 0x3000+f.34 BOUNDED_CHECKS. -/
def regBoundedChecks : Obj :=
  ⟨0x3000, 30, 0x34, 1, .u32, .ro, false, 4, 0⟩
/-- 0x3000+f.40 BANK_POWER. -/
def regBankPower : Obj :=
  ⟨0x3000, 30, 0x40, 1, .blob, .rwt, false, 40, 0⟩
/-- 0x3000+f.41 BANK_STATE. -/
def regBankState : Obj :=
  ⟨0x3000, 30, 0x41, 1, .blob, .ro, false, 40, 0⟩
/-- 0x3000+f.42 ECC_CORRECTED. -/
def regEccCorrected : Obj :=
  ⟨0x3000, 30, 0x42, 1, .u64, .ro, false, 8, 0⟩
/-- 0x3000+f.43 ECC_UNCORRECTED. -/
def regEccUncorrected : Obj :=
  ⟨0x3000, 30, 0x43, 1, .u32, .ro, false, 4, 0⟩
/-- 0x3000+f.44 SPARE_ROWS_USED. -/
def regSpareRowsUsed : Obj :=
  ⟨0x3000, 30, 0x44, 1, .blob, .ro, true, 80, 0⟩
/-- 0x3000+f.45 SCRUB_PERIOD. -/
def regScrubPeriod : Obj :=
  ⟨0x3000, 30, 0x45, 1, .u16, .rw, false, 2, 0x64⟩
/-- 0x3000+f.46 RETAIN_SCRUB. -/
def regRetainScrub : Obj :=
  ⟨0x3000, 30, 0x46, 1, .u16, .rw, false, 2, 0x3C⟩
/-- 0x3000+f.47 AGED_GRANTS. -/
def regAgedGrants : Obj :=
  ⟨0x3000, 30, 0x47, 1, .u64, .ro, false, 8, 0⟩
/-- 0x3000+f.48 NARROW_WRITES. -/
def regNarrowWrites : Obj :=
  ⟨0x3000, 30, 0x48, 1, .u64, .ro, false, 8, 0⟩
/-- 0x3000+f.49 REGION_TABLE. -/
def regRegionTable : Obj :=
  ⟨0x3000, 30, 0x49, 1, .blob, .ro, false, 256, 0⟩
/-- 0x3000+f.4A REFILLS. -/
def regRefills : Obj :=
  ⟨0x3000, 30, 0x4A, 1, .u32, .ro, false, 4, 0⟩
/-- 0x3000+f.50 SEQ_STATE. -/
def regSeqState : Obj :=
  ⟨0x3000, 30, 0x50, 1, .u8, .ro, false, 1, 0⟩
/-- 0x3000+f.51 PROGRAM_BUILD. -/
def regProgramBuild : Obj :=
  ⟨0x3000, 30, 0x51, 1, .u32, .ro, false, 4, 0⟩
/-- 0x3000+f.52 PROGRAM_DIGEST. -/
def regProgramDigest : Obj :=
  ⟨0x3000, 30, 0x52, 1, .blob, .ro, false, 32, 0⟩
/-- 0x3000+f.53 VARIANT. -/
def regVariant : Obj :=
  ⟨0x3000, 30, 0x53, 1, .u8, .ro, false, 1, 0⟩
/-- 0x3000+f.54 TWIN_MISMATCHES. -/
def regTwinMismatches : Obj :=
  ⟨0x3000, 30, 0x54, 1, .u32, .ro, false, 4, 0⟩
/-- 0x3000+f.55 PROG_ECC_CORRECTED. -/
def regProgEccCorrected : Obj :=
  ⟨0x3000, 30, 0x55, 1, .u32, .ro, false, 4, 0⟩
/-- 0x3000+f.56 ISSUE_WAITS. -/
def regIssueWaits : Obj :=
  ⟨0x3000, 30, 0x56, 1, .u64, .ro, false, 8, 0⟩
/-- 0x3000+f.57 RUNAHEAD_READS. -/
def regRunaheadReads : Obj :=
  ⟨0x3000, 30, 0x57, 1, .u64, .ro, false, 8, 0⟩
/-- 0x3000+f.58 RUNAHEAD_DROPS. -/
def regRunaheadDrops : Obj :=
  ⟨0x3000, 30, 0x58, 1, .u64, .ro, false, 8, 0⟩
/-- 0x3000+f.59 LAST_FAULT. -/
def regLastFault : Obj :=
  ⟨0x3000, 30, 0x59, 1, .u32, .ro, false, 4, 0⟩
/-- 0x3000+f.5A PHASE. -/
def regPhase : Obj :=
  ⟨0x3000, 30, 0x5A, 1, .u8, .ro, false, 1, 4⟩
/-- 0x5100+s.0E STEP_VARIANT. -/
def regStepVariant : Obj :=
  ⟨0x5100, 8, 0x0E, 1, .u8, .rwt, false, 1, 0⟩
/-- 0x3000+f.60 VEC_OPS. -/
def regVecOps : Obj :=
  ⟨0x3000, 30, 0x60, 1, .u64, .ro, false, 8, 0⟩
/-- 0x3000+f.61 VEC_NONFINITE. -/
def regVecNonfinite : Obj :=
  ⟨0x3000, 30, 0x61, 1, .u64, .ro, false, 8, 0⟩
/-- 0x3000+f.62 VEC_SATURATIONS. -/
def regVecSaturations : Obj :=
  ⟨0x3000, 30, 0x62, 1, .u64, .ro, false, 8, 0⟩
/-- 0x3000+f.63 GATHER_ELEMENTS. -/
def regGatherElements : Obj :=
  ⟨0x3000, 30, 0x63, 1, .u64, .ro, false, 8, 0⟩
/-- 0x3000+f.64 TOPP_TRUNCATIONS. -/
def regToppTruncations : Obj :=
  ⟨0x3000, 30, 0x64, 1, .u32, .ro, false, 4, 0⟩
/-- 0x3000+f.65 NOTIFIES. -/
def regNotifies : Obj :=
  ⟨0x3000, 30, 0x65, 1, .u64, .ro, false, 8, 0⟩
/-- 0x3000+f.66 SIGNAL_DROPS. -/
def regSignalDrops : Obj :=
  ⟨0x3000, 30, 0x66, 1, .u32, .ro, false, 4, 0⟩
/-- 0x3000+f.67 VEC_STALLS. -/
def regVecStalls : Obj :=
  ⟨0x3000, 30, 0x67, 1, .u64, .ro, false, 8, 0⟩
/-- 0x5100+s.0F SAMPLER_SEED. -/
def regSamplerSeed : Obj :=
  ⟨0x5100, 8, 0x0F, 1, .u64, .rwt, false, 8, 0⟩
/-- 0x5100+s.10 SPEC_ROLE. -/
def regSpecRole : Obj :=
  ⟨0x5100, 8, 0x10, 1, .u8, .rwt, false, 1, 0⟩
/-- 0x5100+s.11 PAIR_SPAN. -/
def regPairSpan : Obj :=
  ⟨0x5100, 8, 0x11, 1, .u8, .rwt, false, 1, 0xFF⟩
/-- 0x5100+s.12 PROPOSAL_TIMEOUT. -/
def regProposalTimeout : Obj :=
  ⟨0x5100, 8, 0x12, 1, .u32, .rwt, false, 4, 0xC8⟩
/-- 0x5100+s.13 VARIANT_NODES. -/
def regVariantNodes : Obj :=
  ⟨0x5100, 8, 0x13, 1, .blob, .rwt, false, 8, 0⟩
/-- 0x5100+s.14 DRAFT_DEPTHS. -/
def regDraftDepths : Obj :=
  ⟨0x5100, 8, 0x14, 1, .blob, .rwt, false, 8, 0⟩
/-- 0x5100+s.15 END_TOKEN. -/
def regEndToken : Obj :=
  ⟨0x5100, 8, 0x15, 1, .u32, .rwt, false, 4, 0xFFFFFFFF⟩
/-- 0x5100+s.16 COST_D0. -/
def regCostD0 : Obj :=
  ⟨0x5100, 8, 0x16, 1, .u32, .rwt, false, 4, 0x2EE0⟩
/-- 0x5100+s.17 COST_DL. -/
def regCostDl : Obj :=
  ⟨0x5100, 8, 0x17, 1, .u32, .rwt, false, 4, 0x1F40⟩
/-- 0x5100+s.18 COST_V. -/
def regCostV : Obj :=
  ⟨0x5100, 8, 0x18, 1, .blob, .rwt, false, 32, 0x4C2C00004C2C00004C2C00004C2C00004C2C00004C2C00004C2C00004C2C0⟩
/-- 0x5100+s.19 TREES_VERIFIED. -/
def regTreesVerified : Obj :=
  ⟨0x5100, 8, 0x19, 1, .u64, .ro, false, 8, 0⟩
/-- 0x5100+s.1A TOKENS_EMITTED. -/
def regTokensEmitted : Obj :=
  ⟨0x5100, 8, 0x1A, 1, .u64, .ro, false, 8, 0⟩
/-- 0x5100+s.1B ALT_ACCEPTS. -/
def regAltAccepts : Obj :=
  ⟨0x5100, 8, 0x1B, 1, .u64, .ro, false, 8, 0⟩
/-- 0x5100+s.1C HOLE_SLOTS. -/
def regHoleSlots : Obj :=
  ⟨0x5100, 8, 0x1C, 1, .u64, .ro, false, 8, 0⟩
/-- 0x5100+s.1D PROPOSALS_REPLACED. -/
def regProposalsReplaced : Obj :=
  ⟨0x5100, 8, 0x1D, 1, .u32, .ro, false, 4, 0⟩
/-- 0x5100+s.1E PRED_SHAPE. -/
def regPredShape : Obj :=
  ⟨0x5100, 8, 0x1E, 1, .u16, .ro, false, 2, 0x402⟩
/-- 0x5100+s.1F PRED_OBSERVATIONS. -/
def regPredObservations : Obj :=
  ⟨0x5100, 8, 0x1F, 1, .u32, .ro, false, 4, 0⟩
/-- 0x5100+s.20 PRED_RESET. -/
def regPredReset : Obj :=
  ⟨0x5100, 8, 0x20, 1, .bool, .wo, false, 1, 0⟩
/-- 0x4000+t.01 TOWER_STATE. -/
def regTowerState : Obj :=
  ⟨0x4000, 24, 0x01, 1, .u8, .ro, false, 1, 0⟩
/-- 0x4000+t.02 CHANNEL_STATE. -/
def regChannelState : Obj :=
  ⟨0x4000, 24, 0x02, 1, .blob, .ro, false, 8, 0⟩
/-- 0x4000+t.03 ERASED_DIE. -/
def regErasedDie : Obj :=
  ⟨0x4000, 24, 0x03, 1, .u8, .ro, true, 1, 0xFF⟩
/-- 0x4000+t.04 CORRECTED. -/
def regCorrected : Obj :=
  ⟨0x4000, 24, 0x04, 1, .u64, .ro, false, 8, 0⟩
/-- 0x4000+t.05 UNCORRECTED. -/
def regUncorrected : Obj :=
  ⟨0x4000, 24, 0x05, 1, .u32, .ro, false, 4, 0⟩
/-- 0x4000+t.06 EDC_REPLAYS. -/
def regEdcReplays : Obj :=
  ⟨0x4000, 24, 0x06, 1, .u64, .ro, false, 8, 0⟩
/-- 0x4000+t.07 RETRAINS. -/
def regRetrains : Obj :=
  ⟨0x4000, 24, 0x07, 1, .u32, .ro, false, 4, 0⟩
/-- 0x4000+t.08 TEMPERATURE. -/
def regTemperature : Obj :=
  ⟨0x4000, 24, 0x08, 1, .f32, .ro, false, 4, 0⟩
/-- 0x4000+t.09 ROW_REPAIRS. -/
def regRowRepairs : Obj :=
  ⟨0x4000, 24, 0x09, 1, .u16, .ro, true, 2, 0⟩
/-- 0x4000+t.0A TEST_RESULT. -/
def regTestResult : Obj :=
  ⟨0x4000, 24, 0x0A, 1, .u8, .ro, false, 1, 0⟩
/-- 0x4000+t.0B POWER. -/
def regPower : Obj :=
  ⟨0x4000, 24, 0x0B, 1, .f32, .ro, false, 4, 0⟩
/-- 0x4020.01 SCRUB_HOURS. -/
def regScrubHours : Obj :=
  ⟨0x4020, 1, 0x01, 1, .u16, .rw, true, 2, 0x18⟩
/-- 0x4040+k.01 SET_DESC. -/
def regSetDesc : Obj :=
  ⟨0x4040, 16, 0x01, 1, .blob, .rwt, true, 64, 0⟩
/-- 0x4040+k.02 SET_STATE. -/
def regSetState : Obj :=
  ⟨0x4040, 16, 0x02, 1, .u8, .ro, false, 1, 0⟩
/-- 0x4040+k.03 LOST_FIELD. -/
def regLostField : Obj :=
  ⟨0x4040, 16, 0x03, 1, .u8, .ro, false, 1, 0xFF⟩
/-- 0x4040+k.04 MIRROR_HEALS. -/
def regMirrorHeals : Obj :=
  ⟨0x4040, 16, 0x04, 1, .u32, .ro, false, 4, 0⟩
/-- 0x4080.01 ROUTING. -/
def regRouting : Obj :=
  ⟨0x4080, 1, 0x01, 1, .u8, .ro, false, 1, 0⟩
/-- 0x4080.02 MAX_HOPS. -/
def regMaxHops : Obj :=
  ⟨0x4080, 1, 0x02, 1, .u8, .ro, false, 1, 0x14⟩
/-- 0x4080.03 BARRIER_BOUND. -/
def regBarrierBound : Obj :=
  ⟨0x4080, 1, 0x03, 1, .u32, .ro, false, 4, 0x7BC⟩
/-- 0x4080.04 LOST_RESPONSES. -/
def regLostResponses : Obj :=
  ⟨0x4080, 1, 0x04, 1, .u32, .ro, false, 4, 0⟩
/-- 0x4080.05 MCAST_RESENDS. -/
def regMcastResends : Obj :=
  ⟨0x4080, 1, 0x05, 1, .u32, .ro, false, 4, 0⟩
/-- 0x4080.06 MCAST_PARTIALS. -/
def regMcastPartials : Obj :=
  ⟨0x4080, 1, 0x06, 1, .u32, .ro, false, 4, 0⟩
/-- 0x4080.07 ROUTE_CHANGES. -/
def regRouteChanges : Obj :=
  ⟨0x4080, 1, 0x07, 1, .u32, .ro, false, 4, 0⟩
/-- 0x4100+r.01 LINK_STATE. -/
def regLinkState : Obj :=
  ⟨0x4100, 120, 0x01, 1, .blob, .ro, false, 4, 0⟩
/-- 0x4100+r.02 SPARE_WIRES. -/
def regSpareWires : Obj :=
  ⟨0x4100, 120, 0x02, 1, .blob, .ro, true, 4, 0⟩
/-- 0x4100+r.03 REPLAYS. -/
def regReplays : Obj :=
  ⟨0x4100, 120, 0x03, 1, .u64, .ro, false, 8, 0⟩
/-- 0x4100+r.04 FLITS_OUT. -/
def regFlitsOut : Obj :=
  ⟨0x4100, 120, 0x04, 1, .blob, .ro, false, 64, 0⟩
/-- 0x4100+r.05 MAX_WAIT. -/
def regMaxWait : Obj :=
  ⟨0x4100, 120, 0x05, 1, .u16, .ro, false, 2, 0⟩
/-- 0x4100+r.06 DETOUR_TABLE. -/
def regDetourTable : Obj :=
  ⟨0x4100, 120, 0x06, 1, .blob, .ro, false, 120, 0⟩
/-- 0x4100+r.07 DROPS. -/
def regDrops : Obj :=
  ⟨0x4100, 120, 0x07, 1, .u32, .ro, false, 4, 0⟩
/-- 0x5100+s.21 MESH_MODE. -/
def regMeshMode : Obj :=
  ⟨0x5100, 8, 0x21, 1, .u8, .rwt, false, 1, 0⟩
/-- 0x5100+s.22 TIMETABLE_ADDR. -/
def regTimetableAddr : Obj :=
  ⟨0x5100, 8, 0x22, 1, .u64, .rwt, false, 8, 0⟩
/-- 0x5100+s.23 TIMETABLE_SLIPS. -/
def regTimetableSlips : Obj :=
  ⟨0x5100, 8, 0x23, 1, .u32, .ro, false, 4, 0⟩
/-- 0x3000+f.70 MOVER_SPAN. -/
def regMoverSpan : Obj :=
  ⟨0x3000, 30, 0x70, 1, .blob, .rwt, false, 16, 0xFFFFFFFFFFFFFFFFFFFFFFFFFFFFFFFF⟩
/-- 0x3000+f.71 MOVER_STATE. -/
def regMoverState : Obj :=
  ⟨0x3000, 30, 0x71, 1, .blob, .ro, false, 16, 0⟩
/-- 0x3000+f.72 MOVER_BYTES. -/
def regMoverBytes : Obj :=
  ⟨0x3000, 30, 0x72, 1, .u64, .ro, false, 8, 0⟩
/-- 0x3000+f.73 MOVER_TRANSFERS. -/
def regMoverTransfers : Obj :=
  ⟨0x3000, 30, 0x73, 1, .u64, .ro, false, 8, 0⟩
/-- 0x3000+f.74 MOVER_ERRORS. -/
def regMoverErrors : Obj :=
  ⟨0x3000, 30, 0x74, 1, .u32, .ro, false, 4, 0⟩
/-- 0x3000+f.75 PREEMPTIONS. -/
def regPreemptions : Obj :=
  ⟨0x3000, 30, 0x75, 1, .u64, .ro, false, 8, 0⟩
/-- 0x3000+f.76 LATE_STARTS. -/
def regLateStarts : Obj :=
  ⟨0x3000, 30, 0x76, 1, .u32, .ro, false, 4, 0⟩
/-- 0x3000+f.77 TRIGGER_OVERRUNS. -/
def regTriggerOverruns : Obj :=
  ⟨0x3000, 30, 0x77, 1, .u32, .ro, false, 4, 0⟩
/-- 0x3000+f.78 READBACKS. -/
def regReadbacks : Obj :=
  ⟨0x3000, 30, 0x78, 1, .u64, .ro, false, 8, 0⟩
/-- 0x5000.01 ACTIVE_SUPERVISOR. -/
def regActiveSupervisor : Obj :=
  ⟨0x5000, 1, 0x01, 1, .u8, .ro, false, 1, 0⟩
/-- 0x5000.02 SUPERVISOR_SWAP. -/
def regSupervisorSwap : Obj :=
  ⟨0x5000, 1, 0x02, 1, .bool, .wo, false, 1, 0⟩
/-- 0x5000.03 TAKEOVERS. -/
def regTakeovers : Obj :=
  ⟨0x5000, 1, 0x03, 1, .u32, .ro, true, 4, 0⟩
/-- 0x5100+s.24 PLACEMENT. -/
def regPlacement : Obj :=
  ⟨0x5100, 8, 0x24, 1, .blob, .rwt, false, 64, 0⟩
/-- 0x5100+s.25 SPAN_COMMAND. -/
def regSpanCommand : Obj :=
  ⟨0x5100, 8, 0x25, 1, .u8, .wo, false, 1, 0⟩
/-- 0x5100+s.26 SPAN_CLASS. -/
def regSpanClass : Obj :=
  ⟨0x5100, 8, 0x26, 1, .u8, .rwt, false, 1, 0⟩
/-- 0x5100+s.27 MEMBERS. -/
def regMembers : Obj :=
  ⟨0x5100, 8, 0x27, 1, .blob, .ro, false, 240, 0⟩
/-- 0x5100+s.28 REQ_QUEUE. -/
def regReqQueue : Obj :=
  ⟨0x5100, 8, 0x28, 1, .u64, .ro, false, 8, 0⟩
/-- 0x5100+s.29 OUT_QUEUE. -/
def regOutQueue : Obj :=
  ⟨0x5100, 8, 0x29, 1, .u64, .ro, false, 8, 0⟩
/-- 0x5200+s.01–.30 GROUP. -/
def regGroup : Obj :=
  ⟨0x5200, 8, 0x01, 48, .blob, .rwt, false, 32, 0⟩
/-- 0x3000+f.80 CORE_SPAN. -/
def regCoreSpan : Obj :=
  ⟨0x3000, 30, 0x80, 1, .blob, .rwt, false, 4, 0xFFFFFFFF⟩
/-- 0x5800+n.01–.40 ACCESS_ENTRY. -/
def regAccessEntry : Obj :=
  ⟨0x5800, 158, 0x01, 64, .blob, .rwt, true, 16, 0⟩
/-- 0x5800+n.41 VIOLATIONS. -/
def regViolations : Obj :=
  ⟨0x5800, 158, 0x41, 1, .u32, .ro, false, 4, 0⟩
/-- 0x5800+n.42 LAST_VIOLATION. -/
def regLastViolation : Obj :=
  ⟨0x5800, 158, 0x42, 1, .blob, .ro, false, 16, 0⟩
/-- 0x5100+s.2A CHECK_PROFILE. -/
def regCheckProfile : Obj :=
  ⟨0x5100, 8, 0x2A, 1, .u8, .rwt, false, 1, 0⟩
/-- 0x5100+s.2B DIGEST_SEED. -/
def regDigestSeed : Obj :=
  ⟨0x5100, 8, 0x2B, 1, .u64, .rwt, false, 8, 0⟩
/-- 0x5100+s.2C DIGEST_FAILS. -/
def regDigestFails : Obj :=
  ⟨0x5100, 8, 0x2C, 1, .u32, .ro, false, 4, 0⟩
/-- 0x5100+s.2D DIGEST_SKIPS. -/
def regDigestSkips : Obj :=
  ⟨0x5100, 8, 0x2D, 1, .u32, .ro, false, 4, 0⟩
/-- 0x5100+s.2E TEST_PAUSE. -/
def regTestPause : Obj :=
  ⟨0x5100, 8, 0x2E, 1, .bool, .rwt, false, 1, 1⟩
/-- 0x3000+f.90 VEC_CHECK_FAILS. -/
def regVecCheckFails : Obj :=
  ⟨0x3000, 30, 0x90, 1, .u32, .ro, false, 4, 0⟩
/-- 0x3000+f.91 TURN_CHECK_FAILS. -/
def regTurnCheckFails : Obj :=
  ⟨0x3000, 30, 0x91, 1, .u32, .ro, false, 4, 0⟩
/-- 0x3000+f.92 WEIGHT_DIGEST. -/
def regWeightDigest : Obj :=
  ⟨0x3000, 30, 0x92, 1, .blob, .ro, false, 32, 0⟩
/-- 0x3000+f.93 REGION_DIGESTS. -/
def regRegionDigests : Obj :=
  ⟨0x3000, 30, 0x93, 1, .blob, .ro, false, 512, 0⟩
/-- 0x3000+f.94 HOME_DIGESTS. -/
def regHomeDigests : Obj :=
  ⟨0x3000, 30, 0x94, 1, .blob, .ro, false, 512, 0⟩
/-- 0x3000+f.95 DIGEST_PASS_TIME. -/
def regDigestPassTime : Obj :=
  ⟨0x3000, 30, 0x95, 1, .time64, .ro, false, 8, 0⟩
/-- 0x3000+f.96 WEIGHT_DIGEST_FAILS. -/
def regWeightDigestFails : Obj :=
  ⟨0x3000, 30, 0x96, 1, .u32, .ro, false, 4, 0⟩
/-- 0x3000+f.97 TEST_LAST_CLEAN. -/
def regTestLastClean : Obj :=
  ⟨0x3000, 30, 0x97, 1, .time64, .ro, false, 8, 0⟩
/-- 0x3000+f.98 TEST_RUNS. -/
def regTestRuns : Obj :=
  ⟨0x3000, 30, 0x98, 1, .u64, .ro, false, 8, 0⟩
/-- 0x3000+f.99 TEST_FAILS. -/
def regTestFails : Obj :=
  ⟨0x3000, 30, 0x99, 1, .u32, .ro, false, 4, 0⟩
/-- 0x3000+f.9A TEST_ABANDONED. -/
def regTestAbandoned : Obj :=
  ⟨0x3000, 30, 0x9A, 1, .u32, .ro, false, 4, 0⟩
/-- 0x3000+f.9B LAST_TEST_FAIL. -/
def regLastTestFail : Obj :=
  ⟨0x3000, 30, 0x9B, 1, .u64, .ro, false, 8, 0⟩
/-- 0x6000.01 WEIGHT_DIGEST_PERIOD. -/
def regWeightDigestPeriod : Obj :=
  ⟨0x6000, 1, 0x01, 1, .u16, .rw, true, 2, 0x3C⟩
/-- 0x6000.02 TEST_PERIOD. -/
def regTestPeriod : Obj :=
  ⟨0x6000, 1, 0x02, 1, .u16, .rw, true, 2, 0xF⟩
/-- 0x6000.03 TESTS_ENABLE. -/
def regTestsEnable : Obj :=
  ⟨0x6000, 1, 0x03, 1, .bool, .rw, true, 1, 1⟩
/-- 0x6000.04 TEST_PACK_VERSION. -/
def regTestPackVersion : Obj :=
  ⟨0x6000, 1, 0x04, 1, .u32, .ro, true, 4, 0⟩
/-- 0x6000.05 TEST_PACK_DIGEST. -/
def regTestPackDigest : Obj :=
  ⟨0x6000, 1, 0x05, 1, .blob, .ro, true, 32, 0⟩
/-- 0x6000.06 COVERAGE_OVERDUE. -/
def regCoverageOverdue : Obj :=
  ⟨0x6000, 1, 0x06, 1, .u32, .ro, false, 4, 0⟩
/-- 0x1030.00 CAPACITY. -/
def regCapacity : Obj :=
  ⟨0x1030, 1, 0x00, 1, .blob, .ro, false, 64, 0⟩
/-- 0x6100.01 PERMANENT_COUNT. -/
def regPermanentCount : Obj :=
  ⟨0x6100, 1, 0x01, 1, .u32, .ro, true, 4, 0⟩
/-- 0x6100.02 RETIREMENT_MAP. -/
def regRetirementMap : Obj :=
  ⟨0x6100, 1, 0x02, 1, .blob, .ro, true, 65536, 0⟩
/-- 0x6100.03 UNIT_SELECT. -/
def regUnitSelect : Obj :=
  ⟨0x6100, 1, 0x03, 1, .u32, .rw, false, 4, 0⟩
/-- 0x6100.04 RETIRE_UNIT. -/
def regRetireUnit : Obj :=
  ⟨0x6100, 1, 0x04, 1, .u32, .wo, false, 4, 0⟩
/-- 0x6100.05 UNIT_HISTORY. -/
def regUnitHistory : Obj :=
  ⟨0x6100, 1, 0x05, 1, .blob, .ro, true, 48, 0⟩
/-- 0x3000+f.A0 PIER_STATUS. -/
def regPierStatus : Obj :=
  ⟨0x3000, 30, 0xA0, 1, .u8, .ro, true, 1, 0⟩
/-- 0x3000+f.A1 REG_CELLS_RETIRED. -/
def regRegCellsRetired : Obj :=
  ⟨0x3000, 30, 0xA1, 1, .u16, .ro, true, 2, 0⟩
/-- 0x3000+f.A2 FIELD_OCCURRENCES. -/
def regFieldOccurrences : Obj :=
  ⟨0x3000, 30, 0xA2, 1, .u32, .ro, true, 4, 0⟩
/-- 0x5100+s.30 NMINUS1_PLANS. -/
def regNminus1Plans : Obj :=
  ⟨0x5100, 8, 0x30, 1, .blob, .rwt, false, 256, 0⟩
/-- 0x5100+s.31 RECOVERIES. -/
def regRecoveries : Obj :=
  ⟨0x5100, 8, 0x31, 1, .u32, .ro, false, 4, 0⟩
/-- 0x9000.01 CURSOR. -/
def regCursor : Obj :=
  ⟨0x9000, 1, 0x01, 1, .u64, .rw, false, 8, 0⟩
/-- 0x9000.02 FIRST_SEQ. -/
def regFirstSeq : Obj :=
  ⟨0x9000, 1, 0x02, 1, .u64, .ro, false, 8, 0⟩
/-- 0x9000.03 LAST_SEQ. -/
def regLastSeq : Obj :=
  ⟨0x9000, 1, 0x03, 1, .u64, .ro, false, 8, 0⟩
/-- 0x9000.04 DIE_FIRST_SEQ. -/
def regDieFirstSeq : Obj :=
  ⟨0x9000, 1, 0x04, 1, .u64, .ro, false, 8, 0⟩
/-- 0x9000.05 LOST_RECORDS. -/
def regLostRecords : Obj :=
  ⟨0x9000, 1, 0x05, 1, .u64, .ro, true, 8, 0⟩
/-- 0x9000.06 IRQ_CLASSES. -/
def regIrqClasses : Obj :=
  ⟨0x9000, 1, 0x06, 1, .u16, .rw, true, 2, 0xFFE⟩
/-- 0x9000.07 CLEAR. -/
def regClear : Obj :=
  ⟨0x9000, 1, 0x07, 1, .bool, .wo, false, 1, 0⟩
/-- 0x9010.00 WINDOW. -/
def regWindow : Obj :=
  ⟨0x9010, 1, 0x00, 1, .blob, .ro, false, 1024, 0⟩
/-- 0x7000.01 REF_SELECTED. -/
def regRefSelected : Obj :=
  ⟨0x7000, 1, 0x01, 1, .u8, .ro, false, 1, 0⟩
/-- 0x7000.02 REF_STATUS. -/
def regRefStatus : Obj :=
  ⟨0x7000, 1, 0x02, 1, .u8, .ro, false, 1, 0⟩
/-- 0x7000.03 REF_PREFERRED. -/
def regRefPreferred : Obj :=
  ⟨0x7000, 1, 0x03, 1, .u8, .rw, true, 1, 0⟩
/-- 0x7000.04 REF_REVERT. -/
def regRefRevert : Obj :=
  ⟨0x7000, 1, 0x04, 1, .bool, .rw, true, 1, 0⟩
/-- 0x7000.05 REF_SWITCHES. -/
def regRefSwitches : Obj :=
  ⟨0x7000, 1, 0x05, 1, .u32, .ro, false, 4, 0⟩
/-- 0x7010.01 DEVICE_TIME. -/
def regDeviceTime : Obj :=
  ⟨0x7010, 1, 0x01, 1, .time64, .ro, false, 8, 0⟩
/-- 0x7010.02 TIMEBASE_STATUS. -/
def regTimebaseStatus : Obj :=
  ⟨0x7010, 1, 0x02, 1, .u16, .ro, false, 2, 0⟩
/-- 0x7010.03 MAX_FIELD_ERROR. -/
def regMaxFieldError : Obj :=
  ⟨0x7010, 1, 0x03, 1, .i32, .ro, false, 4, 0⟩
/-- 0x7010.04 NO_RATE. -/
def regNoRate : Obj :=
  ⟨0x7010, 1, 0x04, 1, .u32, .ro, false, 4, 0⟩
/-- 0x7020.01 PTP_ENABLE. -/
def regPtpEnable : Obj :=
  ⟨0x7020, 1, 0x01, 1, .bool, .rw, true, 1, 0⟩
/-- 0x7020.02 PTP_PORT. -/
def regPtpPort : Obj :=
  ⟨0x7020, 1, 0x02, 1, .u8, .rw, true, 1, 0⟩
/-- 0x7020.03 PTP_DOMAIN. -/
def regPtpDomain : Obj :=
  ⟨0x7020, 1, 0x03, 1, .u8, .rw, true, 1, 0⟩
/-- 0x7020.04 PTP_TRANSPORT. -/
def regPtpTransport : Obj :=
  ⟨0x7020, 1, 0x04, 1, .u8, .rw, true, 1, 1⟩
/-- 0x7020.05 PTP_DELAY. -/
def regPtpDelay : Obj :=
  ⟨0x7020, 1, 0x05, 1, .u8, .rw, true, 1, 0⟩
/-- 0x7020.06 PTP_OFFSET. -/
def regPtpOffset : Obj :=
  ⟨0x7020, 1, 0x06, 1, .i32, .ro, false, 4, 0⟩
/-- 0x7020.07 PTP_STEP_LIMIT. -/
def regPtpStepLimit : Obj :=
  ⟨0x7020, 1, 0x07, 1, .u32, .rw, true, 4, 0x3E8⟩
/-- 0x7020.08 PTP_TRANSMITTER. -/
def regPtpTransmitter : Obj :=
  ⟨0x7020, 1, 0x08, 1, .blob, .ro, false, 8, 0⟩
/-- 0x3000+f.B0 ACLK_FREQ. -/
def regAclkFreq : Obj :=
  ⟨0x3000, 30, 0xB0, 1, .u32, .ro, false, 4, 0xC3500⟩
/-- 0x3000+f.B1 PLL_STATE. -/
def regPllState : Obj :=
  ⟨0x3000, 30, 0xB1, 1, .u8, .ro, false, 1, 0⟩
/-- 0x3000+f.B2 DRAWBRIDGES. -/
def regDrawbridges : Obj :=
  ⟨0x3000, 30, 0xB2, 1, .u32, .ro, false, 4, 0⟩
/-- 0x3000+f.B3 STRETCHED_PERIODS. -/
def regStretchedPeriods : Obj :=
  ⟨0x3000, 30, 0xB3, 1, .u64, .ro, false, 8, 0⟩
/-- 0x3000+f.B4 DRAWBRIDGE_MAX. -/
def regDrawbridgeMax : Obj :=
  ⟨0x3000, 30, 0xB4, 1, .u16, .ro, false, 2, 0⟩
/-- 0x2000.01 POWER_CAP. -/
def regPowerCap : Obj :=
  ⟨0x2000, 1, 0x01, 1, .u32, .rw, true, 4, 0x2904⟩
/-- 0x2000.02 CAP_GAIN. -/
def regCapGain : Obj :=
  ⟨0x2000, 1, 0x02, 1, .u16, .rw, true, 2, 0x64⟩
/-- 0x2000.03 GUARD_BAND. -/
def regGuardBand : Obj :=
  ⟨0x2000, 1, 0x03, 1, .u8, .rw, true, 1, 0⟩
/-- 0x2000.04 INPUT_POWER. -/
def regInputPower : Obj :=
  ⟨0x2000, 1, 0x04, 1, .f32, .ro, false, 4, 0⟩
/-- 0x2000.05 INPUT_VOLTAGE. -/
def regInputVoltage : Obj :=
  ⟨0x2000, 1, 0x05, 1, .f32, .ro, false, 4, 0⟩
/-- 0x2000.06 BUBBLE_FRACTION. -/
def regBubbleFraction : Obj :=
  ⟨0x2000, 1, 0x06, 1, .f32, .ro, false, 4, 0⟩
/-- 0x2000.07 CAP_LIMIT. -/
def regCapLimit : Obj :=
  ⟨0x2000, 1, 0x07, 1, .u8, .ro, false, 1, 7⟩
/-- 0x2000.08 CAP_LOWERINGS. -/
def regCapLowerings : Obj :=
  ⟨0x2000, 1, 0x08, 1, .u32, .ro, false, 4, 0⟩
/-- 0x2000.09 ALERT_STATE. -/
def regAlertState : Obj :=
  ⟨0x2000, 1, 0x09, 1, .bool, .ro, false, 1, 0⟩
/-- 0x2000.0A ALERT_COUNT. -/
def regAlertCount : Obj :=
  ⟨0x2000, 1, 0x0A, 1, .u32, .ro, false, 4, 0⟩
/-- 0x2000.0B ALERT_HOLD. -/
def regAlertHold : Obj :=
  ⟨0x2000, 1, 0x0B, 1, .u16, .rw, true, 2, 0x64⟩
/-- 0x2000.0C PHASE_HOLD. -/
def regPhaseHold : Obj :=
  ⟨0x2000, 1, 0x0C, 1, .u16, .rw, true, 2, 0xC8⟩
/-- 0x2000.0D IDLE_OP. -/
def regIdleOp : Obj :=
  ⟨0x2000, 1, 0x0D, 1, .u8, .rw, true, 1, 1⟩
/-- 0x2000.0E ENERGY. -/
def regEnergy : Obj :=
  ⟨0x2000, 1, 0x0E, 1, .u64, .ro, false, 8, 0⟩
/-- 0x2000.0F OPERATING_TIME. -/
def regOperatingTime : Obj :=
  ⟨0x2000, 1, 0x0F, 1, .u32, .ro, true, 4, 0⟩
/-- 0x2000.10 POWER_CYCLES. -/
def regPowerCycles : Obj :=
  ⟨0x2000, 1, 0x10, 1, .u32, .ro, true, 4, 0⟩
/-- 0x2000.11 CONTACT_THRESHOLD. -/
def regContactThreshold : Obj :=
  ⟨0x2000, 1, 0x11, 1, .u8, .rw, true, 1, 0x14⟩
/-- 0x2000.12 ZONE_CURRENT. -/
def regZoneCurrent : Obj :=
  ⟨0x2000, 1, 0x12, 1, .blob, .ro, false, 40, 0⟩
/-- 0x2010.01 THROTTLE_TEMP. -/
def regThrottleTemp : Obj :=
  ⟨0x2010, 1, 0x01, 1, .u8, .rw, true, 1, 0x5F⟩
/-- 0x2010.02 PIER_OFF_TEMP. -/
def regPierOffTemp : Obj :=
  ⟨0x2010, 1, 0x02, 1, .u8, .rw, true, 1, 0x69⟩
/-- 0x2010.03 HEAT_SWAP. -/
def regHeatSwap : Obj :=
  ⟨0x2010, 1, 0x03, 1, .u32, .rw, true, 4, 0x3E8⟩
/-- 0x3000+f.C0 PIER_POWER. -/
def regPierPower : Obj :=
  ⟨0x3000, 30, 0xC0, 1, .u8, .ro, false, 1, 0⟩
/-- 0x3000+f.C1 PIER_POWER_REQUEST. -/
def regPierPowerRequest : Obj :=
  ⟨0x3000, 30, 0xC1, 1, .u8, .rwt, false, 1, 0⟩
/-- 0x3000+f.C2 OP_EFFECTIVE. -/
def regOpEffective : Obj :=
  ⟨0x3000, 30, 0xC2, 1, .u8, .ro, false, 1, 0⟩
/-- 0x3000+f.C3 OP_LIMITS. -/
def regOpLimits : Obj :=
  ⟨0x3000, 30, 0xC3, 1, .u8, .ro, false, 1, 0⟩
/-- 0x3000+f.C4 OP_TABLE. -/
def regOpTable : Obj :=
  ⟨0x3000, 30, 0xC4, 1, .blob, .ro, true, 64, 0x139035203C00000010E03200370000000E602EE0320000000C702D002D0000000A902B202800000008E0294023000000074027601E00000005C02580190⟩
/-- 0x3000+f.C5 OP_CEILING. -/
def regOpCeiling : Obj :=
  ⟨0x3000, 30, 0xC5, 1, .u16, .ro, true, 2, 0x3C0⟩
/-- 0x3000+f.C6 VMIN. -/
def regVmin : Obj :=
  ⟨0x3000, 30, 0xC6, 1, .blob, .ro, true, 48, 0⟩
/-- 0x3000+f.C7 VMIN_CLEAR. -/
def regVminClear : Obj :=
  ⟨0x3000, 30, 0xC7, 1, .bool, .wo, false, 1, 0⟩
/-- 0x3000+f.C8 RAIL_CURRENT. -/
def regRailCurrent : Obj :=
  ⟨0x3000, 30, 0xC8, 1, .blob, .ro, false, 12, 0⟩
/-- 0x3000+f.C9 FIELD_POWER. -/
def regFieldPower : Obj :=
  ⟨0x3000, 30, 0xC9, 1, .f32, .ro, false, 4, 0⟩
/-- 0x3000+f.CA JUNCTION_TEMP. -/
def regJunctionTemp : Obj :=
  ⟨0x3000, 30, 0xCA, 1, .f32, .ro, false, 4, 0⟩
/-- 0x3000+f.CB CONTACT_FLAGS. -/
def regContactFlags : Obj :=
  ⟨0x3000, 30, 0xCB, 1, .u32, .rw, true, 4, 0⟩
/-- 0x3000+f.CC CONTACT_DEPARTURE. -/
def regContactDeparture : Obj :=
  ⟨0x3000, 30, 0xCC, 1, .blob, .ro, false, 48, 0⟩
/-- 0x3000+f.CD BUBBLE_CYCLES. -/
def regBubbleCycles : Obj :=
  ⟨0x3000, 30, 0xCD, 1, .u64, .ro, false, 8, 0⟩
/-- 0x3000+f.CE ADMISSION_DEFERRALS. -/
def regAdmissionDeferrals : Obj :=
  ⟨0x3000, 30, 0xCE, 1, .u32, .ro, false, 4, 0⟩
/-- 0x3000+f.CF CELL_CURRENT. -/
def regCellCurrent : Obj :=
  ⟨0x3000, 30, 0xCF, 1, .blob, .ro, false, 64, 0⟩
/-- 0x5100+s.32 PHASE_OPS. -/
def regPhaseOps : Obj :=
  ⟨0x5100, 8, 0x32, 1, .blob, .rwt, false, 5, 0x105050505⟩
/-- 0x8000.01 BRINGUP_STATE. -/
def regBringupState : Obj :=
  ⟨0x8000, 1, 0x01, 1, .u8, .ro, false, 1, 0⟩
/-- 0x8000.02 START_MODE. -/
def regStartMode : Obj :=
  ⟨0x8000, 1, 0x02, 1, .u8, .rw, true, 1, 0⟩
/-- 0x8000.03 SERVICE_TIME. -/
def regServiceTime : Obj :=
  ⟨0x8000, 1, 0x03, 1, .time64, .ro, false, 8, 0⟩
/-- 0x8000.04 READY_TIME. -/
def regReadyTime : Obj :=
  ⟨0x8000, 1, 0x04, 1, .time64, .ro, false, 8, 0⟩
/-- 0x8000.05 FUSE_MAP. -/
def regFuseMap : Obj :=
  ⟨0x8000, 1, 0x05, 1, .blob, .ro, true, 952, 0x139010E00E600C700A9008E0074005C0139010E00E600C700A9008E0074005C0139010E00E600C700A9008E0074005C0139010E00E600C700A9008E0074005C0139010E00E600C700A9008E0074005C0139010E00E600C700A9008E0074005C0139010E00E600C700A9008E0074005C0139010E00E600C700A9008E0074005C0139010E00E600C700A9008E0074005C0139010E00E600C700A9008E0074005C0139010E00E600C700A9008E0074005C0139010E00E600C700A9008E0074005C0139010E00E600C700A9008E0074005C0139010E00E600C700A9008E0074005C0139010E00E600C700A9008E0074005C0139010E00E600C700A9008E0074005C0139010E00E600C700A9008E0074005C0139010E00E600C700A9008E0074005C0139010E00E600C700A9008E0074005C0139010E00E600C700A9008E0074005C0139010E00E600C700A9008E0074005C0139010E00E600C700A9008E0074005C0139010E00E600C700A9008E0074005C0139010E00E600C700A9008E0074005C0139010E00E600C700A9008E0074005C0139010E00E600C700A9008E0074005C0139010E00E600C700A9008E0074005C0139010E00E600C700A9008E0074005C0139010E00E600C700A9008E0074005C0139010E00E600C700A9008E0074005C03520320035203200352032003520320035203200352032003520320035203200352032003520320035203200352032003520320035203200352032003520320035203200352032003520320035203200352032003520320035203200352032003520320035203200352032003520320035203200352032003C003C003C003C003C003C003C003C003C003C003C003C003C003C003C003C003C003C003C003C003C003C003C003C003C003C003C003C003C003C00000000000000000000104000008181C0000000000000001⟩
/-- 0x8000.06 MAP_COPIES. -/
def regMapCopies : Obj :=
  ⟨0x8000, 1, 0x06, 1, .u8, .ro, false, 1, 0⟩
/-- 0x8000.07 LINK_SAVED. -/
def regLinkSaved : Obj :=
  ⟨0x8000, 1, 0x07, 1, .u8, .ro, true, 1, 0⟩
/-- 0x8000.08 LINK_SAVED_CLEAR. -/
def regLinkSavedClear : Obj :=
  ⟨0x8000, 1, 0x08, 1, .bool, .wo, false, 1, 0⟩
/-- 0x8100.01 UPDATE_STATE. -/
def regUpdateState : Obj :=
  ⟨0x8100, 1, 0x01, 1, .u8, .ro, false, 1, 0⟩
/-- 0x8100.02 STAGE_CONTROL. -/
def regStageControl : Obj :=
  ⟨0x8100, 1, 0x02, 1, .u8, .wo, false, 1, 0⟩
/-- 0x8100.03 STAGE_TARGET. -/
def regStageTarget : Obj :=
  ⟨0x8100, 1, 0x03, 1, .u8, .rw, false, 1, 0⟩
/-- 0x8100.04 STAGE_CHUNK. -/
def regStageChunk : Obj :=
  ⟨0x8100, 1, 0x04, 1, .blob, .wo, false, 1028, 0⟩
/-- 0x8100.05 FWBANK_STATE. -/
def regFwbankState : Obj :=
  ⟨0x8100, 1, 0x05, 1, .blob, .ro, true, 2, 0⟩
/-- 0x8100.06 ACTIVE_BUILD. -/
def regActiveBuild : Obj :=
  ⟨0x8100, 1, 0x06, 1, .u32, .ro, true, 4, 0⟩
/-- 0x8100.07 STAGED_BUILD. -/
def regStagedBuild : Obj :=
  ⟨0x8100, 1, 0x07, 1, .u32, .ro, true, 4, 0⟩
/-- 0x8100.08 ACTIVATE_TIME. -/
def regActivateTime : Obj :=
  ⟨0x8100, 1, 0x08, 1, .time64, .rwt, false, 8, 0⟩
/-- 0x8100.09 FIELD_INTERVAL. -/
def regFieldInterval : Obj :=
  ⟨0x8100, 1, 0x09, 1, .u32, .rwt, true, 4, 0x64⟩
/-- 0x8100.0A ACTIVATION_PROGRESS. -/
def regActivationProgress : Obj :=
  ⟨0x8100, 1, 0x0A, 1, .u32, .ro, false, 4, 0⟩
/-- 0x8100.0B SECURITY_VERSION. -/
def regSecurityVersion : Obj :=
  ⟨0x8100, 1, 0x0B, 1, .u8, .ro, true, 1, 0⟩
/-- 0x8100.0C ACTIVE_DIGEST. -/
def regActiveDigest : Obj :=
  ⟨0x8100, 1, 0x0C, 1, .blob, .ro, true, 32, 0⟩
/-- 0x8200.01 SERIAL. -/
def regSerial : Obj :=
  ⟨0x8200, 1, 0x01, 1, .u64, .ro, true, 8, 1⟩
/-- 0x8200.02 ECDSA_CERT. -/
def regEcdsaCert : Obj :=
  ⟨0x8200, 1, 0x02, 1, .blob, .ro, true, 4096, 0⟩
/-- 0x8200.03 LMS_CERT. -/
def regLmsCert : Obj :=
  ⟨0x8200, 1, 0x03, 1, .blob, .ro, true, 16384, 0⟩
/-- 0x8200.04 ATTEST_NONCE. -/
def regAttestNonce : Obj :=
  ⟨0x8200, 1, 0x04, 1, .blob, .rwt, false, 32, 0⟩
/-- 0x8200.05 ATTEST_REPORT. -/
def regAttestReport : Obj :=
  ⟨0x8200, 1, 0x05, 1, .blob, .ro, false, 2124, 0⟩
/-- 0x8200.06 LMS_LEAVES_LEFT. -/
def regLmsLeavesLeft : Obj :=
  ⟨0x8200, 1, 0x06, 1, .u32, .ro, true, 4, 0⟩
/-- 0x8200.07 ATTEST_TOKENS. -/
def regAttestTokens : Obj :=
  ⟨0x8200, 1, 0x07, 1, .u8, .ro, false, 1, 0x40⟩
/-- 0x1000.01 VENDOR. -/
def regVendor : Obj :=
  ⟨0x1000, 1, 0x01, 1, .str, .ro, true, 32, 0x7369756B6F48⟩
/-- 0x1000.02 PCI_VENDOR_ID. -/
def regPciVendorId : Obj :=
  ⟨0x1000, 1, 0x02, 1, .u16, .ro, true, 2, 0x1F3D⟩
/-- 0x1000.03 PRODUCT. -/
def regProduct : Obj :=
  ⟨0x1000, 1, 0x03, 1, .str, .ro, true, 32, 0x6C6579634F20646C61776F6C43⟩
/-- 0x1000.04 PART_NUMBER. -/
def regPartNumber : Obj :=
  ⟨0x1000, 1, 0x04, 1, .str, .ro, true, 32, 0x384C2D3432542D38322D59434F⟩
/-- 0x1000.05 IDENTITY_SERIAL. -/
def regIdentitySerial : Obj :=
  ⟨0x1000, 1, 0x05, 1, .u64, .ro, true, 8, 1⟩
/-- 0x1000.06 HW_REVISION. -/
def regHwRevision : Obj :=
  ⟨0x1000, 1, 0x06, 1, .u8, .ro, true, 1, 0x11⟩
/-- 0x1000.07 MAC_ADDRESSES. -/
def regMacAddresses : Obj :=
  ⟨0x1000, 1, 0x07, 1, .blob, .ro, true, 12, 0x10000000000000000000000⟩
/-- 0x1000.08 DICT_FORMAT. -/
def regDictFormat : Obj :=
  ⟨0x1000, 1, 0x08, 1, .u16, .ro, true, 2, 1⟩
/-- 0x1010.00 SUMMARY. -/
def regSummary : Obj :=
  ⟨0x1010, 1, 0x00, 1, .blob, .ro, false, 1856, 0⟩
/-- 0x1020.01 TX_TIMEOUT. -/
def regTxTimeout : Obj :=
  ⟨0x1020, 1, 0x01, 1, .u32, .rw, true, 4, 0x3E8⟩
/-- 0x1020.02 REQUESTS. -/
def regRequests : Obj :=
  ⟨0x1020, 1, 0x02, 1, .u64, .ro, false, 8, 0⟩
/-- 0x1020.03 REQUEST_ERRORS. -/
def regRequestErrors : Obj :=
  ⟨0x1020, 1, 0x03, 1, .u32, .ro, false, 4, 0⟩
/-- 0x1020.04 TX_EXPIRED. -/
def regTxExpired : Obj :=
  ⟨0x1020, 1, 0x04, 1, .u32, .ro, false, 4, 0⟩
/-- 0x1040.01 PCIE_LINK. -/
def regPcieLink : Obj :=
  ⟨0x1040, 1, 0x01, 1, .u16, .ro, false, 2, 0⟩
/-- 0x1040.02 PCIE_AER_ERRORS. -/
def regPcieAerErrors : Obj :=
  ⟨0x1040, 1, 0x02, 1, .u32, .ro, false, 4, 0⟩
/-- 0x1040.03 STAGE_DROPS. -/
def regStageDrops : Obj :=
  ⟨0x1040, 1, 0x03, 1, .u32, .ro, false, 4, 0⟩
/-- 0x1050+p.01 T1S_ENABLE. -/
def regT1sEnable : Obj :=
  ⟨0x1050, 2, 0x01, 1, .bool, .rw, true, 1, 1⟩
/-- 0x1050+p.02 PLCA_NODE_ID. -/
def regPlcaNodeId : Obj :=
  ⟨0x1050, 2, 0x02, 1, .u8, .rw, true, 1, 0xFF⟩
/-- 0x1050+p.03 PLCA_NODE_COUNT. -/
def regPlcaNodeCount : Obj :=
  ⟨0x1050, 2, 0x03, 1, .u8, .rw, true, 1, 8⟩
/-- 0x1050+p.04 PLCA_BURST. -/
def regPlcaBurst : Obj :=
  ⟨0x1050, 2, 0x04, 1, .u8, .rw, true, 1, 0⟩
/-- 0x1050+p.05 UDP_PORT. -/
def regUdpPort : Obj :=
  ⟨0x1050, 2, 0x05, 1, .u16, .rw, true, 2, 0xC4F4⟩
/-- 0x1050+p.06 IPV6_ADDRESS. -/
def regIpv6Address : Obj :=
  ⟨0x1050, 2, 0x06, 1, .blob, .rw, true, 16, 0⟩
/-- 0x1050+p.07 IPV6_PREFIX. -/
def regIpv6Prefix : Obj :=
  ⟨0x1050, 2, 0x07, 1, .u8, .rw, true, 1, 0x40⟩
/-- 0x1050+p.08 T1S_LINK. -/
def regT1sLink : Obj :=
  ⟨0x1050, 2, 0x08, 1, .u8, .ro, false, 1, 0⟩
/-- 0x1050+p.09 T1S_FRAMES. -/
def regT1sFrames : Obj :=
  ⟨0x1050, 2, 0x09, 1, .u64, .ro, false, 8, 0⟩
/-- 0x1050+p.0A TAG_DROPS. -/
def regTagDrops : Obj :=
  ⟨0x1050, 2, 0x0A, 1, .u32, .ro, false, 4, 0⟩
/-- 0x1060.01–.08 MGMT_KEY. -/
def regMgmtKey : Obj :=
  ⟨0x1060, 1, 0x01, 8, .blob, .wo, true, 48, 0⟩
/-- 0x1060.09 KEYS_PRESENT. -/
def regKeysPresent : Obj :=
  ⟨0x1060, 1, 0x09, 1, .u8, .ro, true, 1, 0⟩
/-- 0x1060.0A SESSION_IDLE. -/
def regSessionIdle : Obj :=
  ⟨0x1060, 1, 0x0A, 1, .u16, .rw, true, 2, 0x3C⟩
/-- 0x1060.0B SESSIONS_OPEN. -/
def regSessionsOpen : Obj :=
  ⟨0x1060, 1, 0x0B, 1, .u16, .ro, false, 2, 0⟩
/-- 0x1060.0C AUTH_FAILURES. -/
def regAuthFailures : Obj :=
  ⟨0x1060, 1, 0x0C, 1, .u32, .ro, false, 4, 0⟩
/-- 0xA000+e.01 ETH_MODE. -/
def regEthMode : Obj :=
  ⟨0xA000, 8, 0x01, 1, .u8, .rwt, true, 1, 1⟩
/-- 0xA000+e.02 ETH_STATE. -/
def regEthState : Obj :=
  ⟨0xA000, 8, 0x02, 1, .u8, .ro, false, 1, 0⟩
/-- 0xA000+e.03 ETH_MAC. -/
def regEthMac : Obj :=
  ⟨0xA000, 8, 0x03, 1, .blob, .ro, true, 6, 0⟩
/-- 0xA000+e.04 IPV4. -/
def regIpv4 : Obj :=
  ⟨0xA000, 8, 0x04, 1, .blob, .rwt, true, 8, 0⟩
/-- 0xA000+e.05 IPV4_GATEWAY. -/
def regIpv4Gateway : Obj :=
  ⟨0xA000, 8, 0x05, 1, .blob, .rwt, true, 4, 0⟩
/-- 0xA000+e.06 IPV6. -/
def regIpv6 : Obj :=
  ⟨0xA000, 8, 0x06, 1, .blob, .rwt, true, 20, 0⟩
/-- 0xA000+e.07 IPV6_GATEWAY. -/
def regIpv6Gateway : Obj :=
  ⟨0xA000, 8, 0x07, 1, .blob, .rwt, true, 16, 0⟩
/-- 0xA000+e.08 VLAN. -/
def regVlan : Obj :=
  ⟨0xA000, 8, 0x08, 1, .u16, .rwt, true, 2, 0⟩
/-- 0xA000+e.09 MTU. -/
def regMtu : Obj :=
  ⟨0xA000, 8, 0x09, 1, .u16, .rwt, true, 2, 0x5DC⟩
/-- 0xA000+e.0A FEC_CORRECTED. -/
def regFecCorrected : Obj :=
  ⟨0xA000, 8, 0x0A, 1, .u64, .ro, false, 8, 0⟩
/-- 0xA000+e.0B FEC_UNCORRECTED. -/
def regFecUncorrected : Obj :=
  ⟨0xA000, 8, 0x0B, 1, .u64, .ro, false, 8, 0⟩
/-- 0xA000+e.0C FRAMES_RX. -/
def regFramesRx : Obj :=
  ⟨0xA000, 8, 0x0C, 1, .u64, .ro, false, 8, 0⟩
/-- 0xA000+e.0D FRAMES_TX. -/
def regFramesTx : Obj :=
  ⟨0xA000, 8, 0x0D, 1, .u64, .ro, false, 8, 0⟩
/-- 0xA000+e.0E ETH_DROPS. -/
def regEthDrops : Obj :=
  ⟨0xA000, 8, 0x0E, 1, .u64, .ro, false, 8, 0⟩
/-- 0xA080.01 REQ_UDP_PORT. -/
def regReqUdpPort : Obj :=
  ⟨0xA080, 1, 0x01, 1, .u16, .rw, true, 2, 0xC4FE⟩
/-- 0xA100+s.01 ADMIT. -/
def regAdmit : Obj :=
  ⟨0xA100, 8, 0x01, 1, .blob, .rwt, false, 80, 0⟩
/-- 0xA100+s.02 SERVING_GROUP. -/
def regServingGroup : Obj :=
  ⟨0xA100, 8, 0x02, 1, .u8, .rwt, false, 1, 0⟩
/-- 0xA100+s.03 REQUESTS_ACCEPTED. -/
def regRequestsAccepted : Obj :=
  ⟨0xA100, 8, 0x03, 1, .u64, .ro, false, 8, 0⟩
/-- 0xA100+s.04 REQUESTS_REFUSED. -/
def regRequestsRefused : Obj :=
  ⟨0xA100, 8, 0x04, 1, .u32, .ro, false, 4, 0⟩
/-- 0xA100+s.05 ENTRIES_DROPPED. -/
def regEntriesDropped : Obj :=
  ⟨0xA100, 8, 0x05, 1, .u32, .ro, false, 4, 0⟩
/-- 0xA100+s.06 TOKENS_SENT. -/
def regTokensSent : Obj :=
  ⟨0xA100, 8, 0x06, 1, .u64, .ro, false, 8, 0⟩
/-- 0xA100+s.07 BINDINGS. -/
def regBindings : Obj :=
  ⟨0xA100, 8, 0x07, 1, .u16, .ro, false, 2, 0⟩
/-- 0xA200.01 STREAMS_ACTIVE. -/
def regStreamsActive : Obj :=
  ⟨0xA200, 1, 0x01, 1, .u16, .ro, false, 2, 0⟩
/-- 0xA200.02 RTCP_INTERVAL. -/
def regRtcpInterval : Obj :=
  ⟨0xA200, 1, 0x02, 1, .u16, .rw, true, 2, 5⟩
/-- 0xA200.03 STREAM_TIMEOUT. -/
def regStreamTimeout : Obj :=
  ⟨0xA200, 1, 0x03, 1, .u16, .rw, true, 2, 0x7D0⟩
/-- 0xA240+g.01 GROUP_DESC. -/
def regGroupDesc : Obj :=
  ⟨0xA240, 64, 0x01, 1, .blob, .rwt, false, 32, 0⟩
/-- 0xA240+g.02 GROUP_TICKS. -/
def regGroupTicks : Obj :=
  ⟨0xA240, 64, 0x02, 1, .u64, .ro, false, 8, 0⟩
/-- 0xA240+g.03 TX_LATE. -/
def regTxLate : Obj :=
  ⟨0xA240, 64, 0x03, 1, .u32, .ro, false, 4, 0⟩
/-- 0xA400.01 STREAM_SELECT. -/
def regStreamSelect : Obj :=
  ⟨0xA400, 1, 0x01, 1, .u16, .rw, false, 2, 0⟩
/-- 0xA400.02 STREAM_DESC. -/
def regStreamDesc : Obj :=
  ⟨0xA400, 1, 0x02, 1, .blob, .rwt, false, 64, 0⟩
/-- 0xA400.03 STREAM_RECORD. -/
def regStreamRecord : Obj :=
  ⟨0xA400, 1, 0x03, 1, .blob, .ro, false, 64, 0⟩
/-- 0x4200+p.01 SPANLINK_STATE. -/
def regSpanlinkState : Obj :=
  ⟨0x4200, 8, 0x01, 1, .u8, .ro, false, 1, 0⟩
/-- 0x4200+p.02 SPANLINK_LANES. -/
def regSpanlinkLanes : Obj :=
  ⟨0x4200, 8, 0x02, 1, .u8, .ro, false, 1, 0⟩
/-- 0x4200+p.03 LANE_GOOD. -/
def regLaneGood : Obj :=
  ⟨0x4200, 8, 0x03, 1, .u16, .ro, false, 2, 0⟩
/-- 0x4200+p.04 PEER_SERIAL. -/
def regPeerSerial : Obj :=
  ⟨0x4200, 8, 0x04, 1, .u64, .ro, false, 8, 0⟩
/-- 0x4200+p.05 PEER_PORT. -/
def regPeerPort : Obj :=
  ⟨0x4200, 8, 0x05, 1, .u8, .ro, false, 1, 0xFF⟩
/-- 0x4200+p.06 SPANLINK_REPLAYS. -/
def regSpanlinkReplays : Obj :=
  ⟨0x4200, 8, 0x06, 1, .u64, .ro, false, 8, 0⟩
/-- 0x4200+p.07 SPANLINK_FEC. -/
def regSpanlinkFec : Obj :=
  ⟨0x4200, 8, 0x07, 1, .u64, .ro, false, 8, 0⟩
/-- 0x4200+p.08 FLITS_TX. -/
def regFlitsTx : Obj :=
  ⟨0x4200, 8, 0x08, 1, .u64, .ro, false, 8, 0⟩
/-- 0x4200+p.09 FLITS_RX. -/
def regFlitsRx : Obj :=
  ⟨0x4200, 8, 0x09, 1, .u64, .ro, false, 8, 0⟩
/-- 0x4200+p.0A SPANLINK_RETRAINS. -/
def regSpanlinkRetrains : Obj :=
  ⟨0x4200, 8, 0x0A, 1, .u32, .ro, false, 4, 0⟩
/-- 0x4200+p.0B T_CROSS. -/
def regTCross : Obj :=
  ⟨0x4200, 8, 0x0B, 1, .u32, .ro, false, 4, 0⟩
/-- 0x2010.04 COOLANT_INLET. -/
def regCoolantInlet : Obj :=
  ⟨0x2010, 1, 0x04, 1, .f32, .ro, false, 4, 0⟩
/-- 0x2010.05 COOLANT_OUTLET. -/
def regCoolantOutlet : Obj :=
  ⟨0x2010, 1, 0x05, 1, .f32, .ro, false, 4, 0⟩
/-- 0x2010.06 COOLANT_FLOW. -/
def regCoolantFlow : Obj :=
  ⟨0x2010, 1, 0x06, 1, .f32, .ro, false, 4, 0⟩
/-- 0x2010.07 LEAK. -/
def regLeak : Obj :=
  ⟨0x2010, 1, 0x07, 1, .bool, .rw, true, 1, 0⟩
/-- 0x2010.08 COOLANT_CAP. -/
def regCoolantCap : Obj :=
  ⟨0x2010, 1, 0x08, 1, .bool, .rw, true, 1, 1⟩
/-- 0x2010.09 EFFECTIVE_CAP. -/
def regEffectiveCap : Obj :=
  ⟨0x2010, 1, 0x09, 1, .u32, .ro, false, 4, 0x2904⟩
/-- 0x8000.09 JTAG_DIAG. -/
def regJtagDiag : Obj :=
  ⟨0x8000, 1, 0x09, 1, .bool, .rw, true, 1, 0⟩
/-- 0x1018.00 GENERATION. -/
def regGeneration : Obj :=
  ⟨0x1018, 1, 0x00, 1, .u64, .ro, false, 8, 0⟩

/-- Part 0 of the catalogue. -/
def catalogue0 : List Obj :=
  [regVendor, regPciVendorId, regProduct, regPartNumber, regIdentitySerial,
   regHwRevision, regMacAddresses, regDictFormat, regSummary, regGeneration,
   regTxTimeout, regRequests, regRequestErrors, regTxExpired, regCapacity,
   regPcieLink, regPcieAerErrors, regStageDrops, regT1sEnable, regPlcaNodeId,
   regPlcaNodeCount, regPlcaBurst, regUdpPort, regIpv6Address, regIpv6Prefix,
   regT1sLink, regT1sFrames, regTagDrops, regMgmtKey, regKeysPresent,
   regSessionIdle, regSessionsOpen, regAuthFailures, regPowerCap, regCapGain,
   regGuardBand, regInputPower, regInputVoltage, regBubbleFraction, regCapLimit]

/-- Part 1 of the catalogue. -/
def catalogue1 : List Obj :=
  [regCapLowerings, regAlertState, regAlertCount, regAlertHold, regPhaseHold,
   regIdleOp, regEnergy, regOperatingTime, regPowerCycles, regContactThreshold,
   regZoneCurrent, regThrottleTemp, regPierOffTemp, regHeatSwap, regCoolantInlet,
   regCoolantOutlet, regCoolantFlow, regLeak, regCoolantCap, regEffectiveCap,
   regSpinEnable, regSpinThreshold, regSpinRamp, regPasses, regCheckedPasses,
   regChecksumFails, regLastFailBlocks, regGirderSpares, regSpinCycles, regDiagonalPasses,
   regPreRamps, regBankStalls, regCheckSpacingStalls, regWindowPasses, regWindowDrops,
   regSaturations, regNonfinite, regBoundedChecks, regBankPower, regBankState]

/-- Part 2 of the catalogue. -/
def catalogue2 : List Obj :=
  [regEccCorrected, regEccUncorrected, regSpareRowsUsed, regScrubPeriod, regRetainScrub,
   regAgedGrants, regNarrowWrites, regRegionTable, regRefills, regSeqState,
   regProgramBuild, regProgramDigest, regVariant, regTwinMismatches, regProgEccCorrected,
   regIssueWaits, regRunaheadReads, regRunaheadDrops, regLastFault, regPhase,
   regVecOps, regVecNonfinite, regVecSaturations, regGatherElements, regToppTruncations,
   regNotifies, regSignalDrops, regVecStalls, regMoverSpan, regMoverState,
   regMoverBytes, regMoverTransfers, regMoverErrors, regPreemptions, regLateStarts,
   regTriggerOverruns, regReadbacks, regCoreSpan, regVecCheckFails, regTurnCheckFails]

/-- Part 3 of the catalogue. -/
def catalogue3 : List Obj :=
  [regWeightDigest, regRegionDigests, regHomeDigests, regDigestPassTime, regWeightDigestFails,
   regTestLastClean, regTestRuns, regTestFails, regTestAbandoned, regLastTestFail,
   regPierStatus, regRegCellsRetired, regFieldOccurrences, regAclkFreq, regPllState,
   regDrawbridges, regStretchedPeriods, regDrawbridgeMax, regPierPower, regPierPowerRequest,
   regOpEffective, regOpLimits, regOpTable, regOpCeiling, regVmin,
   regVminClear, regRailCurrent, regFieldPower, regJunctionTemp, regContactFlags,
   regContactDeparture, regBubbleCycles, regAdmissionDeferrals, regCellCurrent, regTowerState,
   regChannelState, regErasedDie, regCorrected, regUncorrected, regEdcReplays]

/-- Part 4 of the catalogue. -/
def catalogue4 : List Obj :=
  [regRetrains, regTemperature, regRowRepairs, regTestResult, regPower,
   regScrubHours, regSetDesc, regSetState, regLostField, regMirrorHeals,
   regRouting, regMaxHops, regBarrierBound, regLostResponses, regMcastResends,
   regMcastPartials, regRouteChanges, regLinkState, regSpareWires, regReplays,
   regFlitsOut, regMaxWait, regDetourTable, regDrops, regSpanlinkState,
   regSpanlinkLanes, regLaneGood, regPeerSerial, regPeerPort, regSpanlinkReplays,
   regSpanlinkFec, regFlitsTx, regFlitsRx, regSpanlinkRetrains, regTCross,
   regActiveSupervisor, regSupervisorSwap, regTakeovers, regSpanState, regCommittedStep]

/-- Part 5 of the catalogue. -/
def catalogue5 : List Obj :=
  [regEpoch, regAnchorField, regCommitTimeout, regAbortCount, regLastAbortCause,
   regStaleDrops, regKeystoneTime, regRecordAddrA, regRecordAddrB, regWindowSteps,
   regPause, regStepVariant, regSamplerSeed, regSpecRole, regPairSpan,
   regProposalTimeout, regVariantNodes, regDraftDepths, regEndToken, regCostD0,
   regCostDl, regCostV, regTreesVerified, regTokensEmitted, regAltAccepts,
   regHoleSlots, regProposalsReplaced, regPredShape, regPredObservations, regPredReset,
   regMeshMode, regTimetableAddr, regTimetableSlips, regPlacement, regSpanCommand,
   regSpanClass, regMembers, regReqQueue, regOutQueue, regCheckProfile]

/-- Part 6 of the catalogue. -/
def catalogue6 : List Obj :=
  [regDigestSeed, regDigestFails, regDigestSkips, regTestPause, regNminus1Plans,
   regRecoveries, regPhaseOps, regGroup, regAccessEntry, regViolations,
   regLastViolation, regWeightDigestPeriod, regTestPeriod, regTestsEnable, regTestPackVersion,
   regTestPackDigest, regCoverageOverdue, regPermanentCount, regRetirementMap, regUnitSelect,
   regRetireUnit, regUnitHistory, regRefSelected, regRefStatus, regRefPreferred,
   regRefRevert, regRefSwitches, regDeviceTime, regTimebaseStatus, regMaxFieldError,
   regNoRate, regPtpEnable, regPtpPort, regPtpDomain, regPtpTransport,
   regPtpDelay, regPtpOffset, regPtpStepLimit, regPtpTransmitter, regBringupState]

/-- Part 7 of the catalogue. -/
def catalogue7 : List Obj :=
  [regStartMode, regServiceTime, regReadyTime, regFuseMap, regMapCopies,
   regLinkSaved, regLinkSavedClear, regJtagDiag, regUpdateState, regStageControl,
   regStageTarget, regStageChunk, regFwbankState, regActiveBuild, regStagedBuild,
   regActivateTime, regFieldInterval, regActivationProgress, regSecurityVersion, regActiveDigest,
   regSerial, regEcdsaCert, regLmsCert, regAttestNonce, regAttestReport,
   regLmsLeavesLeft, regAttestTokens, regCursor, regFirstSeq, regLastSeq,
   regDieFirstSeq, regLostRecords, regIrqClasses, regClear, regWindow,
   regEthMode, regEthState, regEthMac, regIpv4, regIpv4Gateway]

/-- Part 8 of the catalogue. -/
def catalogue8 : List Obj :=
  [regIpv6, regIpv6Gateway, regVlan, regMtu, regFecCorrected,
   regFecUncorrected, regFramesRx, regFramesTx, regEthDrops, regReqUdpPort,
   regAdmit, regServingGroup, regRequestsAccepted, regRequestsRefused, regEntriesDropped,
   regTokensSent, regBindings, regStreamsActive, regRtcpInterval, regStreamTimeout,
   regGroupDesc, regGroupTicks, regTxLate, regStreamSelect, regStreamDesc,
   regStreamRecord]

/-- Every object of the dictionary, by index and subindex. -/
def catalogue : List Obj :=
  catalogue0 ++ catalogue1 ++ catalogue2 ++ catalogue3 ++ catalogue4 ++ catalogue5 ++ catalogue6 ++ catalogue7 ++ catalogue8

end Sys2Proof.Machine
end

