-- ==== Sys2Proof/Machine/State.lean ====
section
/-! DEFINITION. The state of the Ocyel as plain data, and the machine right after reset (input power off). -/

namespace Sys2Proof.Machine

/-- No unit of this block stops the machine with a fault: the spec answers a bad access with a NACK, a status or an event. -/
inductive Fault where
deriving DecidableEq, Repr

/-- Why a command has no meaning. -/
inductive Refusal where
  /-- Raised by an arm of `exec` whose command has no meaning yet; safe. -/
  | notModelled (mnemonic : String)
deriving DecidableEq, Repr

/-- Dictionary values that differ from their defaults: (index × 256 + subindex, value read little-endian), keys rising. -/
abbrev RegFile := List (Nat × Nat)

/-- The bytes of scratchpads, towers, mailboxes and staging banks that differ from 0, keys rising. A tower byte stands at
channel × 2^34 + channel-local address, a scratchpad or control-window byte at its device address of R15. -/
abbrev Memory := List Host.Cell

/-! ### State codes -/

/-- Field states (R14), in the code order of R520. -/
inductive FieldState where
  | dark | waking | ready | serving | testing | drawbridge | retired
deriving DecidableEq, Repr

/-- Pier power states (R474). -/
inductive PierPower where
  | off | deferred | staging | on | heatOff | retired | fused
deriving DecidableEq, Repr

/-- Sequencer states (R198). -/
inductive SeqState where
  | empty | loaded | prologue | waiting | running | committing | aborting
deriving DecidableEq, Repr

/-- Bank power states (R156). -/
inductive BankState where
  | active | retain | off | waking | draining
deriving DecidableEq, Repr

/-- Mover channel states (R342). -/
inductive MoverState where
  | idle | armed | running | preempted | completing | error | stopping
deriving DecidableEq, Repr

/-- Span states (R53). -/
inductive SpanState where
  | unused | loading | ready | running | paused | resetting | stopped
deriving DecidableEq, Repr

/-- States of an open step (R56). -/
inductive StepState where
  | opened | closing | decided | aborting
deriving DecidableEq, Repr

/-- Tower channel states (R270). -/
inductive ChannelState where
  | off | training | testing | online | retraining | retired | fused
deriving DecidableEq, Repr

/-- Interleave set states (R260). -/
inductive SetState where
  | unused | online | untested | degraded | failed
deriving DecidableEq, Repr

/-- Mesh link states (R301). -/
inductive LinkState where
  | online | repairing | retired | absent
deriving DecidableEq, Repr

/-- Spanlink port states (R559). -/
inductive PortState where
  | off | training | up | retraining | retired | fused
deriving DecidableEq, Repr

/-- Ethernet port states (R541). -/
inductive EthState where
  | down | training | up | fault
deriving DecidableEq, Repr

/-- Reference selection (R436). -/
inductive RefState where
  | locked (refB : Bool)
  | holdover
deriving DecidableEq, Repr

/-- Update states (R501). -/
inductive UpdateState where
  | idle | staging | staged | scheduled | activating | swapping | rollingBack
deriving DecidableEq, Repr

/-- Firmware bank states (R507). -/
inductive FwBank where
  | empty | staging | staged | active | retained | failed
deriving DecidableEq, Repr

/-- What the array does between real passes (R103 to R105): at rest, spin passes at the running level, the ramp-down, or the
pre-ramp of a waiting pass. -/
inductive SpinState where
  | rest | spinning | ramping | preRamp
deriving DecidableEq, Repr

/-- Slot states (R522). -/
inductive SlotState where
  | idle | busy | done | malformed
deriving DecidableEq, Repr

/-- The output pins of R572. -/
inductive Pin where
  | modReadyN | modFaultN
deriving DecidableEq, Repr

/-! ### What the block sends (the model's own record, newest first) -/

/-- A unit on the mesh: its DST_UNIT code and the router at which it is reached (R276, R282). -/
structure Endpoint where
  unit   : Nat
  router : Nat
deriving DecidableEq, Repr

/-- The fields of a packet header that the sender's interface and injection stage choose (R280, R282, R286, R304, R352): MASTER, virtual
channel, PRIO, TT, RETX, ROUTE_GEN, source, destination (none where a group or no port is addressed), and the spanlink port and channel of the
viaduct that it takes. -/
structure Head where
  master     : Nat
  vc         : Nat
  latency    : Bool
  timetabled : Bool
  resent     : Bool
  gen        : Bool
  src        : Endpoint
  dst        : Option Endpoint
  viaduct    : Option (Nat × Nat)
deriving DecidableEq, Repr

/-- What a packet is for: a pier, a pier of another device of the span, the supervisor of another device, a multicast group, a device
address, or the master that it answers. -/
inductive Dest where
  | pier (field : Nat)
  | away (device field : Nat)
  | device (device : Nat)
  | group (g : Nat)
  | addr (a : Nat)
  | master (m : Nat)
deriving DecidableEq, Repr

/-- One thing that the block sends to a unit or to the outside. -/
inductive Emission where
  /-- A mesh packet of R283: header, type, span, epoch, step, attempt, what it is for, status, data. -/
  | packet (h : Head) (type span epoch step attempt : Nat) (dst : Dest) (status : Nat) (data : List Nat)
  /-- An interrupt to a field's processor cluster: field, cause, arguments (R216, R338, R347, R358). -/
  | interrupt (field cause : Nat) (args : List Nat)
  /-- A load or store access fault of a core or the supervisor (R145): its master ID, and the device address. -/
  | accessFault (master addr : Nat)
  /-- A dictionary response (R512): master, REQ_ID, status, OBJ_GEN, payload. -/
  | response (master reqId status gen : Nat) (payload : List Byte)
  /-- A field-network handshake answer (R534): port, session, status, payload. -/
  | handshake (port session status : Nat) (payload : List Byte)
  /-- A UDP datagram: Ethernet port, address, UDP port, payload (R550, R551, R557). -/
  | datagram (port addr udp : Nat) (payload : List Byte)
  /-- An answer of R540 to ARP, Neighbor Discovery or echo: port. -/
  | answer (port : Nat)
  /-- An MSI-X message (R528). -/
  | msix (vector : Nat)
  /-- A level of an output pin (R572). -/
  | pin (p : Pin) (level : Bool)
  /-- Bits shifted out of TDO (R574). -/
  | jtag (bits value : Nat)
  /-- A notice to a spanlink peer (R411, R559): port, code. -/
  | peer (port code : Nat)
  /-- A heartbeat with its journal (R350). -/
  | heartbeat
deriving DecidableEq, Repr

/-! ### The pier -/

/-- One entry of the accumulation buffer (R120, R124): the integer i, the anchor less 64, and the flags. -/
structure AccEntry where
  value  : Int
  lsbExp : Int
  zero   : Bool
  lossy  : Bool
  nonfin : Bool
deriving DecidableEq, Repr

/-- An exact number m × 2^e, as the wide cells of the checksum rows and columns hold them (R93). -/
structure Wide where
  m : Int
  e : Int
deriving DecidableEq, Repr

/-- A comparison of the checker in a 64 × 64 block (R90 to R92): that of the checksum column in a beat, that of the checksum row in a column,
or that of the two products of an element in DIAGONAL mode (its beat, and its cell in the block). -/
inductive CheckAt where
  | column (beat : Nat)
  | row (col : Nat)
  | product (beat col : Nat)
deriving DecidableEq, Repr

/-- The two sides of a comparison: what the checksum row, the checksum column or the offset diagonal holds, and what it must equal. -/
structure Compare where
  place : CheckAt
  held  : Wide
  due   : Wide
deriving DecidableEq, Repr

/-- What the checker compares in one block (R91, R92, R130, R131): the comparisons, the places (beat, column) whose entries are
non-finite, the block's share of the WINDOW count, and its largest anchor. -/
structure BlockCheck where
  block    : Nat
  compares : List Compare
  nonfin   : List (Nat × Nat)
  drops    : Nat
  anchor   : Int
deriving DecidableEq, Repr

/-- The checksum rows and columns of a checked pass whose verdict is due: its index and blocks. -/
structure PassCheck where
  pass   : Nat
  blocks : List BlockCheck
deriving DecidableEq, Repr

/-- A program image loaded in both twins (R164 to R166): the facts of its header, its region and descriptor tables, and its code as
words of 128 bits. -/
structure Image where
  addr      : Nat
  build     : Nat
  digest    : List Byte
  codeFirst : Nat
  codeCount : Nat
  prologue  : Nat
  body      : List Nat
  regions   : List Byte
  descs     : List (List Byte)
  code      : List Nat
deriving DecidableEq, Repr

/-- The values of the last STEP.BASE of an index register (R174). -/
structure BaseRec where
  base    : Nat
  modulus : Nat
  stride  : Int
deriving DecidableEq, Repr

/-- An issued instruction that has not completed (R171, R173): its unit, class code, the token it holds, its number among those issued,
the responses it still waits for, and the operands that its completion needs. -/
structure InFlight where
  unit   : PierUnit
  cls    : Nat
  token  : Option Nat
  serial : Nat
  left   : Nat
  args   : List Nat
deriving DecidableEq, Repr

/-- A RECV, SYNC, CHECK.WAIT or NEXT that waits for its event (a NEXT before the COMMIT of its body waits for ever, R189, R190). -/
inductive Waiting where
  | recv (signals : Bool) (chan count : Nat) (token : Option Nat)
  | sync (group seq : Nat) (token : Option Nat)
  | localSync (token : Option Nat)
  | verdicts (before : Nat) (token : Option Nat)
  | next (token : Option Nat)
deriving DecidableEq, Repr

/-- Rows of a collective that have arrived (R378): group, COLL_SEQ, the sender's field and rank, first row, whether they are words, the
marks LOSSY and NONFINITE, and the rows. -/
structure CollRec where
  group  : Nat
  seq    : Nat
  sender : Nat
  rank   : Nat
  row    : Nat
  words  : Bool
  marked : Bool
  bytes  : List Byte
deriving DecidableEq, Repr

/-- A FETCH whose reads the run-ahead cursor has issued: its step, its place among the eligible FETCHes of that step, the TAGs of
its reads, and the list row it read if it is a LIST. -/
structure AheadFetch where
  step : Nat
  nth  : Nat
  tags : List Nat
  row  : Option Nat
deriving DecidableEq, Repr

/-- Why the run-ahead cursor stands (R192). -/
inductive AheadStop where
  | going | atNext | atLdx | slots
deriving DecidableEq, Repr

/-- The run-ahead cursor (R192, R193): the variant it assumes, the step it is in, its instruction index, registers and loop
counters, the eligible FETCHes it has passed in this step, why it stands, and the reads of the FETCH in hand that have found no slot
yet (R182): tower address, rows and destination. -/
structure RunAhead where
  variant : Nat
  step    : Nat
  pc      : Nat
  idx     : List Nat
  loops   : List Nat
  nth     : Nat
  stop    : AheadStop
  rest    : List (Nat × Nat × Nat)
deriving DecidableEq, Repr

/-- The input of a vector operation: its bytes, does each vector start on a row boundary (R203; results that the array delivers follow one
another), and the per-tensor scales of the PARTIAL entries in each 512 bytes (R125). -/
structure VecSource where
  bytes    : List Byte
  fromRows : Bool
  scales   : List (List Nat)
deriving DecidableEq, Repr

/-- A SOFTMAX that takes PREFIX from a register when it starts (R209), while earlier operations hold the vector unit: its number among the
issued instructions, its descriptor, its input, the row of mask words, and the address of its results. -/
structure SoftHeld where
  serial : Nat
  desc   : List Byte
  source : VecSource
  mask   : List Byte
  dst    : Nat
deriving DecidableEq, Repr

/-- The sequencer, its registers and what the attempt has counted so far: verdicts still due (of the vector unit or of a pass, and its
index), is abort-done due (R40), and the results of passes that go to the vector unit, each with its pass's token and the per-tensor
scales of its entries, oldest first, and the SOFTMAX operations that have not started. -/
structure Sequencer where
  state       : SeqState
  image       : Option Image
  pc          : Nat
  idx         : List Nat
  bases       : List (Option BaseRec)
  loops       : List Nat
  tokens      : List Bool
  inFlight    : List InFlight
  waiting     : List Waiting
  rowCount    : List Nat
  sigCount    : List Nat
  forceCheck  : Bool
  passIndex   : Nat
  vecIndex    : Nat
  syncSeq     : List Nat
  collSeq     : List Nat
  window      : Nat
  verdicts    : List (Bool × Nat)
  wholeChecks : List Nat
  writesOpen  : Nat
  nonfinSeen  : Bool
  vecNonfin   : Bool
  reported    : Bool
  failedBits  : Nat
  issuedCommit : Bool
  provOutTail : Nat
  provReqHead : Nat
  prologueFailed : Bool
  damagedWord : Bool
  abortDue    : Bool
  runAhead    : Option RunAhead
  ahead       : List AheadFetch
  fetchNth    : Nat
  readQueue   : List (Nat × Nat × Nat × Nat)
  forward     : List (Nat × List Byte × List Nat)
  held        : List SoftHeld
  serial      : Nat
  colls       : List CollRec
deriving DecidableEq, Repr

/-- The array between instructions (R70 to R72, R77, R78, R91, R92, R102 to R105): the entries of the accumulation buffer that hold results,
the weight tiles in the first and second registers of its cells, the mode and dataflow of the last pass, the checksum rows and columns of
passes whose verdicts are due, the running level A in parts per thousand, and the device time since which the spin state stands. -/
structure ArrayS where
  accum      : List (Nat × AccEntry)
  first      : Option (List Byte)
  second     : Option (List Byte)
  lastMode   : Option (Nat × Nat)
  checks     : List PassCheck
  spin       : SpinState
  level      : Nat
  since      : Nat
deriving DecidableEq, Repr

/-- An access that waits at a bank (R141, R142): master, operation, row, what its check bits will show, and is it aged? -/
structure BankWait where
  master : BankMaster
  op     : BankOp
  row    : Nat
  ecc    : EccResult
  aged   : Bool
deriving DecidableEq, Repr

/-- One bank (R145, R147, R148, R156): its state, the state requested, the state it drains to, the queue of waiting accesses, whether heat
forced it into RETAIN, locked rows, the scrub position, a retain scrub in progress, the device time of its last clean digest, and the
rewrite of R385 in progress. -/
structure Bank where
  state     : BankState
  requested : BankState
  target    : BankState
  queue     : List BankWait
  heat      : Bool
  locked    : List Nat
  scrubRow  : Nat
  scrubbing : Bool
  cleanTime : Nat
  rewriting : Nat
deriving DecidableEq, Repr

/-- One register set of a mover channel (R323). -/
structure MoverSet where
  src      : Nat
  dst      : Nat
  length   : Nat
  op       : Nat
  trigger  : Nat
  prio     : Nat
  flags    : Nat
  trigArg  : Nat
  countA   : Nat
  esize    : Nat
  countB   : Nat
  srcPitch : Nat
  dstPitch : Nat
  pattern  : Nat
  user     : Nat
deriving DecidableEq, Repr

/-- One mover channel (R324, R337, R342, R343). -/
structure Mover where
  state       : MoverState
  active      : MoverSet
  shadow      : MoverSet
  shadowValid : Bool
  pending     : Nat
  errCode     : Nat
  errAddr     : Nat
  late        : Bool
  overrun     : Bool
  bytesDone   : Nat
  doneCount   : Nat
  lastUser    : Nat
  epoch       : Nat
  endpoints   : List (Nat × Nat)
  stopFault   : Bool
  attempt     : Option (Nat × Nat)
deriving DecidableEq, Repr

/-- A pier's power (R467 to R476): turn-on stage, limits on its operating point, the point in force, its set-point and what
waits for a voltage slew or a drawbridge; the causes of bubbles of its own (bit 0 R462, bit 1 R477, bit 2 R473); the ceiling of the ageing
monitors; the last junction reading in m°C, when the thermal limit was last lowered, and since when the pier is ON. -/
structure PowerS where
  state      : PierPower
  stage      : Nat
  phasePoint : Nat
  cellLimit  : Nat
  thermalLimit : Nat
  admissionLimit : Nat
  point      : Nat
  millivolts : Nat
  slewTo     : Option Nat
  drawTo     : Option Nat
  phaseHeld  : Bool
  ownBubble  : Nat
  reserved   : Nat
  heatPending : Bool
  ageCeiling : Nat
  junction   : Int
  throttled  : Option Nat
  onSince    : Nat
deriving DecidableEq, Repr

/-- A field's clocks and timebase (R437 to R450): DA, VCO in kHz, the field's time less the master's in ns, the time at which the field
holds, the errors at the last 16 beacons (newest first), the apparent delays of the last 16 beacons of a holdover, the rate correction, the
last full beacon value, adaptive stretch, and the drawbridge in progress: does
the VCO move, is it forced by ALERT, the point it goes to; and when the last one ended. -/
structure FieldClock where
  da         : Nat
  vco        : Nat
  offset     : Int
  heldAt     : Nat
  errors     : List Int
  delays     : List Int
  rate       : Int
  beaconAt   : Nat
  stretching : Bool
  relocking  : Bool
  forced     : Bool
  toPoint    : Option Nat
  lastEnd    : Option Nat
deriving DecidableEq, Repr

/-- A field: its state and the state it returns to, logical pier number, pier, banks, movers, regulator cells, clock; failed wake-ups, is
it DARK for heat, is it on the build of the other bank, is it being restarted; the cores held in reset; the digest engines' tables of R383 and R384: region and bank, with the digest at landing and that of the last pass; and
the per-tensor scales of the passes that produced the PARTIAL rows of the scratchpad (R125). -/
structure Field where
  state    : FieldState
  saved    : FieldState
  logical  : Nat
  seq      : Sequencer
  array    : ArrayS
  banks    : List Bank
  movers   : List Mover
  power    : PowerS
  cellsOut : Nat
  clock    : FieldClock
  wakeTries : Nat
  hot      : Bool
  newBuild : Bool
  restarting : Bool
  coresReset : Nat
  homeDigests : List ((Nat × Nat) × List Byte)
  lastDigests : List ((Nat × Nat) × List Byte)
  rowScales : List (Nat × List Nat)
deriving DecidableEq, Repr

/-! ### Spans -/

/-- A sequence of a span: the four U32 of its length-table entry (R232), its slot table (R233) and its sampler state, committed or working
(R226 to R237). -/
structure SeqEntry where
  seq      : Nat
  length   : Word32
  frontier : Word32
  capacity : Word32
  flags    : Word32
  slots    : List (Nat × Nat)
  pendingToken : Nat
  tag      : Nat
deriving DecidableEq, Repr

/-- The tree that a verify step processes for one sequence (R223 to R227, R235). -/
structure Tree where
  seq      : Nat
  parents  : List Nat
  tokens   : List Nat
  depth    : Nat
  width    : Nat
  replaced : Bool
  trimmed  : Bool
deriving DecidableEq, Repr

/-- The depth predictor (R239): N and A of levels 1 to 15, NA, AA, OBS. -/
structure Predictor where
  n   : List Nat
  a   : List Nat
  na  : Nat
  aa  : Nat
  obs : Nat
deriving DecidableEq, Repr

/-- A multicast in progress at its root (R305 to R310): group, pier, channel, rows, windows in all, next window, and for each target its field,
credits, windows acknowledged and re-sends. -/
structure Mcast where
  group   : Nat
  root    : Nat
  chan    : Nat
  rows    : Nat
  windows : Nat
  sent    : Nat
  src     : Nat
  rdst    : Nat
  targets : List (Nat × Nat × Nat × Nat)
deriving DecidableEq, Repr

/-- A binding of a sequence (R549). -/
structure Binding where
  seq  : Nat
  port : Nat
  addr : Nat
  udp  : Nat
deriving DecidableEq, Repr

/-- Why the supervisor pauses a span at its next keystone. -/
inductive PauseReason where
  | retire | test | restart (f : Nat) | heat (f : Nat) | epoch | link (p : Nat) | now
deriving DecidableEq, Repr

/-- How a paused span is being recovered (R408 to R413). -/
inductive Recovery where
  | spare (lost : Nat)
  | plan (lost : Nat) (k : Nat)
  | test
  | field (f : Nat)
deriving DecidableEq, Repr

/-- A timetable image in force and its window (R311 to R315). -/
structure Timetable where
  period  : Nat
  loaded  : Bool
  window  : Option Nat
  opened  : Bool
  slot    : Nat
  slipped : Bool
deriving DecidableEq, Repr

/-- A span (R20 to R57, R219 to R242, R353 to R361). -/
structure Span where
  state      : SpanState
  committed  : Nat
  step       : Option StepState
  attempt    : Nat
  epoch      : Nat
  anchor     : Nat
  members    : List (Nat × Nat)
  spare      : Option Nat
  devices    : Nat
  device     : Nat
  addrA      : Nat
  addrB      : Nat
  reqQueue   : Nat
  outQueue   : Nat
  outTail    : Nat
  reqHead    : Nat
  select     : Bool
  keyTime    : Nat
  writeTime  : Nat
  provOutTail : Nat
  provReqHead : Nat
  clean      : Nat
  doneCount  : Nat
  status     : Nat
  windowSum  : Nat
  arrival    : Nat
  arrivalAtOpen : Nat
  headTaken  : Option Nat
  unarrived  : List Nat
  sent       : Nat
  bindings   : List Binding
  latched    : RegFile
  pauses     : List PauseReason
  recovery   : List Recovery
  failPauses : Nat
  charged    : List Nat
  lost       : List Nat
  barriers   : List (Nat × Nat × Nat)
  mcasts     : List Mcast
  timetable  : Timetable
  seqs       : List SeqEntry
  working    : List SeqEntry
  trees      : List Tree
  pred       : Predictor
  predWork   : Predictor
  shape      : Nat × Nat
  shapeWork  : Nat × Nat
  verified   : List Nat
  noticeStep : Nat
  proposalLate : Bool
  lateSeen   : Bool
  draftGone  : Bool
  shapeSeen  : Bool
  predClear  : Bool
  moreChunks : Bool
  peersLoaded : Nat
  epochDue   : Nat
  weightsLoaded : Bool
  prepared   : Bool
  lastRefuse : List (Nat × Nat)
  lastFull   : Option Nat
  draftActed : Nat
  noticeOpen : Nat
  verifyAt   : Nat
  variantFor : Nat
  kvLost     : List Nat
  suspects   : List Nat
  testing    : List Nat
  testHit    : Bool
deriving DecidableEq, Repr

/-! ### Towers and mesh -/

/-- A tower channel (R251, R264, R270). -/
structure Channel where
  state    : ChannelState
  tries    : Nat
  replays  : Nat
  aged     : Bool
  scrubAt  : Nat
  bad      : List Nat
deriving DecidableEq, Repr

/-- An interleave set (R260, R261): its state, and the lost channels whose remapped units have been filled; its descriptor and counters are
dictionary values. -/
structure ISet where
  state   : SetState
  filled  : List Nat
deriving DecidableEq, Repr

/-- A tower: the granules that step 2 of R247 has decoded (die and granule, operating time), corrections by die row (die, channel, row, with
their operating time; R249), the repaired rows that module flash holds, heat actions of R477, test round state (R272). -/
structure Tower where
  dieLog   : List (Nat × Nat)
  rowLog   : List ((Nat × Nat × Nat) × Nat)
  repaired : List (Nat × Nat × Nat)
  refresh2 : Bool
  half     : Bool
  result   : Nat
deriving DecidableEq, Repr

/-- A router: link states, replays of the flit in hand, wire faults (wire, operating time), spare groups used, and its detour table
of each generation (empty while dimension-ordered). -/
structure Router where
  links   : List LinkState
  replays : List Nat
  wires   : List (Nat × Nat × Nat)
  spares  : List (Nat × Nat)
  table   : List Nat
  next    : List Nat
deriving DecidableEq, Repr

/-- A request without a response yet (R295): tag, master, span, the requester's field and mover channel if any, where read data
land, the bytes still due, the run-ahead step it was read for, and the number of the instruction it belongs to (0 for none). -/
structure Outstanding where
  tag    : Nat
  master : Nat
  span   : Nat
  field  : Nat
  mover  : Option Nat
  dest   : Option Nat
  bytes  : Nat
  ahead  : Option Nat
  write  : Bool
  serial : Nat
deriving DecidableEq, Repr

/-- The mesh (R303, R304, R317). -/
structure Mesh where
  routers  : List Router
  routeGen : Bool
  holding  : Bool
  requests : List Outstanding
  nextTag  : Nat
deriving DecidableEq, Repr

/-! ### Recorder, faults, tests -/

/-- A record of the event recorder (R419); the CRC is computed when it is read. -/
structure EventRec where
  seq    : Nat
  opTime : Nat
  cycles : Nat
  source : Nat
  code   : Nat
  data   : List Byte
deriving DecidableEq, Repr

/-- A notice that the supervisor has not acknowledged (R424): the unit that holds it, and the record's SOURCE, CODE and DATA. -/
structure Notice where
  unit   : Nat
  source : Nat
  code   : Nat
  data   : List Byte
deriving DecidableEq, Repr

/-- The recorder (R422 to R431): the next SEQ, the ceiling, the on-die ring and the pages of the flash ring (oldest first), the newest
records that no page holds yet, the page bucket, records lost to flash since the last report, notices, and those units could not hold. -/
structure Recorder where
  nextSeq   : Nat
  ceiling   : Option Nat
  die       : List EventRec
  flash     : List (List EventRec)
  pendingN  : Nat
  bucket    : Nat
  lostSince : Nat
  notices   : List Notice
  unitLost  : List (Nat × Nat)
deriving DecidableEq, Repr

/-- One occurrence of a unit's history (R400). -/
structure Occurrence where
  opTime : Nat
  span   : Nat
  step   : Nat
deriving DecidableEq, Repr

/-- Unit histories, second counts of blocks, the retirement map's entries (unit, spare used) and the probes outstanding. -/
structure Faults where
  history  : List (Nat × List Occurrence)
  blocks   : List (Nat × Nat)
  retired  : List (Nat × Nat)
  probes   : List Nat
  pausedOn : List Nat
  located  : List Nat
  mapGen   : Nat
deriving DecidableEq, Repr

/-- The idle-slot test engine (R388 to R392): the segment running (field, UNIT, pattern), the confirmation in progress (field,
runs made, failures), when the tests last paused each span, and the coverage in progress of each field: patterns run, and did all
pass? -/
structure TestEngine where
  segment : Option (Nat × Nat × Nat)
  confirm : Option (Nat × Nat × Nat)
  lastPause : List (Nat × Nat)
  covered : List (Nat × List Nat × Bool)
deriving DecidableEq, Repr

/-! ### Control ports -/

/-- An open transaction (R516): staged writes (key, length, value), newest last. -/
structure Transaction where
  master : Nat
  staged : List (Nat × List Byte)
deriving DecidableEq, Repr

/-- A frozen copy of a value (R511). -/
structure Frozen where
  master : Nat
  key    : Nat
  gen    : Nat
  value  : List Byte
deriving DecidableEq, Repr

/-- A handshake or session of the field network (R534 to R536): the port that its HELLO came through, the nonces of the handshake, the session
key, and the responses kept by REQ_ID (status, OBJ_GEN, payload), newest first. -/
structure Session where
  opened : Bool
  port   : Nat
  hello  : Option (List Byte × List Byte)
  key    : List Byte
  replies : List (Nat × Nat × Nat × List Byte)
deriving DecidableEq, Repr

/-- A dictionary slot (R522). -/
structure SlotS where
  state    : SlotState
  request  : List Byte
  response : List Byte
deriving DecidableEq, Repr

/-- The dictionary server, PCIe and the field network (R508 to R538). -/
structure Control where
  txs      : List Transaction
  expired  : List Nat
  frozen   : List Frozen
  perMaster : List ((Nat × Nat) × Nat)
  nvWrites : List (Nat × Nat)
  pcie     : List SlotS
  cores    : List (Nat × SlotS)
  summaryStatus : Nat
  summaryBuf : List Byte
  irqStatus : Nat
  vectors  : List (Nat × Nat)
  sessions : List Session
  keys     : List (List Byte)
  keyFails : List (List Nat)
  keyLocked : List Bool
  violations : List ((Nat × Nat) × Nat)
  activeB  : Bool
  standby  : Bool
deriving DecidableEq, Repr

/-! ### Bring-up, update, identity -/

/-- A firmware bank (R494, R497); its bytes stand in memory. -/
structure BankImg where
  state    : FwBank
  build    : Nat
  compat   : Nat
  security : Nat
  revoke   : Nat
  digest   : List Byte
  length   : Nat
deriving DecidableEq, Repr

/-- One copy of the retirement map in module flash (R490): its GENERATION and its entries (unit, spare used). -/
structure MapCopy where
  gen   : Nat
  units : List (Nat × Nat)
deriving DecidableEq, Repr

/-- Bring-up, activation and attestation (R482 to R505): the step that runs (0 without power, 10 after the last), FUSE_FAULT, RECOVERY,
the START_MODE read, FAST service, full readiness; the firmware banks and the boot-bank pointer; the staging target, the length of a pack
upload, the update state, the field an activation has reached, fields and supervisors still to roll back, supervisors A and B on the new
build; the valid copies of the retirement map, and whether this bring-up found none, the installed test pack, LMS leaves, the saved spanlink records (port, serial), the field whose restart is under way, and when event 0x0707
was last recorded. -/
structure Boot where
  powered   : Bool
  step      : Nat
  fuseFault : Bool
  recovery  : Bool
  fastMode  : Bool
  fast      : Bool
  full      : Bool
  bankA     : BankImg
  bankB     : BankImg
  bootB     : Bool
  target    : Nat
  packLen   : Nat
  update    : UpdateState
  cursor    : Nat
  rollback  : List Nat
  supNew    : Bool × Bool
  mapA      : Option MapCopy
  mapB      : Option MapCopy
  mapLost   : Bool
  pack      : List Byte
  leafNext  : Nat
  leafEnd   : Nat
  saved     : List (Nat × Nat)
  inHand    : Option Nat
  dropNoted : Option Nat
deriving DecidableEq, Repr

/-! ### Data ports -/

/-- One frame of a jitter buffer: the tick it plays at and its samples (R553). -/
structure Frame where
  tick    : Nat
  samples : List Word16
deriving DecidableEq, Repr

/-- A media stream (R552 to R554, R557): its record, SSRC, highest sequence number extended and those seen, the mapping of an RTP time to a
tick, the frames of its jitter buffer, the last frame played, missing frames in a row, the received frames of the last second with
their voice marks and the sent ones (empty for a tick without a frame), is it silent, the ticks that audio entries have released, the next
sequence number sent, the detector's noise floor and the frames of hangover left, and the record as the last tick showed it. -/
structure Stream where
  id       : Nat
  desc     : List Byte
  received : Nat
  sentN    : Nat
  lost     : Nat
  late     : Nat
  concealed : Nat
  jitter   : Nat
  depth    : Nat
  voice    : Bool
  event    : Nat
  roundTrip : Nat
  lastTime : Nat
  ssrc     : Nat
  dups     : Nat
  highSeq  : Option Nat
  seen     : List Nat
  map      : Option (Nat × Nat)
  frames   : List Frame
  last     : List Word16
  misses   : Nat
  rxHist   : List (List Word16 × Bool)
  txHist   : List (List Word16)
  silent   : Bool
  released : List Nat
  txSeq    : Nat
  floor    : Int
  hang     : Nat
  shown    : List Byte
deriving DecidableEq, Repr

/-- An Ethernet port (R541). -/
structure EthPort where
  state    : EthState
  badLanes : List Nat
deriving DecidableEq, Repr

/-- A spanlink port (R558 to R563); the original TAGs it keeps, each with its own TAG and whether R283 answers the packet; and the packets
that wait there for a free TAG: type, packet, ADDRESS. -/
structure Spanlink where
  state    : PortState
  lanes    : Nat
  replays  : Nat
  badLanes : List Nat
  tags     : List (Nat × Nat × Bool)
  waiting  : List (Nat × Pkt × Nat)
deriving DecidableEq, Repr

/-- The data ports (R539 to R564): the next tick of each media group, and when event 0x0620 was last recorded. -/
structure Ports where
  eth      : List EthPort
  links    : List Spanlink
  streams  : List Stream
  ticks    : List Nat
  silentTime : Option Nat
deriving DecidableEq, Repr

/-! ### Device-wide state -/

/-- References, timebase and PTP (R433 to R455): the selection, the good copies (REFA, REFB at field 0, then at field 29), the references
that the selector takes from field 29, device time with its picoseconds, and the time that the servo still slews away, in ps. -/
structure Clocks where
  refState : RefState
  good     : List Bool
  strips   : Bool × Bool
  time     : Nat
  frac     : Nat
  slew     : Int
  running  : Bool
  timetableNoted : Bool
  ptpLocked : Bool
  ptpOnce  : Bool
  ptpGood  : Nat
  ptpDelay : Nat
  ptpLost  : Bool
deriving DecidableEq, Repr

/-- The input, the cap controller and the coolant (R458, R459, R471, R473, R476, R479, R576): the bubble fraction b as numerator and
denominator, the controller's counts, the cap in force in W; ALERT, its hold, undervoltage; operating time in ns, energy taken in nJ, the
counts last written to flash (operating seconds, power cycles, page bucket); the contact models; the last ten flow readings, the coolant
limits reported (inlet, flow), a cap below 6.0 kW, when a change of the cap was last counted; minima reported, and zone currents in mA. -/
structure Supply where
  bubble    : Nat × Nat
  above     : Nat
  zero      : Nat
  capInForce : Nat
  alert     : Bool
  holding   : Bool
  undervolt : Bool
  opNanos   : Nat
  energy    : Nat
  saved     : Nat × Nat × Nat
  calibrated : Bool
  models    : List Nat
  flows     : List (Option Nat)
  limitedBy : Bool × Bool
  starved   : Bool
  genTime   : Option Nat
  vminNoted : List (Nat × Nat)
  zones     : List Nat
deriving DecidableEq, Repr

/-- The JTAG port (R574): the instruction in force, the boundary cells and whether they drive. -/
structure Jtag where
  instr  : Nat
  cells  : Nat
  drives : Bool
deriving DecidableEq, Repr

/-- The Ocyel. -/
structure State where
  pending  : List Instr
  outbox   : List Emission
  freeCount : Nat
  lateReads : List Nat
  regs     : RegFile
  mem      : Memory
  fields   : List Field
  spans    : List Span
  towers   : List Tower
  channels : List Channel
  sets     : List ISet
  mesh     : Mesh
  recorder : Recorder
  faults   : Faults
  tests    : TestEngine
  control  : Control
  boot     : Boot
  ports    : Ports
  clocks   : Clocks
  supply   : Supply
  jtag     : Jtag
  sleepers : List Instr
deriving DecidableEq, Repr

/-! ### Reset -/

/-- An accumulation entry at exact zero (R120). -/
def AccEntry.empty : AccEntry := ⟨0, 0, true, false, false⟩

/-- A sequencer with no image (R198) at the start of an attempt (R171, R174, R184). -/
def Sequencer.reset : Sequencer :=
  { state := .empty, image := none, pc := 0, idx := List.replicate 16 0, bases := List.replicate 16 none,
    loops := List.replicate 4 0, tokens := List.replicate 16 false, inFlight := [], waiting := [],
    rowCount := List.replicate 16 0, sigCount := List.replicate 16 0, forceCheck := false, passIndex := 0, vecIndex := 0,
    syncSeq := List.replicate 17 0, collSeq := List.replicate 16 0, window := 0, verdicts := [], wholeChecks := [], writesOpen := 0, nonfinSeen := false,
    vecNonfin := false, reported := false, failedBits := 0, issuedCommit := false, provOutTail := 0, provReqHead := 0,
    prologueFailed := false, damagedWord := false, abortDue := false, runAhead := none, ahead := [], fetchNth := 0, readQueue := [], forward := [], held := [], serial := 1,
    colls := [] }

/-- The array at rest; the running level is 1 at the first pass after a wake (R102), in parts per thousand. -/
def ArrayS.reset : ArrayS :=
  { accum := [], first := none, second := none, lastMode := none, checks := [], spin := .rest, level := 1000, since := 0 }

/-- A bank without power (R160). -/
def Bank.reset : Bank :=
  { state := .off, requested := .active, target := .off, queue := [], heat := false, locked := [], scrubRow := 0, scrubbing := false,
    cleanTime := 0, rewriting := 0 }

/-- A register set at its reset values (R323). -/
def MoverSet.reset : MoverSet := ⟨0, 0, 0, 0, 0, 0, 0, 0, 0, 0, 0, 0, 0, 0, 0⟩

/-- A mover channel at its reset values (R324). -/
def Mover.reset : Mover :=
  { state := .idle, active := .reset, shadow := .reset, shadowValid := false, pending := 0, errCode := 0, errAddr := 0,
    late := false, overrun := false, bytesDone := 0, doneCount := 0, lastUser := 0, epoch := 0, endpoints := [],
    stopFault := false, attempt := none }

/-- A pier without power (R474). -/
def PowerS.reset : PowerS :=
  { state := .off, stage := 0, phasePoint := 1, cellLimit := 7, thermalLimit := 7, admissionLimit := 7, point := 1,
    millivolts := 0, slewTo := none, drawTo := none, phaseHeld := false, ownBubble := 0, reserved := 0, heatPending := false,
    ageCeiling := 960, junction := 0, throttled := none, onSince := 0 }

/-- A field's clock before its PLL has locked; DA 6 at the nominal VCO of R437. -/
def FieldClock.reset : FieldClock :=
  { da := 6, vco := 4800000, offset := 0, heldAt := 0, errors := [], delays := [], rate := 0, beaconAt := 0, stretching := false, relocking := false
    forced := false, toPoint := none, lastEnd := none }

/-- A DARK field (R478). -/
def Field.reset : Field :=
  { state := .dark, saved := .dark, logical := 255, seq := .reset, array := .reset, banks := List.replicate 40 .reset,
    movers := List.replicate 16 .reset, power := .reset, cellsOut := 0, clock := .reset, wakeTries := 0, hot := false,
    newBuild := false, restarting := false, coresReset := 0, homeDigests := [], lastDigests := [], rowScales := [] }

/-- The predictor at zero (R239). -/
def Predictor.reset : Predictor := ⟨List.replicate 15 0, List.replicate 15 0, 0, 0, 0⟩

/-- No timetable (R311). -/
def Timetable.reset : Timetable := ⟨0, false, none, false, 0, false⟩

/-- A span that does not exist (R53, R25, R50). -/
def Span.reset : Span :=
  { state := .unused, committed := 0, step := none, attempt := 0, epoch := 0, anchor := 0, members := [], spare := none,
    devices := 1, device := 0, addrA := 0, addrB := 0, reqQueue := 0, outQueue := 0, outTail := 0, reqHead := 0,
    select := false, keyTime := 0, writeTime := 0, provOutTail := 0, provReqHead := 0, clean := 0, doneCount := 0, status := 0,
    windowSum := 0, arrival := 0, arrivalAtOpen := 0, headTaken := none, unarrived := [], sent := 0, bindings := [], latched := [],
    pauses := [], recovery := [], failPauses := 0, charged := [], lost := [], barriers := [], mcasts := [],
    timetable := .reset, seqs := [], working := [], trees := [], pred := .reset, predWork := .reset, shape := (4, 2), shapeWork := (4, 2), verified := [],
    noticeStep := 0, proposalLate := false, lateSeen := false, draftGone := false, shapeSeen := false, predClear := false,
    moreChunks := false, peersLoaded := 0, epochDue := 0, weightsLoaded := false, prepared := false, lastRefuse := [],
    lastFull := none, draftActed := 0, noticeOpen := 0, verifyAt := 0, variantFor := 0, kvLost := [], suspects := [], testing := [], testHit := false }

/-- A channel before training (R270). -/
def Channel.reset : Channel := ⟨.off, 0, 0, false, 0, []⟩

/-- An interleave set before its descriptor is checked (R260). -/
def ISet.reset : ISet := ⟨.unused, []⟩

/-- A tower before its test (R275). -/
def Tower.reset : Tower := ⟨[], [], [], false, false, 0⟩

/-- The link states of router r with no fault: ABSENT toward the die edge (R276, R301). -/
def Router.reset (r : Nat) : Router :=
  let x := r % 12
  let y := r / 12
  { links := [if y = 0 then .absent else .online, if x = 11 then .absent else .online,
              if y = 9 then .absent else .online, if x = 0 then .absent else .online]
    replays := [0, 0, 0, 0], wires := [], spares := [], table := [], next := [] }

/-- The mesh with no fault (R302). -/
def Mesh.reset : Mesh :=
  { routers := (List.range 120).map Router.reset, routeGen := false, holding := false, requests := [], nextTag := 0 }

/-- The recorder of a module never powered: a blank event area with no ceiling (R431), a full page bucket (R426). -/
def Recorder.reset : Recorder :=
  { nextSeq := 1, ceiling := none, die := [], flash := [], pendingN := 0, bucket := 32, lostSince := 0, notices := [],
    unitLost := [] }

/-- A firmware bank that holds nothing (R497). -/
def BankImg.empty : BankImg := ⟨.empty, 0, 0, 0, 0, [], 0⟩

/-- The module before its first power-good: bank A is the boot bank (R497); 1,048,576 LMS leaves are unused (R504). -/
def Boot.reset : Boot :=
  { powered := false, step := 0, fuseFault := false, recovery := false, fastMode := false, fast := false, full := false,
    bankA := { BankImg.empty with state := .active }, bankB := .empty, bootB := false, target := 0, packLen := 0, update := .idle,
    cursor := 0, rollback := [], supNew := (false, false), mapA := some ⟨0, []⟩, mapB := some ⟨0, []⟩, mapLost := false, pack := [], leafNext := 0, leafEnd := 0
    saved := [], inHand := none, dropNoted := none }

/-- No session (R535). -/
def Session.reset : Session := ⟨false, 0, none, [], []⟩

/-- An idle slot (R522). -/
def SlotS.reset : SlotS := ⟨.idle, [], []⟩

/-- The control ports with nothing open; supervisor A active, B standby (R482, R370). -/
def Control.reset : Control :=
  { txs := [], expired := [], frozen := [], perMaster := [], nvWrites := [], pcie := List.replicate 4 .reset, cores := [],
    summaryStatus := 0, summaryBuf := [], irqStatus := 0, vectors := [], sessions := List.replicate 16 .reset,
    keys := List.replicate 8 [], keyFails := List.replicate 8 [], keyLocked := List.replicate 8 false, violations := [],
    activeB := false, standby := true }

/-- The ports before training (R541, R559). -/
def Ports.reset : Ports :=
  { eth := List.replicate 8 ⟨.down, []⟩, links := List.replicate 8 ⟨.off, 0, 0, [], [], []⟩, streams := [],
    ticks := List.replicate 64 0, silentTime := none }

/-- REFA selected and every copy good (R433, R435); device time 0 (R447). -/
def Clocks.reset : Clocks :=
  { refState := .locked false, good := [true, true, true, true], strips := (false, false), time := 0, frac := 0, slew := 0, running := false,
    timetableNoted := false, ptpLocked := false, ptpOnce := false, ptpGood := 0, ptpDelay := 0, ptpLost := false }

/-- No bubbles, the default cap in force (R481, R583). -/
def Supply.reset : Supply :=
  { bubble := (0, 1), above := 0, zero := 0, capInForce := 10500, alert := false, holding := false, undervolt := false,
    opNanos := 0, energy := 0, saved := (0, 0, 32), calibrated := false, models := [], flows := [], limitedBy := (false, false),
    starved := false, genTime := none, vminNoted := [], zones := List.replicate 10 0 }

/-- The machine right after reset: MOD_RESET_N has turned the power stage off (R571), so every field is DARK and every
dictionary value stands at its default. -/
def State.reset : State :=
  { pending := [], outbox := [], freeCount := 0, lateReads := [], regs := [], mem := [], fields := List.replicate 30 .reset,
    spans := List.replicate 8 .reset, towers := List.replicate 24 .reset, channels := List.replicate 192 .reset,
    sets := List.replicate 16 .reset, mesh := .reset, recorder := .reset, faults := ⟨[], [], [], [], [], [], 0⟩,
    tests := ⟨none, none, [], []⟩, control := .reset, boot := .reset, ports := .reset, clocks := .reset, supply := .reset,
    jtag := ⟨0, 0, false⟩, sleepers := [] }

end Sys2Proof.Machine
end

