-- ==== Sys2Proof/Machine/Ops.lean ====
section
/-! DEFINITION. The named operations over State that every meaning is made of: dictionary values, records of the state, memory,
emissions, events, interrupts and the generation counter. -/

namespace Sys2Proof.Machine

/-! ### Dictionary values -/

/-- The default set of R257 as the 64-byte descriptor of R253: 192 channels, 3 TiB, 4 KiB units. -/
def defaultSetDesc : List Byte :=
  leBytes 8 0 ++ leBytes 8 (3 * 2 ^ 40) ++ leBytes 4 0 ++ leBytes 1 12 ++ leBytes 1 1 ++ leBytes 2 192 ++
  leBytes 24 (2 ^ 192 - 1) ++ leBytes 4 0 ++ zeros 12

/-- Entry 9 of the dictionary server at delivery (R368): class 3 instance 0, rights R, W and C, tag 0xFE, 0x1000 to 0xFFFF. -/
def deliveryEntry : List Byte :=
  leBytes 2 0x300 ++ leBytes 2 0xFFF ++ leBytes 1 0x8B ++ leBytes 1 0xFE ++ leBytes 2 0 ++ leBytes 8 0xFFFF1000

/-- The key of an object in the register file. -/
def Obj.key (o : Obj) (i j : Nat) : Nat := (o.index + i) * 256 + o.sub + j

/-- The default of an object: that of its table, but for set 0 (R257) and entry 9 of target 0x40 (R368). -/
def Obj.dfltAt (o : Obj) (i j : Nat) : Nat :=
  if o.key i j = 0x404001 then ofLe defaultSetDesc else if o.key i j = 0x58400A then ofLe deliveryEntry else o.dflt

/-- The value listed under a key. -/
def RegFile.find (r : RegFile) (k : Nat) : Option Nat := r.lookup k

/-- Put `v` under key `k`; a value equal to the default `d` is not listed. -/
def RegFile.put (r : RegFile) (k v d : Nat) : RegFile :=
  r.filter (fun e => e.1 < k) ++ (if v = d then [] else [(k, v)]) ++ r.filter (fun e => k < e.1)

/-- The value of object `o` at index offset `i`, subindex offset `j`, in a register file. -/
def RegFile.value (r : RegFile) (o : Obj) (i j : Nat) : Nat := (r.find (o.key i j)).getD (o.dfltAt i j)

/-- The value of an object of several subindices. -/
def State.regAt (s : State) (o : Obj) (i j : Nat) : Nat := s.regs.value o i j

/-- The value of an object. -/
def State.reg (s : State) (o : Obj) (i : Nat) : Nat := s.regAt o i 0

/-- The default set of the part (R257): every channel of the towers that the fuse map leaves, 16 GiB each. -/
def State.defaultSet (s : State) : List Byte :=
  let fused := leAt (leBytes 952 (s.reg regFuseMap 0)) 16 4
  let towers := (List.range 24).filter fun t => !fused.testBit t
  let n := 8 * towers.length
  leBytes 8 0 ++ leBytes 8 (n * 2 ^ 34) ++ leBytes 4 0 ++ leBytes 1 12 ++ leBytes 1 1 ++ leBytes 2 n ++
  leBytes 24 ((towers.map fun t => 255 * 2 ^ (8 * t)).sum) ++ leBytes 4 0 ++ zeros 12

/-- The 64 bytes of a set's descriptor: set 0 is the part's default set until a map is written (R257). -/
def State.setBytes (s : State) (k : Nat) : List Byte :=
  if k = 0 ∧ s.reg regSetDesc 0 = ofLe defaultSetDesc then s.defaultSet else leBytes 64 (s.reg regSetDesc k)

/-- Write an object of several subindices, cut to its size. -/
def State.setRegAt (s : State) (o : Obj) (i j v : Nat) : State :=
  { s with regs := s.regs.put (o.key i j) (v % 256 ^ o.size) (o.dfltAt i j) }

/-- Write an object. -/
def State.setReg (s : State) (o : Obj) (i v : Nat) : State := s.setRegAt o i 0 v

/-- Count `n` more in an object: counters saturate (R538). -/
def State.bump (s : State) (o : Obj) (i n : Nat) : State := s.setReg o i (satAdd o.size (s.reg o i) n)

/-! ### The records of State -/

/-- Field `f`. -/
def State.field (s : State) (f : Nat) : Field := s.fields.getD f .reset
/-- Span `k`. -/
def State.span (s : State) (k : Nat) : Span := s.spans.getD k .reset
/-- Device channel `c`. -/
def State.channel (s : State) (c : Nat) : Channel := s.channels.getD c .reset
/-- Interleave set `k`. -/
def State.set (s : State) (k : Nat) : ISet := s.sets.getD k .reset
/-- Tower `t`. -/
def State.tower (s : State) (t : Nat) : Tower := s.towers.getD t .reset
/-- Router `r`. -/
def State.router (s : State) (r : Nat) : Router := s.mesh.routers.getD r (.reset r)
/-- Bank `b` of field `f`. -/
def Field.bank (f : Field) (b : Nat) : Bank := f.banks.getD b .reset
/-- Mover channel `c` of a field. -/
def Field.mover (f : Field) (c : Nat) : Mover := f.movers.getD c .reset

/-- Change field `f`. -/
def State.modField (s : State) (f : Nat) (g : Field → Field) : State := { s with fields := s.fields.modify f g }
/-- Change span `k`. -/
def State.modSpan (s : State) (k : Nat) (g : Span → Span) : State := { s with spans := s.spans.modify k g }
/-- Change channel `c`. -/
def State.modChannel (s : State) (c : Nat) (g : Channel → Channel) : State := { s with channels := s.channels.modify c g }
/-- Change set `k`. -/
def State.modSet (s : State) (k : Nat) (g : ISet → ISet) : State := { s with sets := s.sets.modify k g }
/-- Change tower `t`. -/
def State.modTower (s : State) (t : Nat) (g : Tower → Tower) : State := { s with towers := s.towers.modify t g }
/-- Change the mesh. -/
def State.modMesh (s : State) (g : Mesh → Mesh) : State := { s with mesh := g s.mesh }
/-- Change router `r`. -/
def State.modRouter (s : State) (r : Nat) (g : Router → Router) : State :=
  s.modMesh fun m => { m with routers := m.routers.modify r g }
/-- Change the sequencer of field `f`. -/
def State.modSeq (s : State) (f : Nat) (g : Sequencer → Sequencer) : State := s.modField f fun x => { x with seq := g x.seq }
/-- Change the array of field `f`. -/
def State.modArray (s : State) (f : Nat) (g : ArrayS → ArrayS) : State := s.modField f fun x => { x with array := g x.array }
/-- Change bank `b` of field `f`. -/
def State.modBank (s : State) (f b : Nat) (g : Bank → Bank) : State := s.modField f fun x => { x with banks := x.banks.modify b g }
/-- Change mover channel `c` of field `f`. -/
def State.modMover (s : State) (f c : Nat) (g : Mover → Mover) : State :=
  s.modField f fun x => { x with movers := x.movers.modify c g }
/-- Change the power record of field `f`. -/
def State.modPower (s : State) (f : Nat) (g : PowerS → PowerS) : State := s.modField f fun x => { x with power := g x.power }
/-- Change the clock of field `f`. -/
def State.modClock (s : State) (f : Nat) (g : FieldClock → FieldClock) : State :=
  s.modField f fun x => { x with clock := g x.clock }
/-- Change the recorder. -/
def State.modRec (s : State) (g : Recorder → Recorder) : State := { s with recorder := g s.recorder }
/-- Change the fault records. -/
def State.modFaults (s : State) (g : Faults → Faults) : State := { s with faults := g s.faults }
/-- Change the test engine. -/
def State.modTests (s : State) (g : TestEngine → TestEngine) : State := { s with tests := g s.tests }
/-- Change the control ports. -/
def State.modCtl (s : State) (g : Control → Control) : State := { s with control := g s.control }
/-- Change the bring-up record. -/
def State.modBoot (s : State) (g : Boot → Boot) : State := { s with boot := g s.boot }
/-- Change the data ports. -/
def State.modPorts (s : State) (g : Ports → Ports) : State := { s with ports := g s.ports }
/-- Change the device clocks. -/
def State.modClocks (s : State) (g : Clocks → Clocks) : State := { s with clocks := g s.clocks }
/-- Change the supply. -/
def State.modSupply (s : State) (g : Supply → Supply) : State := { s with supply := g s.supply }
/-- Ethernet port `e`. -/
def State.eth (s : State) (e : Nat) : EthPort := s.ports.eth.getD e ⟨.down, []⟩
/-- Change Ethernet port `e`. -/
def State.modEth (s : State) (e : Nat) (g : EthPort → EthPort) : State := s.modPorts fun p => { p with eth := p.eth.modify e g }
/-- Spanlink port `p`. -/
def State.link (s : State) (p : Nat) : Spanlink := s.ports.links.getD p ⟨.off, 0, 0, [], [], []⟩
/-- Change spanlink port `p`. -/
def State.modLink (s : State) (p : Nat) (g : Spanlink → Spanlink) : State :=
  s.modPorts fun x => { x with links := x.links.modify p g }

/-! ### Free values, emissions and time -/

/-- The next free value of `w` bits (notes/assumptions/5). -/
def State.free (s : State) (w : Nat) : BitVec w := Config.freeValue s.freeCount w
/-- Use up one free value. -/
def State.nextFree (s : State) : State := { s with freeCount := s.freeCount + 1 }
/-- Send something. -/
def State.emit (s : State) (e : Emission) : State := { s with outbox := e :: s.outbox }
/-- Device time in ns (R447). -/
def State.now (s : State) : Nat := s.clocks.time
/-- Operating time in seconds (R419, R479). -/
def State.opSeconds (s : State) : Nat := s.supply.opNanos / 1000000000
/-- Do each of a list of things in order. -/
def State.each {α : Type} (s : State) (l : List α) (g : State → α → State) : State := l.foldl g s
/-- Do something if a condition holds. -/
def State.when (s : State) (c : Bool) (g : State → State) : State := if c then g s else s

/-! ### Memory -/

/-- The byte under a key; a byte not listed is 0 (R159 for scratchpad rows; notes/assumptions/4 for towers). -/
def Memory.byte (m : Memory) (k : Nat) : Byte := (m.lookup k).getD 0
/-- The bytes of `l` that differ from 0, as cells from key `k` upward. -/
def cellsFrom (k : Nat) : List Byte → Memory
  | [] => []
  | b :: r => if b = 0 then cellsFrom (k + 1) r else (k, b) :: cellsFrom (k + 1) r
/-- Write bytes from key `k` upward. -/
def Memory.write (m : Memory) (k : Nat) (l : List Byte) : Memory :=
  m.filter (fun c => c.1 < k) ++ cellsFrom k l ++ m.filter (fun c => k + l.length ≤ c.1)
/-- Drop every byte with lo ≤ key < hi: it reads 0 again. -/
def Memory.clear (m : Memory) (lo hi : Nat) : Memory := m.filter (fun c => c.1 < lo || hi ≤ c.1)
/-- `n` bytes from key `k` upward. -/
def Memory.read (m : Memory) (k n : Nat) : List Byte :=
  let w := m.filter fun c => k ≤ c.1 && c.1 < k + n
  (List.range n).map fun i => Memory.byte w (k + i)
/-- Keys strictly rising, and no byte 0 listed. -/
def Memory.wf : Memory → Bool
  | [] => true
  | [c] => c.2 != 0
  | c :: d :: r => c.2 != 0 && c.1 < d.1 && Memory.wf (d :: r)

/-- Read bytes. -/
def State.read (s : State) (k n : Nat) : List Byte := s.mem.read k n
/-- Write bytes. -/
def State.write (s : State) (k : Nat) (l : List Byte) : State := { s with mem := s.mem.write k l }
/-- Clear bytes. -/
def State.wipe (s : State) (lo hi : Nat) : State := { s with mem := s.mem.clear lo hi }

/-- First key of the scratchpad window of field `f`, bank `b`, row `r` (R15). -/
def scratchKey (f b r : Nat) : Nat := 8 * 2 ^ 44 + f * 2 ^ 31 + b * 2 ^ 25 + r * 2 ^ 9
/-- Key of offset `o` of the control window (R15, R521). -/
def controlKey (o : Nat) : Nat := 12 * 2 ^ 44 + o
/-- First key of firmware bank A or B (R494, R497): module flash has no device address. -/
def bankKey (b : Bool) : Nat := 2 ^ 48 + boolNat b * 2 ^ 25

/-! ### Master IDs (R352) -/

/-- The active supervisor. -/
def State.supervisor (s : State) : Nat := 0x500 + boolNat s.control.activeB
/-- The pier sequencer of field `f`. -/
def pierMaster (f : Nat) : Nat := 0x100 + f
/-- Mover channel `c` of field `f`. -/
def moverMaster (f c : Nat) : Nat := 0x200 + 8 * f + c / 2
/-- The processor of field `f`, core `c`. -/
def coreMaster (f c : Nat) : Nat := 4 * f + c
/-- The data-port engine of Ethernet port `e`. -/
def portMaster (e : Nat) : Nat := 0x700 + e
/-- Supervisor A's field is 0, B's 29 (R350). -/
def State.supervisorField (s : State) : Nat := if s.control.activeB then 29 else 0

/-! ### Events (R419 to R424) -/

/-- A unit raises an event: it holds a notice until the supervisor accepts it, up to 16, and counts what it cannot hold (R424). -/
def State.notice (s : State) (unit source code : Nat) (data : List Byte) : State :=
  s.modRec fun r =>
    if (r.notices.filter (·.unit == unit)).length < 16 then
      { r with notices := r.notices ++ [⟨unit, source, code, padTo 8 data⟩] }
    else
      { r with unitLost := (unit, ((r.unitLost.lookup unit).getD 0) + 1) :: r.unitLost.filter (·.1 != unit) }

/-- A master raises an event. -/
def State.event (s : State) (source code : Nat) (data : List Byte) : State := s.notice source source code data

/-- Units that are no masters, as holders of notices: tower controllers and routers. -/
def towerHolder (t : Nat) : Nat := 0x1000 + t
/-- See `towerHolder`. -/
def routerHolder (r : Nat) : Nat := 0x2000 + r

/-- A unit that is no master raises an event (R420). -/
def State.unitEvent (s : State) (unit code : Nat) (data : List Byte) : State := s.notice unit s.supervisor code data

/-- An event of the supervisor itself, which needs no notice, or of the fabric (R420). -/
def State.supEvent (s : State) (code : Nat) (data : List Byte) : State :=
  s.modRec fun r => { r with notices := r.notices ++ [⟨s.supervisor, s.supervisor, code, padTo 8 data⟩] }

/-- The code of a span state (R53). -/
def SpanState.code : SpanState → Nat
  | .unused => 0 | .loading => 1 | .ready => 2 | .running => 3 | .paused => 4 | .resetting => 5 | .stopped => 6

/-- An event of R54 that the span's state does not list is ignored and recorded (R54, R584). -/
def State.ignored (s : State) (k n : Nat) : State :=
  s.supEvent 0x0A07 (leBytes 1 k ++ leBytes 1 (s.span k).state.code ++ leBytes 1 n)

/-! ### MSI-X and the generation counter -/

/-- The cause of MSI-X vector `v` occurs (R526, R528): its bit of IRQ_STATUS is set, and it fires at most once per 100 µs, vector 0
without that limit. -/
def State.vector (s : State) (v : Nat) : State :=
  let s1 := s.modCtl fun c => { c with irqStatus := setBit c.irqStatus v }
  let due := v == 0 || match s.control.vectors.lookup v with
    | none => true
    | some t => t + 100000 ≤ s.now
  if due then
    (s1.modCtl fun c => { c with vectors := (v, s.now) :: c.vectors.filter (·.1 != v) }).emit (.msix v)
  else s1

/-- One change counted by the generation counter (R58), which is the cause of vector 3 (R528). -/
def State.changed (s : State) : State := (s.setReg regGeneration 0 (s.reg regGeneration 0 + 1)).vector 3

/-- A span enters a state: R58 counts the change unless it lies between READY and RUNNING; vector 8 + s (R528). -/
def State.setSpanState (s : State) (k : Nat) (x : SpanState) : State :=
  let old := (s.span k).state
  if old = x then s else
    let s1 := (s.modSpan k fun p => { p with state := x }).vector (8 + k)
    if (old = .ready ∧ x = .running) ∨ (old = .running ∧ x = .ready) then s1 else s1.changed

/-- The capacity record changes (R414). -/
def State.capacityChanged (s : State) : State := (s.supEvent 0x040F []).changed

/-- A field enters a state: R58 counts the change unless it enters or leaves DRAWBRIDGE. -/
def State.setFieldState (s : State) (f : Nat) (x : FieldState) : State :=
  let old := (s.field f).state
  if old = x then s else
    let s1 := s.modField f fun y => { y with state := x }
    if old = .drawbridge ∨ x = .drawbridge then s1 else s1.changed

/-- A pier enters a power state (R58). -/
def State.setPierPower (s : State) (f : Nat) (x : PierPower) : State :=
  if (s.field f).power.state = x then s else (s.modPower f fun p => { p with state := x }).changed

/-- A channel enters a state (R58); the capacity record counts those ONLINE (R414). -/
def State.setChannelState (s : State) (c : Nat) (x : ChannelState) : State :=
  let old := (s.channel c).state
  if old = x then s else
    let s1 := (s.modChannel c fun y => { y with state := x }).changed
    if old = .online ∨ x = .online then s1.capacityChanged else s1

/-- An interleave set enters a state (R58). -/
def State.setSetState (s : State) (k : Nat) (x : SetState) : State :=
  if (s.set k).state = x then s else (s.modSet k fun y => { y with state := x }).changed

/-- A mesh link port of a router enters a state (R58). -/
def State.setLinkState (s : State) (r d : Nat) (x : LinkState) : State :=
  if (s.router r).links.getD d .absent = x then s else
    (s.modRouter r fun y => { y with links := y.links.set d x }).changed

/-- What the capacity record shows of a spanlink port in a state (R414): in service with its lanes, its lanes alone, or nothing. -/
def PortState.inRecord : PortState → Nat
  | .up => 2
  | .retraining => 1
  | _ => 0

/-- A spanlink port enters a state (R58, R414). -/
def State.setPortState (s : State) (p : Nat) (x : PortState) : State :=
  let old := (s.link p).state
  if old = x then s else
    let s1 := (s.modLink p fun y => { y with state := x, waiting := if old = .up then [] else y.waiting }).changed
    if old.inRecord = x.inRecord then s1 else s1.capacityChanged

/-- A spanlink port takes a width (R58). -/
def State.setLanes (s : State) (p w : Nat) : State :=
  if (s.link p).lanes = w then s else (s.modLink p fun x => { x with lanes := w }).changed

/-- UPDATE_STATE changes (R528, vector 4). -/
def State.setUpdate (s : State) (x : UpdateState) : State :=
  if s.boot.update = x then s else (s.modBoot fun b => { b with update := x }).vector 4

/-- A device-level pier status (R58). -/
def State.setPierStatus (s : State) (f v : Nat) : State :=
  if s.reg regPierStatus f = v then s else (s.setReg regPierStatus f v).changed

/-! ### Spans and piers -/

/-- The span whose member or spare on this device is the pier of field `f` (R353). -/
def State.spanOf (s : State) (f : Nat) : Option Nat :=
  (List.range 8).find? fun k =>
    let p := s.span k
    p.state != .unused && (p.members.contains (p.device, f) || p.spare == some f)

/-- The span that the pier of field `f` serves as a member. -/
def State.memberOf (s : State) (f : Nat) : Option Nat :=
  (List.range 8).find? fun k => (s.span k).state != .unused && (s.span k).members.contains ((s.span k).device, f)

/-- The members of a span on this device, as fields. -/
def Span.here (p : Span) : List Nat := (p.members.filter (·.1 == p.device)).map (·.2)

/-- The members and the spare of a span on this device. -/
def Span.piers (p : Span) : List Nat := p.here ++ p.spare.toList

/-- The member number of field `f` of this device (R353). -/
def Span.memberNo (p : Span) (f : Nat) : Option Nat := p.members.findIdx? (· == (p.device, f))

/-- The placement record of span `k` (R354). -/
def State.placement (s : State) (k : Nat) : List Byte := leBytes 64 (s.reg regPlacement k)

/-- A value of a span's object as it is in force for its open step (R49). -/
def State.inForce (s : State) (k : Nat) (o : Obj) : Nat := (s.span k).latched.value o k 0

/-- Mark a span to pause at its next keystone for a reason of the supervisor. -/
def State.markPause (s : State) (k : Nat) (r : PauseReason) : State :=
  s.modSpan k fun p => if p.pauses.contains r then p else { p with pauses := p.pauses ++ [r] }

/-- The attempt that is open at the pier of field `f`: span, step and attempt. -/
def State.openStep (s : State) (f : Nat) : Option (Nat × Nat × Nat) :=
  match s.memberOf f with
  | none => none
  | some k => if (s.span k).step.isSome then some (k, (s.span k).committed + 1, (s.span k).attempt) else none

/-- Low 32 bits of the open step of the pier of field `f` (0 when none is open), as event data. -/
def State.stepLow (s : State) (f : Nat) : List Byte := leBytes 4 (((s.openStep f).map (·.2.1)).getD 0)

end Sys2Proof.Machine
end

