-- ==== Sys2Proof/Machine/Access.lean ====
section
/-! DEFINITION. Access tables (R362 to R368): which entries a target holds, which requests they grant, and what a refusal records. -/

namespace Sys2Proof.Machine

/-- The rights of R362, in the code order of R367. -/
inductive Right where
  | r | w | a | c
deriving DecidableEq, Repr

/-- The code of a right (R367). -/
def Right.code : Right → Nat
  | .r => 0 | .w => 1 | .a => 2 | .c => 3

/-- Target numbers of R362. -/
def targetScratch (f : Nat) : Nat := f
/-- Target number of tower `t`. -/
def targetTower (t : Nat) : Nat := 0x20 + t
/-- Target number of the dictionary server. -/
def targetDict : Nat := 0x40
/-- Target number of the mover block of field `f`. -/
def targetMover (f : Nat) : Nat := 0x50 + f
/-- Target number of spanlink port `p`. -/
def targetLink (p : Nat) : Nat := 0x70 + p
/-- Target number of the processor cluster of field `f`. -/
def targetCluster (f : Nat) : Nat := 0x80 + f

/-- Does a target number exist (R362)? -/
def targetExists (n : Nat) : Bool :=
  n < 0x1E || (0x20 ≤ n && n < 0x38) || n == 0x40 || (0x50 ≤ n && n < 0x6E) || (0x70 ≤ n && n < 0x7A) || (0x80 ≤ n && n < 0x9E)

/-- An entry of R363: master, mask, rights, tag, scope. -/
structure Entry where
  master : Nat
  mask   : Nat
  rights : Nat
  tag    : Nat
  scope  : Nat
deriving DecidableEq, Repr

/-- The entry that 16 bytes hold (R363). -/
def Entry.ofBytes (l : List Byte) : Entry :=
  ⟨bits (leAt l 0 2) 0 12, bits (leAt l 2 2) 0 12, leAt l 4 1, leAt l 5 1, leAt l 8 8⟩

/-- The 16 bytes of an entry (R363). -/
def Entry.toBytes (e : Entry) : List Byte :=
  leBytes 2 e.master ++ leBytes 2 e.mask ++ leBytes 1 e.rights ++ leBytes 1 e.tag ++ zeros 2 ++ leBytes 8 e.scope

/-- Is the entry VALID (R363)? -/
def Entry.valid (e : Entry) : Bool := e.rights.testBit 7

/-- The sets that a placement names (R354): HOME, KV and RECORD sets, as a mask of 16 bits. -/
def namedSets (place : List Byte) : Nat := leAt place 8 2 ||| leAt place 10 2 ||| leAt place 12 2

/-- The channels of an interleave set's descriptor, as a mask of 192 bits (R253). -/
def State.setChannels (s : State) (k : Nat) : Nat := leAt (s.setBytes k) 24 24

/-- The movers of field `f` assigned to span `k`, as a mask (R346). -/
def State.spanMovers (s : State) (f k : Nat) : Nat :=
  packBools ((List.range 16).map fun c => leAt (leBytes 16 (s.reg regMoverSpan f)) c 1 == k)

/-- The cores of field `f` with tag `k`, as a mask (R348). -/
def State.spanCores (s : State) (f k : Nat) : Nat :=
  packBools ((List.range 4).map fun c => leAt (leBytes 4 (s.reg regCoreSpan f)) c 1 == k)

/-- Entry k + 1 of target `n`, that of span `k` (R365): MASK 0, TAG k, rights R, W and A; none when the span does not exist or
the target is not the span's. -/
def State.spanEntry (s : State) (n k : Nat) : Option Entry :=
  let p := s.span k
  let place := s.placement k
  let mk (rights scope : Nat) : Option Entry := some ⟨0, 0, 0x80 + rights, k, scope⟩
  if p.state = .unused then none
  else if n < 0x1E then if p.piers.contains n then mk 7 (2 ^ 40 - 1) else none
  else if n < 0x38 then
    let t := n - 0x20
    let sets := (bitList 16 (namedSets place)).filter fun j => bits (s.setChannels j) (8 * t) 8 != 0
    if sets.isEmpty then none else mk 7 (namedSets place)
  else if n < 0x50 then none
  else if n < 0x6E then if p.here.contains (n - 0x50) then mk 15 (s.spanMovers (n - 0x50) k) else none
  else if n < 0x78 then if (leAt place 35 1).testBit (n - 0x70) then mk 7 0 else none
  else if n < 0x7A then mk 7 0
  else if n < 0x9E then if p.here.contains (n - 0x80) then mk 7 (s.spanCores (n - 0x80) k) else none
  else none

/-- The scope bits that target `n` uses (R362). -/
def scopeBits (n : Nat) : Nat :=
  if n < 0x20 then 40 else if n < 0x40 then 16 else if n = targetDict then 32 else if n < 0x70 then 16 else if n < 0x80 then 0 else 4

/-- Every scope of target `n`: all the bits it uses, and of the dictionary server every index (R362, R365); unused bits read as zero (R13). -/
def fullScope (n : Nat) : Nat := if n = targetDict then 0xFFFF0000 else 2 ^ scopeBits n - 1

/-- Entry `e` of target `n` (R365): 0 fixed, 1 to 8 of the spans, 9 to 63 of host software. -/
def State.entry (s : State) (n e : Nat) : Option Entry :=
  if e = 0 then some ⟨s.supervisor, 0xFFF, 0x8F, 0xFF, fullScope n⟩
  else if e < 9 then s.spanEntry n (e - 1)
  else
    let x := Entry.ofBytes (leBytes 16 (s.regAt regAccessEntry n e))
    if x.valid then some x else none

/-- Does the scope of an entry at target `n` cover an item (R362, R364)?  The dictionary server's scope is a range of indices; ports
and data-port groups use none; entry 0 covers every scope. -/
def scopeCovers (n e scope item : Nat) : Bool :=
  e == 0 || if n = targetDict then bits scope 0 16 ≤ item && item ≤ bits scope 16 16
    else if 0x70 ≤ n && n < 0x7A then true else scope.testBit item

/-- Does an entry match a request (R364)? -/
def entryMatches (n e : Nat) (x : Entry) (master span : Nat) (items : List Nat) : Bool :=
  x.valid && ((master ^^^ x.master) &&& x.mask) == 0 &&
  (x.tag == 0xFF || (x.tag == 0xFE && span == 0xFF) || (x.tag < 8 && x.tag == span)) &&
  items.all (scopeCovers n e x.scope)

/-- Is a request granted the right it needs over every item it touches (R364)? -/
def State.granted (s : State) (n master span : Nat) (right : Right) (items : List Nat) : Bool :=
  (List.range 64).any fun e =>
    match s.entry n e with
    | some x => entryMatches n e x master span items && x.rights.testBit right.code
    | none => false

/-- A target refuses a request (R367): the count, the record of it, and event 0x0801 at most once per millisecond for each pair of
target and master. -/
def State.violation (s : State) (n master span : Nat) (right : Right) (addr : Nat) : State :=
  let s1 := s.bump regViolations n 1
  let rec16 := leBytes 2 master ++ leBytes 1 span ++ leBytes 1 right.code ++ leBytes 1 n ++ zeros 3 ++ leBytes 8 addr
  let s2 := s1.setReg regLastViolation n (ofLe rec16)
  let due := match s.control.violations.lookup (n, master) with
    | none => true
    | some t => t + 1000000 ≤ s.now
  if due then
    (s2.modCtl fun c => { c with violations := ((n, master), s.now) :: c.violations.filter (·.1 != (n, master)) }).supEvent 0x0801
      (leBytes 2 (master + 4096 * right.code) ++ leBytes 1 n ++ leBytes 1 span ++ leBytes 4 addr)
  else s2

end Sys2Proof.Machine
end

