-- ==== Sys2Proof/Machine/Mesh.lean ====
section
/-! DEFINITION. The mesh's packets, status codes, requests in flight, links and detour routes (R276 to R304). -/

namespace Sys2Proof.Machine

/-! ### Packet types and status codes -/

/-- TYPE codes of R283. -/
def tyRead : Nat := 0x01
/-- ATOMIC. -/
def tyAtomic : Nat := 0x02
/-- SMALL_WRITE. -/
def tySmallWrite : Nat := 0x03
/-- SIGNAL. -/
def tySignal : Nat := 0x04
/-- ARRIVE. -/
def tyArrive : Nat := 0x05
/-- REPORT. -/
def tyReport : Nat := 0x06
/-- RELEASE. -/
def tyRelease : Nat := 0x07
/-- ADVANCE. -/
def tyAdvance : Nat := 0x08
/-- ABORT. -/
def tyAbort : Nat := 0x09
/-- OPEN. -/
def tyOpen : Nat := 0x0A
/-- SLIP. -/
def tySlip : Nat := 0x0B
/-- CONTROL. -/
def tyControl : Nat := 0x0C
/-- CREDIT_RESET. -/
def tyCreditReset : Nat := 0x0D
/-- READ_DATA. -/
def tyReadData : Nat := 0x10
/-- ACK. -/
def tyAck : Nat := 0x11
/-- NACK. -/
def tyNack : Nat := 0x12
/-- MCAST_ACK. -/
def tyMcastAck : Nat := 0x13
/-- WRITE. -/
def tyWrite : Nat := 0x20
/-- ROWS. -/
def tyRows : Nat := 0x21
/-- READBACK. -/
def tyReadback : Nat := 0x22
/-- MCAST_DATA. -/
def tyMcastData : Nat := 0x23
/-- COLL_DATA. -/
def tyCollData : Nat := 0x24

/-- NACK status codes of R284. -/
def nackAccess : Nat := 1
/-- RESET. -/
def nackReset : Nat := 2
/-- ABSENT. -/
def nackAbsent : Nat := 3
/-- UNCORR. -/
def nackUncorr : Nat := 4
/-- UNREACHABLE. -/
def nackUnreachable : Nat := 5
/-- RETIRED. -/
def nackRetired : Nat := 6
/-- OFF. -/
def nackOff : Nat := 7
/-- LOST. -/
def nackLost : Nat := 8
/-- RETRAIN. -/
def nackRetrain : Nat := 9

/-! ### Addresses and epochs -/

/-- The device of a span's anchor (R354). -/
def State.anchorDevice (s : State) (k : Nat) : Nat := if 1 < (s.span k).devices then leAt (s.placement k) 34 1 else (s.span k).device

/-- The region of a device address (R15). -/
def addrRegion (a : Nat) : Nat := bits a 44 4
/-- The field of a scratchpad-window address (R15). -/
def addrField (a : Nat) : Nat := bits a 31 5

/-- Is the packet one of a span whose epoch is not the span's current one (R51)? -/
def State.stale (s : State) (p : Pkt) : Bool :=
  p.span.toNat < 8 && p.epoch.toNat != (s.span p.span.toNat).epoch

/-- A stale packet is dropped without NACK and counted (R34, R51). -/
def State.dropStale (s : State) (p : Pkt) : State := s.bump regStaleDrops p.span.toNat 1

/-- Is the span of a number in RESETTING (R54)? -/
def State.resetting (s : State) (k : Nat) : Bool := k < 8 && (s.span k).state == .resetting

/-! ### Requests in flight (R295) -/

/-- A unit sends a request and waits for its response: the TAG is the next in turn. -/
def State.request (s : State) (o : Outstanding) : State :=
  s.modMesh fun m => { m with requests := m.requests ++ [{ o with tag := m.nextTag }], nextTag := (m.nextTag + 1) % 65536 }

/-- The request that a response of a master with a TAG ends. -/
def State.outstanding (s : State) (master tag : Nat) : Option Outstanding :=
  s.mesh.requests.find? fun o => o.master == master && o.tag == tag

/-- A request has ended. -/
def State.endRequest (s : State) (master tag : Nat) : State :=
  s.modMesh fun m => { m with requests := m.requests.filter fun o => !(o.master == master && o.tag == tag) }

/-! ### Routers and links -/

/-- The field of router `r` (R7). -/
def routerField (r : Nat) : Nat := 6 * (r / 12 / 2) + r % 12 / 2
/-- The router next to `r` over link port `d` (R276). -/
def neighbour (r d : Nat) : Nat :=
  if d = 0 then r - 12 else if d = 1 then r + 1 else if d = 2 then r + 12 else r - 1
/-- The port at the other end of a link. -/
def opposite (d : Nat) : Nat := (d + 2) % 4
/-- The identifier of a link (R397): KIND 10, the field, index and port of the lower-index end. -/
def linkUnit (r d : Nat) : Nat :=
  let lo := min r (neighbour r d)
  let port := if lo = r then d else opposite d
  10 * 2 ^ 27 + routerField lo * 2 ^ 22 + port * 2 ^ 8 + lo
/-- The state of link port `d` of router `r`. -/
def State.linkState (s : State) (r d : Nat) : LinkState := (s.router r).links.getD d .absent
/-- Is the field of router `r` up? -/
def State.routerUp (s : State) (r : Nat) : Bool :=
  (s.field (routerField r)).state != .dark && (s.field (routerField r)).state != .retired
/-- Can a packet pass from router `r` over port `d`? -/
def State.passable (s : State) (r d : Nat) : Bool :=
  let x := s.linkState r d
  x != .absent && x != .retired && s.routerUp r && s.routerUp (neighbour r d)

/-! ### Detour tables (R303) -/

/-- No route. -/
def farAway : Nat := 1000
/-- The routers next to `r` that it can reach, with the ports. -/
def State.nextHops (s : State) (r : Nat) : List (Nat × Nat) :=
  ((List.range 4).filter (s.passable r)).map fun d => (d, neighbour r d)
/-- One round of relaxing distances: every router takes the least of its own and 1 + that of an allowed next hop. -/
def relax (hops : List (List (Nat × Nat))) (ok : Nat → Nat → Bool) (base dist : List Nat) : List Nat :=
  (List.range 120).map fun r =>
    ((hops.getD r []).filter fun h => ok r h.2).foldl (fun m h => min m (1 + dist.getD h.2 farAway)) (base.getD r farAway)
/-- 120 rounds of relaxing. -/
def distances (hops : List (List (Nat × Nat))) (ok : Nat → Nat → Bool) (base : List Nat) : Nat → List Nat → List Nat
  | 0, dist => dist
  | n + 1, dist => distances hops ok base n (relax hops ok base dist)
/-- Distance 0 at `r`, no distance elsewhere. -/
def originAt (r : Nat) : List Nat := (List.range 120).map fun i => if i = r then 0 else farAway
/-- Distances of all routers from the breadth-first root, the lowest-index surviving router. -/
def State.rootDistances (s : State) (hops : List (List (Nat × Nat))) : List Nat :=
  let root := ((List.range 120).find? s.routerUp).getD 0
  distances hops (fun _ _ => true) (originAt root) 120 (originAt root)
/-- The output that router `r` uses toward router `d`, and the hops of the route: the shortest that uses only moves toward the root
followed only by moves away from it, ties to the lower output code; 7 where there is none (R303). -/
def detourTo (hops : List (List (Nat × Nat))) (depth : List Nat) (d : Nat) : List (Nat × Nat) :=
  let far (r : Nat) : Nat := depth.getD r farAway
  let down := distances hops (fun r n => far r < far n) (originAt d) 120 (originAt d)
  let full := distances hops (fun r n => far n < far r) down 120 down
  (List.range 120).map fun r =>
    if r = d then (4, 0) else
      let best := full.getD r farAway
      let fits := (hops.getD r []).filter fun h =>
        (far r < far h.2 && 1 + down.getD h.2 farAway == best) || (far h.2 < far r && 1 + full.getD h.2 farAway == best)
      match fits with
      | [] => (7, 0)
      | h :: _ => if best < farAway then (h.1, best) else (7, 0)
/-- The detour tables of all routers and the longest route (R303). -/
def State.detours (s : State) : List (List Nat) × Nat :=
  let hops := (List.range 120).map s.nextHops
  let depth := s.rootDistances hops
  let cols := (List.range 120).map (detourTo hops depth)
  let tables := (List.range 120).map fun r => cols.map fun c => (c.getD r (7, 0)).1
  (tables, cols.foldl (fun m c => c.foldl (fun k e => max k e.2) m) 0)

/-- New routes (R304): the supervisor writes the tables of the unused generation and holds new injections. -/
def State.rerouted (s : State) : State :=
  let t := s.detours
  s.modMesh fun m =>
    { m with routers := m.routers.mapIdx (fun r x => { x with next := t.1.getD r [] }), holding := true }

/-- Links that may be passed across the middle column or the middle row, the fewer of the two. -/
def State.bisection (s : State) : Nat :=
  min ((List.range 10).filter fun y => s.passable (12 * y + 5) 1).length ((List.range 12).filter fun x => s.passable (48 + x) 2).length

/-- A link retires in both directions (R301): event 0x0404 with its identifier, and new tables; the capacity record may show
another bisection (R414). -/
def State.retireLink (s : State) (r d : Nat) : State :=
  let x := s.linkState r d
  if x = .absent ∨ x = .retired then s else
    let u := linkUnit r d
    let users := leBytes 4 u ++ leBytes 1 0xFF
    let s1 := (((s.setLinkState r d .retired).setLinkState (neighbour r d) (opposite d) .retired).supEvent 0x0404 users).rerouted
    if s1.bisection = s.bisection then s1 else s1.capacityChanged

end Sys2Proof.Machine
end

