-- ==== Sys2Proof/Machine/TowerMap.lean ====
section
/-! DEFINITION. Interleave sets: descriptors, the address mapping with mirror and reserve, the checks of a map, and the states of a set
(R253 to R261). -/

namespace Sys2Proof.Machine

/-- The field at which tower `t` sits (R243). -/
def towerField (t : Nat) : Nat := if t < 12 then t / 2 else 24 + (t - 12) / 2
/-- The field of device channel `c` (R243). -/
def channelField (c : Nat) : Nat := towerField (c / 8)
/-- The tower-local index of a channel in its field, 0 to 15 (R259). -/
def channelIndex (c : Nat) : Nat := (c / 8 % 2) * 8 + c % 8
/-- The towers at field `f` (R3, R243). -/
def fieldTowers (f : Nat) : List Nat := (List.range 24).filter fun t => towerField t == f
/-- The channels of tower `t`. -/
def towerChannels (t : Nat) : List Nat := (List.range 8).map (8 * t + ·)

/-- A set descriptor read from its 64 bytes (R253). -/
structure SetDesc where
  base    : Nat
  size    : Nat
  chBase  : Nat
  log2u   : Nat
  flags   : Nat
  nc      : Nat
  chans   : Nat
  resBase : Nat
deriving DecidableEq, Repr

/-- Read a descriptor (R253). -/
def SetDesc.ofBytes (l : List Byte) : SetDesc :=
  ⟨leAt l 0 8, leAt l 8 8, leAt l 16 4, leAt l 20 1, leAt l 21 1, leAt l 22 2, leAt l 24 24, leAt l 48 4⟩

/-- VALID. -/
def SetDesc.valid (d : SetDesc) : Bool := d.flags.testBit 0
/-- MIRROR. -/
def SetDesc.mirror (d : SetDesc) : Bool := d.flags.testBit 1
/-- RESERVE. -/
def SetDesc.reserve (d : SetDesc) : Bool := d.flags.testBit 2
/-- HOME. -/
def SetDesc.home (d : SetDesc) : Bool := d.flags.testBit 3
/-- The unit U in bytes. -/
def SetDesc.unit (d : SetDesc) : Nat := 2 ^ d.log2u
/-- The list of the set: its channels in ascending number (R254). -/
def SetDesc.list (d : SetDesc) : List Nat := bitList 192 d.chans
/-- Positions that addresses are spread over: Nc, or Nc/2 when mirrored (R254). -/
def SetDesc.spread (d : SetDesc) : Nat := if d.mirror then d.nc / 2 else d.nc
/-- Lc, the set's length per channel in units (R254). -/
def SetDesc.perChannel (d : SetDesc) : Nat := d.size / (d.spread * d.unit)
/-- The largest number of the set's channels in one field (R259). -/
def SetDesc.fmax (d : SetDesc) : Nat :=
  (List.range 30).foldl (fun m f => max m (d.list.filter fun c => channelField c == f).length) 0
/-- Units of the reserve area on each channel (R259). -/
def SetDesc.reserveUnits (d : SetDesc) : Nat :=
  if d.reserve then (16 * d.perChannel + (d.nc - d.fmax) - 1) / (d.nc - d.fmax) else 0

/-- The descriptor of set `k`. -/
def State.setDesc (s : State) (k : Nat) : SetDesc := SetDesc.ofBytes (s.setBytes k)
/-- The VALID set that an address lies in (R254, R256). -/
def State.setOf (s : State) (a : Nat) : Option Nat :=
  (List.range 16).find? fun k => let d := s.setDesc k; d.valid && d.base ≤ a && a < d.base + d.size

/-- Position and row of an address in its set (R254). -/
def SetDesc.posRow (d : SetDesc) (a : Nat) : Nat × Nat :=
  let u := (a - d.base) / d.unit
  (u % d.spread, u / d.spread)
/-- Channel and channel-local address of an address at a position of the list (R254). -/
def SetDesc.atPos (d : SetDesc) (pos row a : Nat) : Nat × Nat :=
  (d.list.getD pos 0, (d.chBase + row) * d.unit + (a - d.base) % d.unit)
/-- Where the unit row of a lost channel is remapped (R259). -/
def SetDesc.remap (d : SetDesc) (lost row a : Nat) : Nat × Nat :=
  let live := d.list.filter fun c => channelField c != channelField lost
  let q := row * 16 + channelIndex lost
  (live.getD (q % live.length) 0, (d.resBase + q / live.length) * d.unit + (a - d.base) % d.unit)

/-- What an access to a channel-local address meets by the state of its channel: the address, or a NACK code (R261, R264). -/
def State.channelServes (s : State) (x : Nat × Nat) : Except Nat (Nat × Nat) :=
  match (s.channel x.1).state with
  | .online => .ok x
  | .off | .training | .testing | .retraining => .error nackRetrain
  | .fused => .error nackAbsent
  | .retired => .error nackRetired

/-- One copy of an address: its channel and channel-local address, or the NACK code that an access to it receives (R259 to R261, R264): a unit
of a lost channel that has been refilled is served by the channel that it is remapped onto. -/
def State.copyAt (s : State) (k pos row a : Nat) : Except Nat (Nat × Nat) :=
  let d := s.setDesc k
  let x := d.atPos pos row a
  if (s.channel x.1).state = .retired ∧ d.reserve ∧ s.reg regLostField k = channelField x.1 ∧ (s.set k).filled.contains x.1 then
    s.channelServes (d.remap x.1 row a)
  else s.channelServes x

/-- The copies of an address in set `k`: that at the position, then that at the mirror position (R254, R258). -/
def State.copies (s : State) (k a : Nat) : List (Except Nat (Nat × Nat)) :=
  let d := s.setDesc k
  let pr := d.posRow a
  if d.mirror then [s.copyAt k pr.1 pr.2 a, s.copyAt k (pr.1 + d.nc / 2) pr.2 a] else [s.copyAt k pr.1 pr.2 a]

/-- The copies that answer. -/
def goodCopies (l : List (Except Nat (Nat × Nat))) : List (Nat × Nat) :=
  l.filterMap fun x => match x with
    | .ok y => some y
    | .error _ => none

/-- The NACK code of the first copy that does not answer, 0 for none. -/
def firstNack : List (Except Nat (Nat × Nat)) → Nat
  | [] => 0
  | .error e :: _ => e
  | .ok _ :: r => firstNack r

/-- Is any copy on a channel that is being retrained? -/
def anyRetrain (l : List (Except Nat (Nat × Nat))) : Bool :=
  l.any fun x => match x with
    | .error e => e == nackRetrain
    | .ok _ => false

/-- The memory key of a channel-local address. -/
def towerKey (x : Nat × Nat) : Nat := x.1 * 2 ^ 34 + x.2

/-! ### The checks of a map (R255) -/

/-- The bytes of the part's tower region (R15). -/
def State.towerBytes (s : State) : Nat := if bits (leAt (leBytes 952 (s.reg regFuseMap 0)) 8 4) 8 8 = 16 then 2 * 2 ^ 40 else 3 * 2 ^ 40
/-- Towers fused off (R487). -/
def State.towerFused (s : State) (t : Nat) : Bool := (leAt (leBytes 952 (s.reg regFuseMap 0)) 16 4).testBit t

/-- Two ranges [a, a + n) and [b, b + m) overlap. -/
def overlaps (a n b m : Nat) : Bool := n != 0 && m != 0 && a < b + m && b < a + n

/-- The channel-local byte ranges of a set: its units and its reserve area. -/
def SetDesc.ranges (d : SetDesc) : List (Nat × Nat) :=
  [(d.chBase * d.unit, d.perChannel * d.unit), (d.resBase * d.unit, d.reserveUnits * d.unit)]

/-- Do two sets meet on a shared channel? -/
def SetDesc.clash (d e : SetDesc) : Bool :=
  (d.chans &&& e.chans) != 0 && d.ranges.any fun x => e.ranges.any fun y => overlaps x.1 x.2 y.1 y.2

/-- Is set `k` named by a span's placement in LOADING, READY, RUNNING or PAUSED? -/
def State.setInUse (s : State) (k : Nat) : Bool :=
  (List.range 8).any fun j =>
    let st := (s.span j).state
    (st == .loading || st == .ready || st == .running || st == .paused) && (namedSets (s.placement j)).testBit k

/-- Is set `k` the home of a span? -/
def State.setIsHome (s : State) (k : Nat) : Bool :=
  (List.range 8).any fun j => (s.span j).state != .unused && (leAt (s.placement j) 8 2).testBit k

/-- The field ranges of R253, of a descriptor that is VALID: BASE and SIZE multiples as stated, UNIT_LOG2 9 to 16. -/
def setDescShape (l : List Byte) : Bool :=
  let d := SetDesc.ofBytes l
  !d.valid || 9 ≤ d.log2u && d.log2u ≤ 16 && d.spread != 0 && d.base % d.unit == 0 &&
  d.size % (d.spread * d.unit) == 0

/-- Which condition of R255 a descriptor of set `k` breaks among the given other descriptors (0 for none); an invalid descriptor breaks
none but 5 and 7. -/
def State.setRefusal (s : State) (k : Nat) (l : List Byte) (others : List SetDesc) : Nat :=
  let d := SetDesc.ofBytes l
  if s.setInUse k then 7
  else if s.setIsHome k && !(d.valid && d.home) then 5
  else if !d.valid then 0
  else if d.base + d.size > s.towerBytes || others.any (fun e => e.valid && overlaps d.base d.size e.base e.size) then 1
  else if d.nc != d.list.length || d.list.any (fun c => s.towerFused (c / 8)) then 2
  else if d.ranges.any (fun r => r.2 != 0 && r.1 + r.2 > 2 ^ 34) || others.any (fun e => e.valid && d.clash e)
    || (d.reserve && overlaps (d.chBase * d.unit) (d.perChannel * d.unit) (d.resBase * d.unit) (d.reserveUnits * d.unit)) then 3
  else if d.mirror && (d.nc % 2 == 1 || (List.range (d.nc / 2)).any fun i =>
      channelField (d.list.getD i 0) == channelField (d.list.getD (i + d.nc / 2) 0)) then 4
  else if d.home && !d.mirror then 6
  else if d.reserve && d.fmax == d.nc then 8
  else 0

/-! ### Pausing and epochs (R50, R52, R402) -/

/-- The spans whose placement names set `k`. -/
def State.setUsers (s : State) (k : Nat) : List Nat :=
  (List.range 8).filter fun j => (s.span j).state != .unused && (namedSets (s.placement j)).testBit k

/-- The supervisor pauses a span for a reason of its own: a RUNNING span at its next keystone, a READY span at once; a PAUSED span
keeps the reason. -/
def State.pauseFor (s : State) (k : Nat) (r : PauseReason) : State :=
  match (s.span k).state with
  | .running => s.markPause k r
  | .ready => (s.markPause k r).setSpanState k .paused
  | .paused => s.markPause k r
  | _ => s

/-- The epoch of a span must advance (R50): only a PAUSED or RESETTING span takes a new epoch (R52), so a RUNNING span is paused at
its next keystone.  Each occasion counts one; a LOADING, RESETTING or STOPPED span keeps the count until it may change its epoch
(notes/assumptions/11). -/
def State.needEpoch (s : State) (k : Nat) : State := (s.pauseFor k .epoch).modSpan k fun p => { p with epochDue := p.epochDue + 1 }

/-! ### States of a set (R260, R261) -/

/-- A set that is not mirrored loses channels (R261): its spans pause, and those whose KV lay in it keep the channels until recovery. -/
def State.setLoss (s : State) (k : Nat) (cs : List Nat) : State :=
  if (s.setDesc k).mirror then s
  else
    (s.setUsers k).foldl (fun t j =>
      let t1 := t.pauseFor j .retire
      if (leAt (t.placement j) 10 2).testBit k then t1.modSpan j fun p => { p with kvLost := p.kvLost ++ cs } else t1) s

/-- A set becomes or stays DEGRADED (R260) by channels of one field: event 0x0508, the lost field recorded (R259). -/
def State.setDegraded (s : State) (k c : Nat) (cs : List Nat) : State :=
  (((s.setSetState k .degraded).setReg regLostField k (channelField c)).supEvent 0x0508
    (leBytes 1 k ++ leBytes 1 (channelField c))).setLoss k cs

/-- A set becomes or stays FAILED (R260): event 0x0509. -/
def State.setFailed (s : State) (k c : Nat) (cs : List Nat) : State :=
  let s1 := (s.setSetState k .failed).supEvent 0x0509 (leBytes 1 k ++ leBytes 1 (channelField c) ++ leBytes 1 c)
  if (s.set k).state = .failed then s1 else s1.setLoss k cs

/-- Channel `c` of set `k` has retired (R260). -/
def State.setChannelRetired (s : State) (k c : Nat) : State :=
  match (s.set k).state with
  | .online => if (s.setDesc k).reserve then s.setDegraded k c [c] else s.setFailed k c [c]
  | .degraded => if s.reg regLostField k = channelField c then s.setDegraded k c [c] else s.setFailed k c [c]
  | .failed => s.setFailed k c [c]
  | _ => s

/-- An UNTESTED set is decided once none of its channels is OFF, TRAINING or TESTING (R260). -/
def State.setTested (s : State) (k : Nat) : State :=
  let d := s.setDesc k
  let st (c : Nat) : ChannelState := (s.channel c).state
  if (s.set k).state ≠ .untested then s
  else if d.list.any fun c => st c == .off || st c == .training || st c == .testing then s
  else
    match d.list.filter fun c => st c == .retired with
    | [] => s.setSetState k .online
    | c :: r =>
      if d.reserve && r.all fun e => channelField e == channelField c then s.setDegraded k c (c :: r) else s.setFailed k c (c :: r)

/-- A descriptor of set `k` is put in force (R260): UNUSED when not VALID, UNTESTED when a channel is not ONLINE, else ONLINE. -/
def State.setWritten (s : State) (k : Nat) (l : List Byte) : State :=
  let s1 := (s.setReg regSetDesc k (ofLe l)).setReg regLostField k 0xFF
  let d := SetDesc.ofBytes l
  let s2 := s1.modSet k fun x => { x with filled := [] }
  if !d.valid then s2.setSetState k .unused
  else if d.list.all fun c => (s.channel c).state == .online then s2.setSetState k .online
  else (s2.setSetState k .untested).setTested k

/-- Every map has been cleared (R257): set 0 is the default set again. -/
def State.mapCleared (s : State) : State :=
  if (List.range 16).any fun k => (s.setDesc k).valid then s else (s.setWritten 0 s.defaultSet).setReg regSetDesc 0 (ofLe defaultSetDesc)

/-- Is a set ONLINE or DEGRADED (R356)? -/
def State.setServes (s : State) (k : Nat) : Bool := (s.set k).state == .online || (s.set k).state == .degraded

end Sys2Proof.Machine
end

