-- ==== Sys2Proof/Machine/Peek.lean ====
section
/-! DEFINITION. Bytes of tower memory behind the address map, one granule at a time, without any effect on counters: what a read would
deliver and what a write would leave. -/

namespace Sys2Proof.Machine

/-- The parts of an address range that lie in one granule of 64 bytes each (R246). -/
def granuleParts : Nat → Nat → Nat → List (Nat × Nat)
  | 0, _, _ => []
  | k + 1, a, n => if n = 0 then [] else let m := min n (64 - a % 64); (a, m) :: granuleParts k (a + m) (n - m)

/-- The granule parts of `n` bytes from address `a`. -/
def partsOf (a n : Nat) : List (Nat × Nat) := granuleParts (n / 64 + 2) a n

/-- Is the granule that holds a channel-local address uncorrectable (R250)? -/
def State.badGranule (s : State) (x : Nat × Nat) : Bool := (s.channel x.1).bad.contains (x.2 / 64)

/-- The copy that a read of one granule part takes: the first that answers and is not uncorrectable (R258). -/
def State.readCopy (s : State) (a : Nat) : Option (Nat × Nat) :=
  match s.setOf a with
  | none => none
  | some k => (goodCopies (s.copies k a)).find? fun x => !s.badGranule x

/-- What a read of `n` bytes from tower address `a` delivers, if every granule answers. -/
def State.peek (s : State) (a n : Nat) : Option (List Byte) :=
  (partsOf a n).foldr (fun p acc =>
    match acc, s.readCopy p.1 with
    | some r, some x => some (s.read (towerKey x) p.2 ++ r)
    | _, _ => none) (some [])

/-- Is the granule at a device address read from another copy than that at its position, or from none? -/
def State.elsewhere (s : State) (a : Nat) : Bool :=
  match s.setOf a with
  | none => false
  | some k => match s.copies k a with
    | .ok x :: _ => s.badGranule x
    | .error _ :: rest => !(goodCopies rest).isEmpty
    | [] => false

/-- The supervisor, an anchor or an engine reads `n` bytes of tower memory: granules that a read finds uncorrectable or takes from the mirror
are kept until the command ends, when they are recorded (R250, R258). -/
def State.noteRead (s : State) (a n : Nat) : State :=
  { s with lateReads := s.lateReads ++ ((partsOf a n).map (·.1)).filter s.elsewhere }

/-- The copies that a write of one granule part reaches (R258, R264): none when no copy answers or one is being retrained. -/
def State.writeCopies (s : State) (a : Nat) : List (Nat × Nat) :=
  match s.setOf a with
  | none => []
  | some k => let cs := s.copies k a; if anyRetrain cs then [] else goodCopies cs

/-- Write bytes to the copies of one granule part. -/
def State.pokePart (s : State) (a : Nat) (l : List Byte) : State :=
  (s.writeCopies a).foldl (fun t x => t.write (towerKey x) l) s

/-- Write bytes to tower memory, part by part. -/
def State.poke (s : State) (a : Nat) (l : List Byte) : State :=
  (partsOf a l.length).foldl (fun t p => t.pokePart p.1 (slice (p.1 - a) p.2 l)) s

/-- Would a write of `n` bytes at `a` be accepted? -/
def State.canPoke (s : State) (a n : Nat) : Bool := (partsOf a n).all fun p => !(s.writeCopies p.1).isEmpty

end Sys2Proof.Machine
end

