-- ==== Sys2Proof/Machine/BankOps.lean ====
section
/-! DEFINITION. Scratchpad rows and the power states of banks (R135 to R160). -/

namespace Sys2Proof.Machine

/-- Event data of items that a rule names without giving their packing: the items in the order named (notes/assumptions/12). -/
def items1 (l : List Nat) : List Byte := (l.map (leBytes 1)).flatten

/-- The bank of a pier address (R135). -/
def addrBank (p : Nat) : Nat := p / 65536
/-- The row of a pier address (R135). -/
def addrRow (p : Nat) : Nat := p % 65536
/-- The memory key of a pier address at field `f`. -/
def rowKey (f p : Nat) : Nat := scratchKey f (addrBank p) (addrRow p)
/-- The pier address `n` rows after `p`. -/
def rowAfter (p n : Nat) : Nat := (p + n) % 2 ^ 22
/-- `n` consecutive pier addresses. -/
def rowsFrom (p n : Nat) : List Nat := (List.range n).map (rowAfter p)

/-- The 512 bytes of a row. -/
def State.row (s : State) (f p : Nat) : List Byte := s.read (rowKey f p) 512
/-- Write a whole row. -/
def State.setRow (s : State) (f p : Nat) (l : List Byte) : State := s.write (rowKey f p) (padTo 512 l)
/-- The bytes of consecutive rows. -/
def State.rows (s : State) (f : Nat) (ps : List Nat) : List Byte := (ps.map (s.row f)).flatten
/-- Write consecutive rows. -/
def State.setRows (s : State) (f p : Nat) (l : List Byte) : State :=
  (List.range ((l.length + 511) / 512)).foldl (fun t i => t.setRow f (rowAfter p i) (slice (512 * i) 512 l)) s

/-- The run-ahead cursor goes past the FETCH in hand. -/
def RunAhead.pass (r : RunAhead) : RunAhead := { r with pc := r.pc + 1, nth := r.nth + 1, stop := .going, rest := [] }

/-- The cursor after FETCHes have been given back: past the one in hand if it is among them. -/
def RunAhead.without (r : RunAhead) (gone : List AheadFetch) : RunAhead :=
  if r.stop = .slots ∧ gone.any (fun a => a.step == r.step && a.nth == r.nth) then r.pass else r

/-- Drop run-ahead reads (R40, R193): those of the FETCHes that satisfy a condition, counted. -/
def State.dropAhead (s : State) (f : Nat) (c : AheadFetch → Bool) : State :=
  let gone := ((s.field f).seq.ahead.filter c)
  let tags := (gone.map (·.tags)).flatten
  let s1 := s.modSeq f fun q => { q with ahead := q.ahead.filter (fun a => !c a), runAhead := q.runAhead.map (·.without gone) }
  let s2 := s1.modMesh fun m => { m with requests := m.requests.filter fun o => !(o.master == pierMaster f && tags.contains o.tag) }
  s2.bump regRunaheadDrops f tags.length

/-- A master has written a row: no PARTIAL entries of an earlier pass stand in it (R125), and a run-ahead FETCH.LIST that read it for a step
not open yet is dropped (R193). -/
def State.rowWritten (s0 : State) (f p : Nat) : State :=
  let s := if (s0.field f).rowScales.any (·.1 == p) then s0.modField f fun x => { x with rowScales := x.rowScales.filter (·.1 != p) } else s0
  let cur := ((s.openStep f).map (·.2.1)).getD 0
  if (s.field f).seq.ahead.any fun a => a.row == some p && a.step != cur then
    s.dropAhead f fun a => a.row == some p && a.step != cur
  else s

/-- The requested state code of a bank (R157). -/
def State.bankRequest (s : State) (f b : Nat) : Nat := leAt (leBytes 40 (s.reg regBankPower f)) b 1

/-- The code of a bank state (R156). -/
def BankState.code : BankState → Nat
  | .active => 0 | .retain => 1 | .off => 2 | .waking => 3 | .draining => 4

/-- The state that a request code names (R157). -/
def bankStateOf (c : Nat) : BankState := if c = 0 then .active else if c = 1 then .retain else .off

/-- A bank enters a state (R160): event 0x0110; a bank that goes OFF loses its contents (R156, R159). -/
def State.bankTo (s : State) (f b : Nat) (x : BankState) : State :=
  if ((s.field f).bank b).state = x then s else
    let s1 := (s.modBank f b fun y => { y with state := x }).event (pierMaster f) 0x0110 (items1 [b, x.code])
    if x = .off then
      (s1.wipe (scratchKey f b 0) (scratchKey f b 65536)).modBank f b fun y => { y with locked := [], queue := [], scrubbing := false }
    else s1

/-- A request for a bank's state applies (R157, R160): while the bank is WAKING or DRAINING it waits.  A standing request for RETAIN does not
cut a retain scrub short (R147). -/
def State.bankApply (s : State) (f b : Nat) (want : BankState) : State :=
  let s0 := s.modBank f b fun y => { y with requested := want }
  match ((s.field f).bank b).state, want with
  | .active, .retain | .active, .off =>
    if want = .retain ∧ ((s.field f).bank b).scrubbing then s0
    else (s0.modBank f b fun y => { y with target := want, scrubbing := false }).bankTo f b .draining
  | .retain, .active => s0.bankTo f b .waking
  | .retain, .off => s0.bankTo f b .off
  | .off, .active => s0.bankTo f b .waking
  | _, _ => s0

/-- A bank that has reached ACTIVE, RETAIN or OFF takes the request that waited (R157). -/
def State.bankSettle (s : State) (f b : Nat) : State := s.bankApply f b ((s.field f).bank b).requested

/-- The requests of a field's 40 banks apply (R49, R157). -/
def State.banksApply (s : State) (f : Nat) : State :=
  (List.range 40).foldl (fun t b => t.bankApply f b (bankStateOf (t.bankRequest f b))) s

/-- The requests of a field's 40 banks that take effect now (R157): for a pier of a span those for ACTIVE, the others at the next step that
opens. -/
def State.banksPending (s : State) (f : Nat) (inSpan : Bool) : State :=
  if inSpan then (List.range 40).foldl (fun t b => if t.bankRequest f b = 0 then t.bankApply f b .active else t) s else s.banksApply f

/-- A pier is switched off for heat (R160, R477): its banks enter RETAIN, those with queued accesses once they have finished them
(BANK_DRAINED). -/
def State.banksHeat (s : State) (f : Nat) : State :=
  (List.range 40).foldl (fun t b =>
    let y := (t.field f).bank b
    match y.state with
    | .active | .waking | .draining =>
      (t.bankTo f b (if y.queue.isEmpty then .retain else .draining)).modBank f b fun y =>
        { y with heat := true, target := .retain, scrubbing := false }
    | _ => t) s

/-- The requested states of banks forced to RETAIN return when the pier wakes (R160). -/
def State.banksWake (s : State) (f : Nat) : State :=
  (List.range 40).foldl (fun t b =>
    if ((t.field f).bank b).heat then
      (t.modBank f b fun y => { y with heat := false }).bankApply f b ((t.field f).bank b).requested
    else t) s

/-- A field goes DARK or a pier is retired: every bank OFF (R160). -/
def State.banksOff (s : State) (f : Nat) : State := (List.range 40).foldl (fun t b => t.bankTo f b .off) s

/-- What an access of the pier's own units to a pier address meets: status bits of R32 (0 for none), by R145, R158 and R175; at a WAKING
bank the access waits first. -/
def State.rowStatus (s : State) (f p : Nat) : Nat :=
  if 40 ≤ addrBank p then 0x40
  else
    let b := (s.field f).bank (addrBank p)
    match b.state with
    | .retain | .off | .draining => 0x40
    | .active | .waking => if b.locked.contains (addrRow p) then 0x10 else 0

/-- Does an access to one of some rows wait for a WAKING bank (R158)? -/
def State.rowsAsleep (s : State) (f : Nat) (ps : List Nat) : Bool :=
  (ps.map addrBank).eraseDups.any fun b => b < 40 && ((s.field f).bank b).state == .waking

/-- A command whose access waits for a WAKING bank (R158): it is performed when a bank has woken. -/
def State.sleep (s : State) (c : Instr) : State := { s with sleepers := s.sleepers ++ [c] }

/-- The OR of what accesses to several rows meet. -/
def State.rowsStatus (s : State) (f : Nat) (ps : List Nat) : Nat := ps.foldl (fun m p => m ||| s.rowStatus f p) 0

end Sys2Proof.Machine
end

