-- ==== Sys2Proof/Machine/SoftFloat.lean ====
section
/-! DEFINITION. Binary floating point on exact numbers: rounding of a rational to a format, and IEEE 754 operations with
round-to-nearest-even (R115, R117, R126, R204, R241). -/

namespace Sys2Proof.Machine

/-- A binary format: stored significand bits, exponent bits and bias. -/
structure Fmt where
  mant : Nat
  exps : Nat
  bias : Nat
deriving DecidableEq, Repr

/-- binary32 (R117). -/
def f32 : Fmt := ⟨23, 8, 127⟩
/-- binary64 (R241). -/
def f64 : Fmt := ⟨52, 11, 1023⟩
/-- BF16 (R115). -/
def bf16 : Fmt := ⟨7, 8, 127⟩
/-- FP8 E4M3 (R115). -/
def e4m3 : Fmt := ⟨3, 4, 7⟩
/-- FP8 E5M2 (R115). -/
def e5m2 : Fmt := ⟨2, 5, 15⟩

/-- The exponent of a format's least subnormal. -/
def Fmt.emin (t : Fmt) : Int := 1 - t.bias - t.mant

/-- A floating-point value: significand times a power of two with its sign, an infinity, or a NaN. -/
inductive FV where
  | nan
  | inf (neg : Bool)
  | fin (neg : Bool) (m : Nat) (e : Int)
deriving DecidableEq, Repr

/-- A positive power of two times `n`. -/
def shl (n : Nat) (e : Int) : Nat := n * 2 ^ e.toNat

/-- The nearest integer to num/den, ties to even. -/
def roundDiv (num den : Nat) : Nat :=
  let q := num / den
  let r := num % den
  if 2 * r > den ∨ (2 * r = den ∧ q % 2 = 1) then q + 1 else q

/-- The exponent k with 2^k ≤ num/den < 2^(k+1), for num, den > 0. -/
def floorLog (num den : Nat) : Int :=
  let k : Int := (num.log2 : Int) - (den.log2 : Int)
  if shl den k ≤ shl num (-k) then k else k - 1

/-- num/den × 2^e rounded to nearest even, the significand kept within a format's bits and the exponent at or above its least:
significand and exponent. -/
def roundTo (t : Fmt) (num den : Nat) (e : Int) : Nat × Int :=
  if num = 0 then (0, t.emin) else
    let x := max (floorLog num den + e - t.mant) t.emin
    let k := e - x
    let q := roundDiv (shl num k) (shl den (-k))
    if q = 2 ^ (t.mant + 1) then (2 ^ t.mant, x + 1) else (q, x)

/-- The code of a rounded magnitude, as if exponents had no upper end. -/
def Fmt.code (t : Fmt) (q : Nat × Int) : Nat := q.1 + (q.2 - t.emin).toNat * 2 ^ t.mant

/-- The sign bit of a format. -/
def Fmt.sign (t : Fmt) (neg : Bool) : Nat := boolNat neg * 2 ^ (t.mant + t.exps)

/-- The code of infinity. -/
def Fmt.infCode (t : Fmt) : Nat := (2 ^ t.exps - 1) * 2 ^ t.mant

/-- An IEEE format's value as it rounds (R204): a magnitude past the largest finite one becomes an infinity. -/
def Fmt.round (t : Fmt) (neg : Bool) (num den : Nat) (e : Int) : FV :=
  let q := roundTo t num den e
  if t.infCode ≤ t.code q then .inf neg else .fin neg q.1 q.2

/-- The value of a code of an IEEE format. -/
def Fmt.value (t : Fmt) (c : Nat) : FV :=
  let neg := c.testBit (t.mant + t.exps)
  let x := bits c t.mant t.exps
  let f := bits c 0 t.mant
  if x = 2 ^ t.exps - 1 then (if f = 0 then .inf neg else .nan)
  else if x = 0 then .fin neg f t.emin
  else .fin neg (2 ^ t.mant + f) (t.emin + (x : Int) - 1)

/-- The code of a value that lies in the format; NaN gets the tail given. -/
def Fmt.encode (t : Fmt) (tail : Nat) : FV → Nat
  | .nan => t.infCode + 2 ^ (t.mant - 1) + tail % 2 ^ (t.mant - 1) + t.sign ((tail / 2 ^ (t.mant - 1)) % 2 == 1)
  | .inf n => t.sign n + t.infCode
  | .fin n m e => let q := roundTo t m 1 e; t.sign n + t.code q

/-- The exact signed integer of a finite value at exponent `e`, which is at most its own. -/
def signedAt (n : Bool) (m : Nat) (x e : Int) : Int := (if n then -1 else 1) * (shl m (x - e) : Int)

/-- Sum, rounded once. -/
def Fmt.add (t : Fmt) : FV → FV → FV
  | .nan, _ => .nan
  | _, .nan => .nan
  | .inf a, .inf b => if a = b then .inf a else .nan
  | .inf a, _ => .inf a
  | _, .inf b => .inf b
  | .fin a m x, .fin b n y =>
    let e := min x y
    let v := signedAt a m x e + signedAt b n y e
    if v = 0 then .fin (a && b) 0 t.emin else t.round (v < 0) v.natAbs 1 e

/-- The negative of a value. -/
def FV.neg : FV → FV
  | .nan => .nan
  | .inf a => .inf (!a)
  | .fin a m e => .fin (!a) m e

/-- Difference, rounded once. -/
def Fmt.sub (t : Fmt) (a b : FV) : FV := t.add a b.neg

/-- Product, rounded once. -/
def Fmt.mul (t : Fmt) : FV → FV → FV
  | .nan, _ => .nan
  | _, .nan => .nan
  | .inf a, .inf b => .inf (a != b)
  | .inf a, .fin b m _ => if m = 0 then .nan else .inf (a != b)
  | .fin a m _, .inf b => if m = 0 then .nan else .inf (a != b)
  | .fin a m x, .fin b n y => t.round (a != b) (m * n) 1 (x + y)

/-- Quotient, rounded once. -/
def Fmt.div (t : Fmt) : FV → FV → FV
  | .nan, _ => .nan
  | _, .nan => .nan
  | .inf _, .inf _ => .nan
  | .inf a, .fin b _ _ => .inf (a != b)
  | .fin a _ _, .inf b => .fin (a != b) 0 t.emin
  | .fin a m x, .fin b n y =>
    if n = 0 then (if m = 0 then .nan else .inf (a != b)) else t.round (a != b) m n (x - y)

/-- Is a < b (false with a NaN)? -/
def FV.lt : FV → FV → Bool
  | .nan, _ => false
  | _, .nan => false
  | .inf a, .inf b => a && !b
  | .inf a, .fin _ _ _ => a
  | .fin _ _ _, .inf b => !b
  | .fin a m x, .fin b n y => let e := min x y; signedAt a m x e < signedAt b n y e

/-- Is the value a NaN or an infinity? -/
def FV.nonfinite : FV → Bool
  | .fin _ _ _ => false
  | _ => true

/-- Is the value a zero of either sign? -/
def FV.isZero : FV → Bool
  | .fin _ m _ => m == 0
  | _ => false

/-- The greater of two values; a NaN yields the other. -/
def FV.max (a b : FV) : FV :=
  match a with
  | .nan => b
  | _ => if a.lt b then b else a

/-- A natural number in a format. -/
def Fmt.nat (t : Fmt) (n : Nat) : FV := t.round false n 1 0

/-- An integer in a format. -/
def Fmt.int (t : Fmt) (i : Int) : FV := t.round (i < 0) i.natAbs 1 0

/-- num/den × 2^e with a sign, rounded into a format whose largest code is `top`, which it saturates to (R127): code, and did it
saturate?  A value that rounds to zero is +0. -/
def Fmt.saturate (t : Fmt) (top : Nat) (neg : Bool) (num den : Nat) (e : Int) : Nat × Bool :=
  let c := t.code (roundTo t num den e)
  if c = 0 then (0, false) else if top < c then (t.sign neg + top, true) else (t.sign neg + c, false)

/-- num/den × 2^e rounded to the nearest integer, ties to even. -/
def roundInt (neg : Bool) (num den : Nat) (e : Int) : Int :=
  let q := roundDiv (shl num e) (shl den (-e))
  if neg then -(q : Int) else q

/-- The floor of a finite value. -/
def floorOf (neg : Bool) (m : Nat) (e : Int) : Int := (if neg then -1 else 1) * (shl m e : Int) / (2 ^ (-e).toNat : Nat)

end Sys2Proof.Machine
end

