-- ==== Sys2Proof/Machine/Formats.lean ====
section
/-! DEFINITION. The element formats, the anchored accumulator, the PARTIAL form and the rounding at drain (R108 to R129). -/

namespace Sys2Proof.Machine

/-- One operand element as the array reads it (R108, R118): m × 2^E, or non-finite. -/
inductive Elem where
  | num (m : Int) (e : Int)
  | nonfin
deriving DecidableEq, Repr

/-- An exact value m × 2^e with a sign: the array's reading of a floating code (R108); codes that R115 calls infinity or NaN are
non-finite. -/
def elemFloat (t : Fmt) (c : Nat) : Elem :=
  match t.value c with
  | .fin n m e => .num (if n then -(m : Int) else m) e
  | _ => .nonfin

/-- E4M3 has no infinity: its top exponent field holds finite numbers, but for mantissa 7 (R115). -/
def elemE4M3 (c : Nat) : Elem :=
  let x := bits c 3 4
  let f := bits c 0 3
  let s : Int := if c.testBit 7 then -1 else 1
  if x = 15 ∧ f = 7 then .nonfin
  else if x = 0 then .num (s * f) (-9)
  else .num (s * (8 + f : Nat)) ((x : Int) - 10)

/-- An ML element with its block's scale code (R108, R113). -/
def elemMl (w e s : Nat) : Elem := if s = 0xFF then .num 0 0 else .num (signed w e) ((s : Int) - 127)

/-- Elements of one row of each format code of R177 (R110, R111, R114, R115). -/
def perRow (fmt : Nat) : Nat := if fmt = 0 then 1024 else if fmt = 1 then 640 else if fmt = 5 then 256 else if fmt = 6 then 32 else if fmt = 7 then 128 else 512

/-- Is a format a block format with scale rows? -/
def isMl (fmt : Nat) : Bool := fmt < 2

/-- The scratchpad rows of `n` elements, scale rows included (R112). -/
def rowsOf (fmt n : Nat) : Nat :=
  let r := (n + perRow fmt - 1) / perRow fmt
  if isMl fmt then r + (r + 15) / 16 else r

/-- Element `i` of a stream of rows in format `fmt`; in block formats row 17g is the scale row of the 16 rows after it (R110 to R115). -/
def elemAt (fmt : Nat) (l : List Byte) (i : Nat) : Elem :=
  let r := i / perRow fmt
  let k := i % perRow fmt
  let base := 512 * (r + r / 16 + 1)
  let scale := leAt l (512 * (17 * (r / 16)) + (if fmt = 0 then 32 else 20) * (r % 16) + k / 32) 1
  match fmt with
  | 0 => elemMl 4 (bits (leAt l (base + k / 2) 1) (4 * (k % 2)) 4) scale
  | 1 => elemMl 6 (bits (leAt l (base + 4 * (k / 5)) 4) (6 * (k % 5)) 6) scale
  | 2 => .num (signed 8 (leAt l i 1)) 0
  | 3 => elemE4M3 (leAt l i 1)
  | 4 => elemFloat e5m2 (leAt l i 1)
  | _ => elemFloat bf16 (leAt l (2 * i) 2)

/-- A per-tensor scale of INT8 (R118): zero, negative or non-finite makes the operand non-finite. -/
def scaleBad (s : Nat) : Bool :=
  match bf16.value s with
  | .fin n m _ => n || m == 0
  | _ => true

/-! ### The anchored accumulator -/

/-- A product (R109). -/
def product (a b : Elem) : Elem :=
  match a, b with
  | .num m x, .num n y => .num (m * n) (x + y)
  | _, _ => .nonfin

/-- The nonzero products among a list. -/
def nonzero (l : List Elem) : List (Int × Int) :=
  l.filterMap fun p => match p with
    | .num m e => if m = 0 then none else some (m, e)
    | .nonfin => none

/-- What the products of one pass leave in an entry that starts from zero, and how many are dropped (R118, R120). -/
def accumulate (l : List Elem) : AccEntry × Nat :=
  let nz := nonzero l
  let bad := l.contains .nonfin
  match nz with
  | [] => ({ AccEntry.empty with nonfin := bad }, 0)
  | p :: r =>
    let anchor := r.foldl (fun a x => max a x.2) p.2
    let lsb := anchor - 64
    let kept := nz.filter fun x => lsb ≤ x.2
    let drops := nz.length - kept.length
    let v : Int := kept.foldl (fun (s : Int) x => s + x.1 * ((2 ^ (x.2 - lsb).toNat : Nat) : Int)) 0
    ({ value := v, lsbExp := if v = 0 then 0 else lsb, zero := v = 0, lossy := drops != 0, nonfin := bad }, drops)

/-- Two accumulated values combine (R121): the sum, and was the combination lossy? -/
def combine (a b : AccEntry) : AccEntry × Bool :=
  let bad := a.nonfin || b.nonfin
  let mark := a.lossy || b.lossy
  if a.zero then ({ b with nonfin := bad, lossy := mark }, false)
  else if b.zero then ({ a with nonfin := bad, lossy := mark }, false)
  else
    let lo := if a.lsbExp ≤ b.lsbExp then a else b
    let hi := if a.lsbExp ≤ b.lsbExp then b else a
    let d : Nat := 2 ^ (hi.lsbExp - lo.lsbExp).toNat
    let lost := lo.value % (d : Int) != 0
    let v := hi.value + lo.value / (d : Int)
    ({ value := v, lsbExp := if v = 0 then 0 else hi.lsbExp, zero := v = 0, lossy := mark || lost, nonfin := bad }, lost)

/-- Combine a list of entries in order, with the number of lossy combinations. -/
def combineAll (l : List AccEntry) : AccEntry × Nat :=
  l.foldl (fun s e => let c := combine s.1 e; (c.1, s.2 + boolNat c.2)) (AccEntry.empty, 0)

/-! ### The PARTIAL form (R124) -/

/-- The 16 bytes of an entry; the VALUE of a non-finite entry is what the caller gives. -/
def partialBytes (a : AccEntry) : List Byte :=
  leBytes 12 (toTwos 96 a.value) ++ leBytes 2 (toTwos 16 (if a.zero then 0 else a.lsbExp)) ++
  leBytes 1 (boolNat a.nonfin + 2 * boolNat a.lossy + 4 * boolNat a.zero) ++ zeros 1

/-- The entry that 16 bytes hold. -/
def ofPartial (l : List Byte) : AccEntry :=
  let f := leAt l 14 1
  { value := signed 96 (leAt l 0 12), lsbExp := signed 16 (leAt l 12 2), zero := f.testBit 2, lossy := f.testBit 1, nonfin := f.testBit 0 }

/-! ### Rounding at drain (R126 to R129) -/

/-- An exact value to be drained: sign, num/den × 2^e; or non-finite. -/
inductive Exact where
  | val (neg : Bool) (num den : Nat) (e : Int)
  | nonfin
deriving DecidableEq, Repr

/-- The exact value of an entry times the per-tensor scales of its INT8 operands (R126). -/
def exactOf (a : AccEntry) (scales : List Nat) : Exact :=
  if a.nonfin then .nonfin else
    let m := scales.foldl (fun m s => match bf16.value s with
      | .fin _ k _ => m * k
      | _ => m) a.value.natAbs
    let e := scales.foldl (fun e s => match bf16.value s with
      | .fin _ _ x => e + x
      | _ => e) a.lsbExp
    .val (a.value < 0) m 1 e

/-- A finite floating value as an exact one. -/
def FV.exact : FV → Exact
  | .fin n m e => .val n m 1 e
  | _ => .nonfin

/-- The integer nearest to v / σ, saturated to INT8 (R128): code, and did it saturate? -/
def toInt8 (sigma : Nat) : Exact → Nat × Bool
  | .nonfin => (0, false)
  | .val n num den e =>
    match bf16.value sigma with
    | .fin _ m x =>
      let i := roundInt n num (den * m) (e - x)
      (toTwos 8 (satInt 8 i), satInt 8 i != i)
    | _ => (0, false)

/-- A drain into an 8-bit or BF16 format: its code, and did it saturate (R119, R127, R128)? -/
def drainCode (fmt sigma : Nat) (v : Exact) : Nat × Bool :=
  match fmt with
  | 2 => toInt8 sigma v
  | 3 => match v with
    | .nonfin => (0x7F, false)
    | .val n num den e => e4m3.saturate 0x7E n num den e
  | 4 => match v with
    | .nonfin => (0x7F, false)
    | .val n num den e => e5m2.saturate 0x7B n num den e
  | _ => match v with
    | .nonfin => (0x7FC0, false)
    | .val n num den e => bf16.saturate 0x7F7F n num den e

/-- An exact value times 2^−e rounded to the nearest integer; a non-finite one counts as 0 (R119, R129). -/
def scaledInt (e : Int) : Exact → Int
  | .nonfin => 0
  | .val n num den x => roundInt n num den (x - e)

/-- A block of 32 values drained into ML4 or ML6 (R129): scale code, element codes, and elements saturated. -/
def drainBlock (w : Nat) (l : List Exact) : Nat × List Nat × Nat :=
  let fits (e : Int) : Bool := l.all fun v => let i := scaledInt e v; satInt w i == i
  match (List.range 255).find? (fun (k : Nat) => fits ((k : Int) - 127)) with
  | some k =>
    let els := l.map fun v => scaledInt ((k : Int) - 127) v
    if els.all (· == 0) then (0xFF, els.map fun _ => 0, 0) else (k, els.map (toTwos w), 0)
  | none =>
    let els := l.map fun v => scaledInt 127 v
    (0xFE, els.map fun i => toTwos w (satInt w i), (els.filter fun i => satInt w i != i).length)

/-- A list cut into pieces of `n`. -/
def pieces {α : Type} : Nat → Nat → List α → List (List α)
  | 0, _, _ => []
  | fuel + 1, n, l => if l.isEmpty then [] else l.take n :: pieces fuel n (l.drop n)

/-- Pieces of a byte or element list. -/
def chunks {α : Type} (n : Nat) (l : List α) : List (List α) := pieces (l.length + 1) n l

/-- The bytes of an element row from its codes (R110, R111). -/
def mlRow (fmt : Nat) (codes : List Nat) : List Byte :=
  padTo 512 (if fmt = 0 then ((chunks 2 codes).map fun p => leBytes 1 (p.getD 0 0 + 16 * p.getD 1 0)).flatten
    else ((chunks 5 codes).map fun p => leBytes 4 (p.foldr (fun c s => c + 64 * s) 0)).flatten)

/-- A drain into ML4 or ML6 in rows (R110 to R112, R129): the bytes, and elements saturated.  DESIGN CHOICE: a last block of fewer than 32 outputs
is filled with exact zeros, and the rest of its rows with 0 bytes (notes/assumptions/69). -/
def drainMl (fmt : Nat) (l : List Exact) : List Byte × Nat :=
  let blocks := (chunks 32 l).map fun b => drainBlock (if fmt = 0 then 4 else 6) (b ++ List.replicate (32 - b.length) (.val false 0 1 0))
  let rows := chunks (if fmt = 0 then 32 else 20) blocks
  let groups := chunks 16 rows
  ((groups.map fun g =>
      padTo 512 ((g.map fun r => r.map fun b => BitVec.ofNat 8 b.1).flatten) ++
      (g.map fun r => mlRow fmt ((r.map fun b => b.2.1).flatten)).flatten).flatten,
    (blocks.map fun b => b.2.2).sum)

/-- What a drain writes, and what it counts: bytes, saturated values, non-finite values (R119, R126 to R129).  In PARTIAL form the
VALUE and LSB_EXP of a non-finite entry are open: `tail i` gives them. -/
def drain (fmt sigma : Nat) (scales : List Nat) (tail : Nat → BitVec 112) (l : List AccEntry) : List Byte × Nat × Nat :=
  let bad := (l.filter (·.nonfin)).length
  if fmt = 6 then
    ((l.zipIdx.map fun x =>
        if x.1.nonfin then
          let t := (tail x.2).toNat
          partialBytes { x.1 with value := signed 96 (t % 2 ^ 96), lsbExp := signed 16 (t / 2 ^ 96), zero := t % 2 ^ 96 == 0 }
        else partialBytes x.1).flatten, 0, bad)
  else if isMl fmt then
    let d := drainMl fmt (l.map (exactOf · scales))
    (d.1, d.2, bad)
  else
    let cs := l.map fun a => drainCode fmt sigma (exactOf a scales)
    ((cs.map fun c => leBytes (if fmt = 5 then 2 else 1) c.1).flatten, (cs.filter (·.2)).length, bad)

end Sys2Proof.Machine
end

