-- ==== Sys2Proof/Machine/ArrayOps.lean ====
section
/-! DEFINITION. The layout of a pass: descriptor, operands, sub-arrays, tiles and groups, the entries that its products reach, and the sums
that the checksum rows and columns compare (R62 to R99, R120 to R131, R176, R177). -/

namespace Sys2Proof.Machine

/-! ### Descriptors (R177) -/

/-- A pass descriptor (R177). -/
structure PassDesc where
  mode      : Nat
  flow      : Nat
  group     : Nat
  batch     : Nat
  wfmt      : Nat
  afmt      : Nat
  ofmt      : Nat
  flags     : Nat
  beats     : Nat
  inner     : Nat
  accFirst  : Nat
  aScale    : Nat
  wScale    : Nat
  outScale  : Nat
  bankFirst : Nat
deriving DecidableEq, Repr

/-- Read a pass descriptor (R177). -/
def PassDesc.ofBytes (l : List Byte) : PassDesc :=
  ⟨leAt l 0 1, leAt l 1 1, leAt l 2 1, leAt l 3 1, leAt l 4 1, leAt l 5 1, leAt l 6 1, leAt l 7 1, leAt l 8 2, leAt l 10 2, leAt l 12 4,
    leAt l 16 2, leAt l 18 2, leAt l 20 2, leAt l 22 1⟩

/-- DIAGONAL mode (R89). -/
def PassDesc.diagonal (d : PassDesc) : Bool := d.mode == 3
/-- OUT_VEC. -/
def PassDesc.outVec (d : PassDesc) : Bool := d.flags.testBit 0
/-- Does a cell hold two weights (R63, R76)? -/
def PassDesc.doubled (d : PassDesc) : Bool := d.wfmt == 0 && d.afmt < 5
/-- The per-tensor scales of a pass's INT8 operands (R126). -/
def PassDesc.scales (d : PassDesc) : List Nat :=
  (if d.afmt = 2 then [d.aScale] else []) ++ (if d.wfmt = 2 then [d.wScale] else [])

/-! ### Sub-arrays (R67, R71) -/

/-- How many sub-arrays the array is divided into. -/
def PassDesc.subs (d : PassDesc) : Nat := if d.mode = 1 then 4 else if d.mode = 2 then 16 else 1
/-- Rows and columns of a sub-array. -/
def PassDesc.side (d : PassDesc) : Nat := if d.mode = 1 then 128 else if d.mode = 2 then 64 else 256
/-- Entries of a sub-array's part of the accumulation buffer; DIAGONAL has the whole buffer. -/
def PassDesc.part (d : PassDesc) : Nat := 131072 / d.subs
/-- The first cell, row and column, of sub-array `j`, counted from the top left (notes/assumptions/6). -/
def PassDesc.origin (d : PassDesc) (j : Nat) : Nat × Nat :=
  if d.mode = 1 then (128 * (j / 2), 128 * (j % 2)) else if d.mode = 2 then (64 * (j / 4), 64 * (j % 4)) else (0, 0)
/-- The 64 × 64 block of a cell (R97). -/
def blockAt (row col : Nat) : Nat := 4 * (row / 64) + col / 64

/-! ### STATIONARY (R76) -/

/-- Inner elements of a sub-array's weight tile. -/
def PassDesc.depth (d : PassDesc) : Nat := d.side * (if d.doubled then 2 else 1)
/-- Inner elements of the activation vectors of one beat over all sub-arrays. -/
def PassDesc.vectorLen (d : PassDesc) : Nat := d.subs * d.depth

/-! ### STREAM (R79 to R83) -/

/-- Scratchpad rows that a sub-array takes in a beat (R79). -/
def PassDesc.rowsPer (d : PassDesc) : Nat := 32 / d.subs
/-- The width C of a weight tile (R80). -/
def PassDesc.width (d : PassDesc) : Nat := d.rowsPer * perRow d.wfmt / d.side
/-- Copies of a tile that fit beside one another in a sub-array's columns (R81). -/
def PassDesc.copies (d : PassDesc) : Nat := d.side / d.width
/-- Sub-arrays of a group (R83). -/
def PassDesc.members (d : PassDesc) : Nat := 2 ^ d.group
/-- Groups. -/
def PassDesc.groups (d : PassDesc) : Nat := d.subs / d.members
/-- Beats that bring elements: in block formats the first of every 17 brings scale rows (R82). -/
def PassDesc.elemBeats (d : PassDesc) : Nat := if isMl d.wfmt then d.beats - (d.beats + 16) / 17 else d.beats
/-- Beats in which a group goes through the inner dimension for its output columns. -/
def PassDesc.turns (d : PassDesc) : Nat := max 1 ((d.inner + d.members * d.side - 1) / (d.members * d.side))
/-- Sets of output columns that a group completes. -/
def PassDesc.sets (d : PassDesc) : Nat := (d.elemBeats + d.turns - 1) / d.turns

/-! ### Operand rows (R82, R89, R176) -/

/-- The rows of the weight operand, stream by stream: one stream, or in STREAM one for each of 32 banks. -/
def PassDesc.weightRows (d : PassDesc) (p : Nat) : List (List Nat) :=
  if d.diagonal then [rowsFrom p (rowsOf d.wfmt (256 * d.beats))]
  else if d.flow = 0 then [rowsFrom p (rowsOf d.wfmt (d.vectorLen * d.side))]
  else (List.range 32).map fun j => (List.range d.beats).map fun c => (d.bankFirst + j) * 65536 + (addrRow p + c) % 65536

/-- The rows of the activation operand, stream by stream: one stream, or in STREAM one for each vector of the batch. -/
def PassDesc.actRows (d : PassDesc) (p : Nat) : List (List Nat) :=
  if d.diagonal then [rowsFrom p (rowsOf d.afmt (256 * d.beats))]
  else if d.flow = 0 then [rowsFrom p (rowsOf d.afmt (d.beats * d.vectorLen))]
  else (List.range d.batch).map fun v => rowsFrom (rowAfter p (v * rowsOf d.afmt d.inner)) (rowsOf d.afmt d.inner)

/-! ### Entries and their products -/

/-- One product of a pass: its weight and its activation as (stream, element), its cell, and the beat in which it is formed. -/
structure Term where
  w    : Nat × Nat
  a    : Nat × Nat
  row  : Nat
  col  : Nat
  beat : Nat
deriving DecidableEq, Repr

/-- A list of numbers made a permutation of the numbers below `n`: those of the list first. -/
def permOf (l : List Nat) (n : Nat) : List Nat :=
  let a := (l.filter (· < n)).eraseDups
  a ++ (List.range n).filter fun i => !a.contains i

/-- Where 32-element block `i` of a tile of `n` blocks stands in the tile's rows (notes/assumptions/6). -/
def PassDesc.blockPlace (d : PassDesc) (n i : Nat) : Nat := (permOf (Config.tileOrder [d.mode, d.flow, d.wfmt, boolNat d.doubled]) n).getD i 0

/-- The element of a tile in column `c` at inner place `r`, of `depth` inner places and `width` columns: 32 consecutive inner places stand
together (R110). -/
def PassDesc.tileElem (d : PassDesc) (depth width c r : Nat) : Nat :=
  32 * d.blockPlace (width * (depth / 32)) (c * (depth / 32) + r / 32) + r % 32

/-- An entry of the whole buffer, with its products. -/
abbrev EntryTerms := Nat × List Term

/-- The entry of a beat, sub-array and column in STATIONARY (R71, R76). -/
def PassDesc.stationaryEntry (d : PassDesc) (b j c : Nat) : EntryTerms :=
  let o := d.origin j
  (j * d.part + d.accFirst + b * d.side + c,
    (List.range d.depth).map fun r =>
      { w := (0, j * d.depth * d.side + d.tileElem d.depth d.side c r), a := (0, b * d.vectorLen + j * d.depth + r)
        row := o.1 + (if d.doubled then r / 2 else r), col := o.2 + c, beat := b })

/-- The entry of a vector, column set, sub-array and column in STREAM (R80, R81, R83): in turn `t` member g of a group takes the inner
places from (t × G + g) × rows on. -/
def PassDesc.streamEntry (d : PassDesc) (v st j c : Nat) : EntryTerms :=
  let o := d.origin j
  let per := perRow d.wfmt
  let turn (t : Nat) : List Term :=
    let first := (t * d.members + j % d.members) * d.side
    let beat := st * d.turns + t
    ((List.range d.side).filter fun r => first + r < d.inner && beat < d.elemBeats).map fun r =>
      let x := d.tileElem d.side d.width c r
      { w := (j * d.rowsPer + x / per, beat * per + x % per), a := (v, first + r)
        row := o.1 + r, col := o.2 + v % d.copies * d.width + c, beat := beat }
  (j * d.part + d.accFirst + (v * d.sets + st) * d.width + c, ((List.range d.turns).map turn).flatten)

/-- The entry of element `i` in DIAGONAL mode (R89). -/
def PassDesc.diagonalEntry (d : PassDesc) (i : Nat) : EntryTerms :=
  (d.accFirst + i, [{ w := (0, i), a := (0, i), row := i % 256, col := i % 256, beat := i / 256 }])

/-- The groups of entries that make up each output of a pass, in output order: vector by vector, and column by column in each
(notes/assumptions/6). -/
def PassDesc.layout (d : PassDesc) : List (List EntryTerms) :=
  if d.diagonal then (List.range (256 * d.beats)).map fun i => [d.diagonalEntry i]
  else if d.flow = 0 then
    ((List.range d.beats).map fun b => ((List.range d.subs).map fun j => (List.range d.side).map fun c => [d.stationaryEntry b j c]).flatten).flatten
  else
    ((List.range d.batch).map fun v => ((List.range d.sets).map fun st => ((List.range d.groups).map fun q => (List.range d.width).map fun c =>
      (List.range d.members).map fun g => d.streamEntry v st (q * d.members + g) c).flatten).flatten).flatten

/-- The ranges of entries that a pass reaches: first, and one past the last, of each sub-array's. -/
def PassDesc.ranges (d : PassDesc) : List (Nat × Nat) :=
  let n := if d.diagonal then 256 * d.beats else if d.flow = 0 then d.beats * d.side else d.batch * d.sets * d.width
  (List.range (if d.diagonal then 1 else d.subs)).map fun j => (j * d.part + d.accFirst, j * d.part + d.accFirst + n)

/-- Nonzero-capable products that a pass adds to an entry (R122): two for a doubled pair. -/
def PassDesc.perEntry (d : PassDesc) : Nat :=
  if d.diagonal then 1
  else if d.flow = 0 then d.depth
  else ((List.range d.turns).map fun t => min d.side (d.inner - t * d.members * d.side)).sum

/-! ### The sums of a pass (R72, R118 to R123) -/

/-- An operand element, non-finite when its INT8 scale is (R118). -/
def operandElem (fmt scale : Nat) (l : List Byte) (i : Nat) : Elem := if fmt = 2 ∧ scaleBad scale then .nonfin else elemAt fmt l i

/-- The operands of a pass: its weight and activation streams. -/
structure PassInput where
  weights : List (List Byte)
  acts    : List (List Byte)
deriving DecidableEq, Repr

/-- The weight of a product. -/
def PassInput.weight (x : PassInput) (d : PassDesc) (t : Term) : Elem := operandElem d.wfmt d.wScale (x.weights.getD t.w.1 []) t.w.2
/-- The activation of a product. -/
def PassInput.act (x : PassInput) (d : PassDesc) (t : Term) : Elem := operandElem d.afmt d.aScale (x.acts.getD t.a.1 []) t.a.2

/-- What a pass makes of an entry: what it held, the pass's own sum, what it holds then, and the entry's WINDOW contributions so
far. -/
structure PassEntry where
  num   : Nat
  terms : List Term
  own   : AccEntry
  sum   : AccEntry
  drops : Nat
deriving DecidableEq, Repr

/-- One entry after a pass: with CHAIN it adds to what the entry holds, an exact zero where it holds no result (R72;
notes/assumptions/69). -/
def PassDesc.enter (d : PassDesc) (chain : Bool) (old : List (Nat × AccEntry)) (x : PassInput) (e : EntryTerms) : PassEntry :=
  let r := accumulate (e.2.map fun t => product (x.weight d t) (x.act d t))
  let c := combine ((old.lookup e.1).getD .empty) r.1
  if chain then ⟨e.1, e.2, r.1, c.1, r.2 + boolNat c.2⟩ else ⟨e.1, e.2, r.1, r.1, r.2⟩

/-- The entries of each output after a pass. -/
def PassDesc.entries (d : PassDesc) (chain : Bool) (old : List (Nat × AccEntry)) (x : PassInput) : List (List PassEntry) :=
  d.layout.map fun g => g.map (d.enter chain old x)

/-- The entries as the drain meets them: a lossy combination of a group counts for each entry of the group (R83, R121, R130). -/
def withDrain (drain : Bool) (g : List PassEntry) : List PassEntry :=
  if drain then g.map fun e => { e with drops := e.drops + (combineAll (g.map (·.sum))).2 } else g

/-! ### Checksum rows and columns (R90 to R93, R130, R131) -/

/-- Sum of two exact numbers. -/
def Wide.add (a b : Wide) : Wide :=
  let e := min a.e b.e
  ⟨a.m * ((2 ^ (a.e - e).toNat : Nat) : Int) + b.m * ((2 ^ (b.e - e).toNat : Nat) : Int), e⟩
/-- Product of two exact numbers. -/
def Wide.mul (a b : Wide) : Wide := ⟨a.m * b.m, a.e + b.e⟩
/-- Sum of a list. -/
def Wide.sum (l : List Wide) : Wide := l.foldl Wide.add ⟨0, 0⟩
/-- Is |a| at most n × 2^x? -/
def Wide.within (a : Wide) (n : Nat) (x : Int) : Bool :=
  let e := min a.e x
  a.m.natAbs * 2 ^ (a.e - e).toNat ≤ n * 2 ^ (x - e).toNat

/-- An element as an exact number; non-finite ones take no part. -/
def Elem.wide : Elem → Wide
  | .num m e => ⟨m, e⟩
  | .nonfin => ⟨0, 0⟩

/-- The anchor that a pass forms for an entry, the largest exponent among its nonzero products (R120). -/
def PassEntry.anchor (p : PassEntry) (d : PassDesc) (x : PassInput) : Option Int :=
  match nonzero (p.terms.map fun t => product (x.weight d t) (x.act d t)) with
  | [] => none
  | q :: r => some (r.foldl (fun a y => max a y.2) q.2)

/-- The products of an entry in a block, each with what the entry's accumulator takes of it: nothing of a dropped one (R120). -/
def PassEntry.inBlock (p : PassEntry) (d : PassDesc) (x : PassInput) (blk : Nat) : List (Term × Wide) :=
  let low := ((p.anchor d x).getD 0) - 64
  (p.terms.filter fun t => blockAt t.row t.col == blk).map fun t =>
    let v := (product (x.weight d t) (x.act d t)).wide
    (t, if v.e < low then ⟨0, 0⟩ else v)

/-- Products formed with a common factor: the factor times the exact sum of the others (R91, R92). -/
def factored (common other : Term → Wide) (place : Term → Nat × Nat) (l : List Term) : Wide :=
  Wide.sum (((l.map place).eraseDups).map fun k =>
    let ts := l.filter fun t => place t == k
    match ts with
    | [] => ⟨0, 0⟩
    | t :: _ => (common t).mul (Wide.sum (ts.map other)))

/-- The comparisons of a block that is checked by its checksum column and row: in each beat the checksum column, which holds the exact sum of
the weights of each cell row, against the column accumulators (R91); in each column the checksum row, which adds up what leaves the
block, against the result of the check beat, whose streamed operand is the sum over all beats (R92). -/
def PassDesc.blockCompares (d : PassDesc) (x : PassInput) (l : List (Term × Wide)) : List Compare :=
  let w (t : Term) : Wide := (x.weight d t).wide
  let a (t : Term) : Wide := (x.act d t).wide
  let beats := (l.map (·.1.beat)).eraseDups
  let cols := (l.map (·.1.col % 64)).eraseDups
  beats.map (fun b =>
    let m := l.filter (·.1.beat == b)
    ⟨.column b, factored a w (fun t => (256 * t.a.1 + t.row, t.a.2)) (m.map (·.1)), Wide.sum (m.map (·.2))⟩) ++
  cols.map fun c =>
    let m := l.filter (·.1.col % 64 == c)
    ⟨.row c, Wide.sum (m.map (·.2)), if d.flow = 0 then factored w a (·.w) (m.map (·.1)) else factored a w (·.a) (m.map (·.1))⟩

/-- The comparisons of a block in DIAGONAL mode: each product against that of the diagonal offset by 128 columns (R90). -/
def PassDesc.diagonalCompares (d : PassDesc) (x : PassInput) (l : List (Term × Wide)) : List Compare :=
  l.map fun t => ⟨.product t.1.beat (t.1.col % 64), (product (x.weight d t.1) (x.act d t.1)).wide, t.2⟩

/-- The checksum row and column of one block after a pass: the pass's own products alone (R93), entries that are non-finite left out
(R131). -/
def PassDesc.blockCheck (d : PassDesc) (x : PassInput) (es : List PassEntry) (blk : Nat) : BlockCheck :=
  let mine := es.filter fun p => p.terms.any fun t => blockAt t.row t.col == blk
  let finite := mine.filter fun p => !p.own.nonfin && !p.sum.nonfin
  let l := (finite.map fun p => p.inBlock d x blk).flatten
  let anchors := (mine.filterMap fun p => p.anchor d x) ++ (mine.filter fun p => !p.sum.zero).map fun p => p.sum.lsbExp + 64
  { block := blk, compares := if d.diagonal then d.diagonalCompares x l else d.blockCompares x l
    nonfin := ((mine.filter fun p => p.own.nonfin || p.sum.nonfin).map fun p =>
      (p.terms.filter fun t => blockAt t.row t.col == blk).map fun t => (t.beat, t.col % 64)).flatten.eraseDups
    drops := (mine.map (·.drops)).sum, anchor := anchors.foldl max (anchors.headD 0) }

/-- The checksum rows and columns of a pass: every block that its products run through. -/
def PassDesc.check (d : PassDesc) (index : Nat) (x : PassInput) (es : List PassEntry) : PassCheck :=
  ⟨index, ((List.range 16).map (d.blockCheck x es)).filter fun b => !b.compares.isEmpty || !b.nonfin.isEmpty⟩

/-- By how much a fault of the cells puts a comparison of a block out; what it does to a non-finite entry is left out (R98, R131). -/
def CellFault.off (b : BlockCheck) (p : CheckAt) : CellFault → Wide
  | .cell blk col beat m e =>
    let hit : Bool := match p with
      | .column t => t == beat.toNat
      | .row c => c == col.val
      | .product t c => t == beat.toNat && c == col.val
    if blk.val == b.block && hit && !b.nonfin.contains (beat.toNat, col.val) then ⟨m, e⟩ else ⟨0, 0⟩
  | .column blk beat m e => if blk.val = b.block ∧ p = .column beat.toNat then ⟨m, e⟩ else ⟨0, 0⟩
  | .row blk col m e => if blk.val = b.block ∧ p = .row col.val then ⟨m, e⟩ else ⟨0, 0⟩

/-- Is a comparison clean: equal, or within the bound of R130 in a block with WINDOW contributions? -/
def BlockCheck.clean (b : BlockCheck) (faults : List CellFault) (c : Compare) : Bool :=
  let d := Wide.sum (c.held :: ⟨-c.due.m, c.due.e⟩ :: faults.map (CellFault.off b c.place))
  if b.drops = 0 then d.m = 0 else d.within b.drops (b.anchor - 48)

/-- The mask of the failing blocks of a pass, given what its cells got wrong (R97). -/
def PassCheck.failing (p : PassCheck) (faults : List CellFault) : Nat :=
  p.blocks.foldl (fun m b => if b.compares.all (b.clean faults) then m else setBit m b.block) 0

/-- How many blocks are compared under the bound of R130. -/
def PassCheck.bounded (p : PassCheck) : Nat := (p.blocks.filter (·.drops != 0)).length

end Sys2Proof.Machine
end

