-- ==== Sys2Proof/Machine/Route.lean ====
section
/-! DEFINITION. How packets leave a unit and travel: where units are attached, viaducts, the header of a packet, the route, damage, and the
answer to a request (R276 to R286, R302 to R304, R561, R562). -/

namespace Sys2Proof.Machine

/-! ### Attachments (R276 to R279) -/

/-- The index of router (x, y) (R276). -/
def routerAt (x y : Nat) : Nat := 12 * y + x
/-- The routers whose pier port reaches the pier of field `f`, by rising index (R7, R276). -/
def fieldRouters (f : Nat) : List Nat :=
  let x := 2 * (f % 6)
  let y := 2 * (f / 6)
  [routerAt x y, routerAt (x + 1) y, routerAt x (y + 1), routerAt (x + 1) (y + 1)]
/-- The router of a field with the fabric-local port. -/
def localRouter (f : Nat) : Nat := routerAt (2 * (f % 6)) (2 * (f / 6))
/-- The router with the port of tower `t`. -/
def towerRouter (t : Nat) : Nat := if t < 12 then routerAt t 0 else routerAt (t - 12) 9
/-- The routers with the edge ports of a data-port group: that of field 12, or that of field 17. -/
def edgeRouters (right : Bool) : List Nat := if right then [routerAt 11 4, routerAt 11 5] else [routerAt 0 4, routerAt 0 5]
/-- The abutment routers (R277). -/
def isAbutment (r : Nat) : Bool := r < 12 || 108 ≤ r || (edgeRouters false ++ edgeRouters true).contains r
/-- The landing router of a channel of a port's viaduct (R279). -/
def landing (p c : Nat) : Nat := if p < 4 then routerAt (2 + c) (2 + (p + 2 * c) % 6) else routerAt (9 - c) (2 + (p - 4 + 2 * c) % 6)
/-- The landing routers of a port, by channel. -/
def landings (p : Nat) : List Nat := (List.range 4).map (landing p)

/-- Unit codes of DST_UNIT (R282): pier, processor cluster, mover block, supervisor, tower controller, data-port engine, spanlink port,
router control. -/
def unPier : Nat := 0
/-- Processor cluster. -/
def unCluster : Nat := 1
/-- Mover block. -/
def unMover : Nat := 2
/-- Supervisor. -/
def unSupervisor : Nat := 3
/-- Tower controller. -/
def unTower : Nat := 4
/-- Data-port engine. -/
def unEngine : Nat := 5
/-- Spanlink port. -/
def unLink : Nat := 6
/-- Router control. -/
def unRouter : Nat := 7

/-- The output of a destination's router to a unit (R276). -/
def unitPort (u : Nat) : Nat := if u = unPier then 4 else if u = unTower ∨ u = unEngine then 6 else if u = unLink then 7 else 5

/-- The unit of a master ID and the routers where it injects (R276, R352); PCIe and the field network reach the mesh through the active
supervisor (notes/assumptions/70). -/
def State.attached (s : State) (master : Nat) : Nat × List Nat :=
  let i := master % 256
  match master / 256 with
  | 0 => (unCluster, [localRouter (i / 4)])
  | 1 => (unPier, fieldRouters i)
  | 2 => (unMover, [localRouter (i / 8)])
  | 5 => (unSupervisor, [localRouter (if i = 0 then 0 else 29)])
  | 6 => (unLink, landings (i / 8))
  | 7 => (unEngine, edgeRouters (i = 9 || (4 ≤ i && i < 8)))
  | _ => (unSupervisor, [localRouter s.supervisorField])

/-- The unit that serves a device address: the pier of a scratchpad window, the cluster or mover block of the control window, or the tower
controller of the first copy that answers (R15, R254, R258, R521). -/
def State.servedBy (s : State) (a : Nat) : Nat × List Nat :=
  if addrRegion a = 8 then (unPier, fieldRouters (addrField a))
  else if addrRegion a = 12 then
    let o := a % 2 ^ 44
    if o < 0x100000 then (unCluster, [localRouter (o / 0x8000)])
    else if o < 0x200000 then (unMover, [localRouter ((o - 0x100000) / 0x1000)])
    else (unCluster, [localRouter ((o - 0x200000) / 0x1000)])
  else match s.setOf a with
    | none => (unTower, [towerRouter 0])
    | some k =>
      let d := s.setDesc k
      let at' := (goodCopies (s.copies k a)).headD (d.atPos (d.posRow a).1 (d.posRow a).2 a)
      (unTower, [towerRouter (at'.1 / 8)])

/-! ### Routes (R302 to R304) -/

/-- The output of router `r` toward router `d`: along x, then along y, or the detour table's entry (R302, R303). -/
def State.output (s : State) (r d : Nat) : Nat :=
  if s.reg regRouting 0 = 0 then
    if r % 12 < d % 12 then 1 else if d % 12 < r % 12 then 3 else if r < d then 2 else if d < r then 0 else 4
  else (s.router r).table.getD d 7

/-- What becomes of a packet on its route: it arrives, having used outputs (router, port); a router finds it unreachable and answers; or it is
lost at a link that has retired. -/
inductive Journey where
  | arrives (outs : List (Nat × Nat))
  | unreachable (r : Nat)
  | lost
deriving DecidableEq, Repr

/-- Follow the route from router `r` to router `d`, at most `n` hops (R302, R303): no route, or a next hop in a field that is DARK, is
unreachable; packets held for a retired link are dropped (R301). -/
def State.follow (s : State) (d : Nat) : Nat → Nat → Journey
  | 0, r => .unreachable r
  | n + 1, r =>
    if r = d then .arrives [] else
      let o := s.output r d
      if 4 ≤ o ∨ !s.routerUp r then .unreachable r
      else if s.linkState r o = .retired then .lost
      else if !s.routerUp (neighbour r o) then .unreachable r
      else match s.follow d n (neighbour r o) with
        | .arrives outs => .arrives ((r, o) :: outs)
        | j => j

/-- The outputs that a packet uses from a router to a unit at another: the links of its route, then the port of the unit.  Units of one router
meet in its injection stage and use none (R277). -/
def State.journey (s : State) (r d u : Nat) : Journey :=
  if r = d then .arrives [] else
    match s.follow d 121 r with
    | .arrives outs => .arrives (outs ++ [(d, unitPort u)])
    | j => j

/-- Hops between two routers on the routes in use. -/
def State.hops (s : State) (r d : Nat) : Nat :=
  if s.reg regRouting 0 = 0 then (if r % 12 < d % 12 then d % 12 - r % 12 else r % 12 - d % 12) + (if r < d then d / 12 - r / 12 else r / 12 - d / 12)
  else match s.follow d 121 r with
    | .arrives outs => outs.length
    | _ => farAway

/-- The pair of routers with the fewest hops, the first of `outer` and then the first of `inner` at a tie. -/
def nearest (hops : Nat → Nat → Nat) (outer inner : List Nat) : Option (Nat × Nat) :=
  (outer.flatMap fun a => inner.map fun b => (a, b)).foldl (fun m x => match m with
    | none => some x
    | some y => if hops x.1 x.2 < hops y.1 y.2 then some x else m) none

/-! ### The ports of a bridged span (R562) -/

/-- The UP ports of a bridged span toward another of its devices, by rising number: the devices beside this one stand, by rising index, for
the distinct serials that its ports have met, by rising port (notes/assumptions/71). -/
def State.portsToward (s : State) (k d : Nat) : List Nat :=
  let p := s.span k
  let ports := (List.range 8).filter (leAt (s.placement k) 35 1).testBit
  let serials := ((ports.map fun x => s.reg regPeerSerial x).filter (· != 0)).eraseDups
  let i := ((List.range p.devices).filter (· != p.device)).findIdx (· == d)
  match serials[i]? with
  | none => []
  | some n => ports.filter fun x => s.reg regPeerSerial x == n && (s.link x).state == .up

/-- The port that a packet for field `f` of another device takes (R562). -/
def State.portToward (s : State) (k d f : Nat) : Option Nat :=
  let l := s.portsToward k d
  l[f % l.length]?

/-! ### Headers (R280 to R286) -/

/-- The virtual channel of a type: REQ, RSP or STREAM; a READBACK follows STREAM packets (R283). -/
def typeVc (ty : Nat) : Nat := if ty < 0x10 then 0 else if ty < 0x20 then 1 else 2

/-- Is a type a response (R283)? -/
def isResponse (ty : Nat) : Bool := ty / 16 == 1

/-- Does the class of a packet's span give it PRIO LATENCY?  Traffic of no span takes LATENCY (R286). -/
def State.latencyOf (s : State) (k : Nat) : Bool :=
  8 ≤ k || (if (s.span k).step.isSome then s.inForce k regSpanClass else s.reg regSpanClass k) == 0

/-- Packets of SEND, RECV, COLL and SYNC, which a timetable carries (R313). -/
def timetableTypes : List Nat := [tyRows, tySignal, tyMcastData, tyCollData, tyReadback, tyArrive, tyRelease]

/-- Is a packet of a master timetabled (R313, R315)? -/
def State.isTimetabled (s : State) (master ty k : Nat) (dst : Dest) : Bool :=
  let t := (s.span k).timetable
  let between := match dst with
    | .pier _ | .group _ => true
    | _ => false
  k < 8 && t.opened && !t.slipped && master / 256 == 1 && between && timetableTypes.contains ty

/-- The generation of routes that a packet injected now uses; an injection held for new routes uses the new ones (R304). -/
def State.genNow (s : State) : Bool := s.mesh.routeGen != s.mesh.holding

/-- Source, destination and viaduct of a packet between units: the nearest routers, ties to the lower index (R278).  Through a port, REQ and RSP
packets take the channel that lands nearest, the lower one at a tie; the n-th STREAM packet of a transfer takes channel n mod 4 (R280). -/
def State.ends (s : State) (origin : Nat × List Nat) (ty span nth : Nat) (dst : Dest) : Endpoint × Option Endpoint × Option (Nat × Nat) :=
  let lone : Endpoint := ⟨origin.1, origin.2.headD 0⟩
  let straight (u : Nat × List Nat) : Endpoint × Option Endpoint × Option (Nat × Nat) :=
    match nearest s.hops origin.2 u.2 with
    | some x => (⟨origin.1, x.1⟩, some ⟨u.1, x.2⟩, none)
    | none => (lone, none, none)
  let crossing (port : Option Nat) : Endpoint × Option Endpoint × Option (Nat × Nat) :=
    match port with
    | none => (lone, none, none)
    | some p =>
      let ls := if typeVc ty = 2 then [landing p (nth % 4)] else landings p
      match nearest (fun a b => s.hops b a) ls origin.2 with
      | some x => (⟨origin.1, x.2⟩, some ⟨unLink, x.1⟩, some (p, (landings p).findIdx (· == x.1)))
      | none => (lone, none, none)
  match dst with
  | .pier f => straight (unPier, fieldRouters f)
  | .addr a => straight (s.servedBy a)
  | .master m => straight (s.attached m)
  | .away d f => crossing (s.portToward span d f)
  | .device d => crossing (s.portToward span d 0)
  | .group _ => (lone, none, none)

/-- The header of the n-th packet of a transfer (R280 to R286, R313). -/
def State.head (s : State) (master ty span nth : Nat) (resent : Bool) (dst : Dest) : Head :=
  let e := s.ends (s.attached master) ty span nth dst
  { master := master, vc := typeVc ty, latency := s.latencyOf span, timetabled := s.isTimetabled master ty span dst, resent := resent
    gen := s.genNow, src := e.1, dst := e.2.1, viaduct := e.2.2 }

/-- The n-th packet of a transfer of a master, as its issuing attempt sends it (R51, R282). -/
def State.sendNth (s : State) (nth : Nat) (resent : Bool) (master ty span step attempt : Nat) (dst : Dest) (status : Nat) (data : List Nat) : State :=
  s.emit (.packet (s.head master ty span nth resent dst) ty span (if span < 8 then (s.span span).epoch else 0) step attempt dst status data)

/-- A packet of a master (R51, R282). -/
def State.send (s : State) (master ty span step attempt : Nat) (dst : Dest) (status : Nat) (data : List Nat) : State :=
  s.sendNth 0 false master ty span step attempt dst status data

/-- Where a member of a span is, as what a packet is for (R353, R360). -/
def Span.dst (p : Span) (m : Nat × Nat) : Dest := if m.1 = p.device then .pier m.2 else .away m.1 m.2

/-- A message of the step protocol to members (R305, R562): one packet to each of this device, and one to each other device, whose port
multicasts it. -/
def State.toMembers (s : State) (master ty k step attempt : Nat) (ms : List (Nat × Nat)) (data : List Nat) : State :=
  let p := s.span k
  let away := (ms.filter (·.1 != p.device)).foldl (fun l m => if l.any (·.1 == m.1) then l else l ++ [m]) []
  (ms.filter (·.1 == p.device) ++ away).foldl (fun t m => t.send master ty k step attempt (p.dst m) 0 data) s

/-- The anchor of a span, as what a packet is for. -/
def State.anchorDst (s : State) (k : Nat) : Dest := (s.span k).dst (s.anchorDevice k, (s.span k).anchor)

/-! ### Answers -/

/-- An answer to a request packet from a unit: type, status and contents go back to its sender with its TAG. -/
def State.answerFrom (s : State) (e : Endpoint) (p : Pkt) (ty status : Nat) (data : List Nat) : State :=
  let h : Head :=
    { master := p.master.toNat, vc := typeVc ty, latency := s.latencyOf p.span.toNat, timetabled := false, resent := false, gen := s.genNow
      src := e, dst := some ⟨p.srcUnit, p.src⟩, viaduct := none }
  s.emit (.packet h ty p.span.toNat p.epoch.toNat p.step.toNat p.attempt.toNat (.master p.master.toNat) status (p.tag.toNat :: data))

/-- The answer of the unit that a request packet has reached. -/
def State.answer (s : State) (p : Pkt) (ty status : Nat) (data : List Nat) : State := s.answerFrom ⟨p.dstUnit, p.dst⟩ p ty status data

/-- A write has been performed: ACK answers it, but not a packet of a stream (R283). -/
def State.performed (s : State) (p : Pkt) (stream : Bool) : State := if stream then s else s.answer p tyAck 0 []

/-! ### What the mesh does with a packet (R285, R303, R304, R317) -/

/-- The data flits that `n` bytes fill (R281). -/
def flitsFor (n : Nat) : Nat := 1 + (n + 255) / 256

/-- Flits leave by a port of a router (R317). -/
def State.flitsOut (s : State) (o : Nat × Nat) (n : Nat) : State :=
  let l := leBytes 64 (s.reg regFlitsOut o.1)
  s.setReg regFlitsOut o.1 (ofLe (splice l (8 * o.2) (leBytes 8 (satAdd 8 (leAt l (8 * o.2) 8) n))))

/-- Does a packet reach its destination? -/
def State.delivers (s : State) (p : Pkt) : Bool :=
  p.damage.isNone && p.gen == s.mesh.routeGen && match s.journey p.src p.dst p.dstUnit with
    | .arrives _ => true
    | _ => false

/-- The state once a packet of `n` flits has come to its destination. -/
def State.hauled (s : State) (p : Pkt) (n : Nat) : State :=
  match s.journey p.src p.dst p.dstUnit with
  | .arrives outs => outs.foldl (fun t o => t.flitsOut o n) s
  | _ => s

end Sys2Proof.Machine
end

