-- ==== Sys2Proof/Machine/PointOps.lean ====
section
/-! DEFINITION. Operating points of the piers, what limits them, and the voltage slews and drawbridges that change them (R437 to R446,
R462, R465 to R470, R586). -/

namespace Sys2Proof.Machine

/-! ### Fused values and operating points (R465, R466, R468, R487) -/

/-- The fuse map (R487). -/
def State.fuses (s : State) : List Byte := leBytes 952 (s.reg regFuseMap 0)
/-- Is the pier of field `f` fused off? -/
def State.pierFused (s : State) (f : Nat) : Bool := (leAt s.fuses 12 4).testBit f
/-- Is spanlink port `p` fused off? -/
def State.portFused (s : State) (p : Nat) : Bool := (leAt s.fuses 20 1).testBit p
/-- The ceiling of the pier of field `f` in MHz: the lower of its fuse and its flash record (R466, R488). -/
def State.ceiling (s : State) (f : Nat) : Nat := min (leAt s.fuses (24 + 2 * f) 2) (s.field f).power.ageCeiling
/-- Fused worst-case VDD_P current in A at a point. -/
def State.pointAmps (s : State) (f p : Nat) : Nat := leAt s.fuses (204 + 16 * f + 2 * p) 2
/-- The ACLK of a point in MHz (R465, R466). -/
def State.pointMhz (s : State) (f p : Nat) : Nat :=
  let c := s.ceiling f
  if p < 5 then 400 + 80 * p
  else if p = 7 ∨ c < 800 then c
  else if p = 5 then 800
  else (800 + c) / 2 / 5 * 5
/-- The fused VDD_P voltage of a point in mV (R465, R466). -/
def State.fusedMv (s : State) (f p : Nat) : Nat :=
  let op7 := leAt s.fuses (84 + 4 * f + 2) 2
  if p < 5 then 600 + 30 * p
  else if p = 7 ∨ s.ceiling f < 800 then op7
  else if p = 5 then 750
  else leAt s.fuses (84 + 4 * f) 2
/-- The VDD_P set-point of a point under the guard band in force (R468). -/
def State.pointMv (s : State) (f p : Nat) : Nat := s.fusedMv f p - (if s.reg regGuardBand 0 = 1 then 25 else 0)

/-- The divider DA of an ACLK frequency (R438). -/
def daOf (mhz : Nat) : Nat := if 667 ≤ mhz then 6 else if 500 ≤ mhz then 8 else 12

/-! ### Limits (R462, R469, R470, R473) -/

/-- Working regulator cells of a rail group: first cell and count. -/
def Field.cellsGood (x : Field) (first count : Nat) : Nat := count - popCount count (x.cellsOut / 2 ^ first)

/-- The highest point whose fused worst-case current the VDD_P group carries, none when it carries no point or cannot hold its rail
(R410, R462). -/
def State.cellPoint (s : State) (f : Nat) : Option Nat :=
  let k := (s.field f).cellsGood 0 10
  if 9 ≤ k then some 7
  else if k < 4 then none
  else ((List.range 8).reverse.find? fun p => s.pointAmps f p ≤ 40 * k)

/-- Is OP0 forced (R459, R473)? -/
def State.forcedLow (s : State) : Bool := s.supply.alert || s.supply.undervolt || s.supply.holding

/-- The point that a pier's declared phase requests (R470); a write of PHASE_OPS waits for the next step to open (R49). -/
def State.phaseRequest (s : State) (f : Nat) : Nat :=
  match s.spanOf f with
  | some k =>
    let ops := if (s.span k).step.isSome then s.inForce k regPhaseOps else s.reg regPhaseOps k
    leAt (leBytes 5 ops) (s.reg regPhase f) 1
  | none => s.reg regIdleOp 0

/-- The limits on a pier's point other than its phase (R469). -/
def State.pointLimit (s : State) (f : Nat) : Nat :=
  let p := (s.field f).power
  if s.forcedLow then 0 else min (min (s.reg regCapLimit 0) p.cellLimit) (min p.thermalLimit (min p.admissionLimit 7))

/-- The effective point of a pier (R469). -/
def State.wantPoint (s : State) (f : Nat) : Nat := min (s.field f).power.phasePoint (s.pointLimit f)

/-- A pier's bubble fraction (R472), as numerator and denominator: the largest of the controller's b, which is at most 1/2, and those of
its own. -/
def PowerS.bubbles (p : PowerS) (b : Nat × Nat) : Nat × Nat :=
  if p.ownBubble / 2 % 4 ≠ 0 then (3, 4) else if p.ownBubble.testBit 0 then (1, 2) else b

/-! ### Changes of point (R444, R467, R586) -/

/-- The PLL of a field is set to an ACLK frequency (R438). -/
def State.setAclk (s : State) (f mhz : Nat) : State :=
  s.modClock f fun c => { c with da := daOf mhz, vco := daOf mhz * mhz * 1000 }

/-- The ACLK of a field in kHz. -/
def FieldClock.aclk (c : FieldClock) : Nat := c.vco / c.da

/-- The frequency change of a pier is in force (R467): its point, and a lower set-point if the voltage is now too high. -/
def State.pointReached (s : State) (f p : Nat) : State :=
  let mv := s.pointMv f p
  s.modPower f fun x =>
    { x with point := p, drawTo := none, slewTo := if mv < x.millivolts then some mv else none
             ownBubble := (fun b => if p ≤ x.cellLimit then clearBit b 0 else b) (if p = 0 then clearBit x.ownBubble 2 else x.ownBubble) }

/-- The pier's point moves to `p` (R467): up with the voltage first, down with the frequency first; a change that leaves ACLK alone
needs no drawbridge. -/
def State.pointMove (s : State) (f p : Nat) : State :=
  let x := (s.field f).power
  let mv := s.pointMv f p
  if p = x.point ∧ x.drawTo = none ∧ x.slewTo = none ∧ x.millivolts = mv ∧ (s.field f).clock.aclk = s.pointMhz f p * 1000 then s
  else if x.millivolts < mv then s.modPower f fun y => { y with slewTo := some mv, drawTo := none }
  else if (s.field f).clock.aclk = s.pointMhz f p * 1000 then s.pointReached f p
  else s.modPower f fun y => { y with drawTo := some p, slewTo := y.slewTo.filter (· < y.millivolts) }

/-- The power manager applies a pier's effective point (R469, R586): a pier that is not ON holds its changes; a lowering that comes from
the phase alone waits for PHASE_HOLD. -/
def State.powerUpdate (s : State) (f : Nat) : State :=
  let x := (s.field f).power
  if x.state ≠ .on then s
  else
    let p := s.wantPoint f
    if p < x.point ∧ x.point ≤ s.pointLimit f then s.modPower f fun y => { y with phaseHeld := true }
    else (s.modPower f fun y => { y with phaseHeld := false }).pointMove f p

/-- A pier that has entered or left a span requests the point of its phase there, or IDLE_OP (R470). -/
def State.requestPoint (s : State) (f : Nat) : State :=
  (s.modPower f fun p => { p with phasePoint := s.phaseRequest f }).powerUpdate f

/-- Every pier's point is looked at again. -/
def State.powerAll (s : State) : State := (List.range 30).foldl State.powerUpdate s

/-- The cap limit or another device-wide limit moves: every pier follows. -/
def State.setCapLimit (s : State) (p : Nat) : State := (s.setReg regCapLimit 0 p).powerAll

end Sys2Proof.Machine
end

