-- ==== Sys2Proof/Machine/SpinOps.lean ====
section
/-! DEFINITION. What the array does between real passes: spin passes, their cycles, and the gap after the last pass (R102 to R107). -/

namespace Sys2Proof.Machine

/-- Is spin ON for a pier (R106, R107)? -/
def State.spinOn (s : State) (f : Nat) : Bool := s.reg regSpinEnable f == 1

/-- ACLK cycles of a field since a time. -/
def State.cyclesSince (s : State) (f t : Nat) : Nat := (s.now - t) * (s.field f).clock.aclk / 1000000

/-- Cycles with spin passes that are not counted in SPIN_CYCLES yet: those since the spin state last changed (R107). -/
def State.spinUncounted (s : State) (f : Nat) : Nat :=
  let a := (s.field f).array
  if a.spin = .rest then 0 else s.cyclesSince f a.since

/-- The array enters a spin state: the cycles of the one it leaves are counted (R107). -/
def State.spinTo (s : State) (f : Nat) (x : SpinState) : State :=
  (s.bump regSpinCycles f (s.spinUncounted f)).modArray f fun y => { y with spin := x, since := s.now }

/-- The busy fraction a while the level ramps down over 20 µs, and A, both scaled by 20,000 (R104). -/
def State.busyNow (s : State) (f : Nat) : Nat := (s.field f).array.level * (20000 - (s.now - (s.field f).array.since))

/-- The last real pass has left the array: the running level is the work's own, which timing leaves open but for 0 (R102), and spin passes
begin at it while spin is ON (R103). -/
def State.arrayIdle (s : State) (f : Nat) : State :=
  let s1 := (s.modArray f fun a => { a with level := (s.free 10).toNat % 1000 + 1 }).nextFree
  if s.spinOn f then s1.spinTo f .spinning else s1.spinTo f .rest

/-- Is a real pass in the array or waiting for it? -/
def State.arrayBusy (s : State) (f : Nat) : Bool := (s.field f).seq.inFlight.any (·.unit == .array)

/-- The real passes of a pier are dropped, and a gap in its work begins (R100, R103). -/
def State.passesDropped (s : State) (f : Nat) : State :=
  let s1 := s.modSeq f fun q => { q with inFlight := q.inFlight.filter (·.unit != .array) }
  if s.arrayBusy f then s1.arrayIdle f else s1

/-- A field leaves a drawbridge, in which its array was at rest (R88, R105): the pass it holds waits for a pre-ramp. -/
def State.arrayResumes (s : State) (f : Nat) : State :=
  if s.arrayBusy f ∧ s.spinOn f then (s.spinTo f .preRamp).bump regPreRamps f 1 else s

/-- The array of a pier loses power. -/
def State.arrayOff (s : State) (f : Nat) : State := (s.spinTo f .rest).modArray f fun _ => ArrayS.reset

/-- The weight registers when a pass has ended: the second ones take over (R77). -/
def ArrayS.nextTile (a : ArrayS) : ArrayS := if a.second.isSome then { a with first := a.second, second := none } else a

/-- The array on ABORT and on a twin difference (R74, R78, R100, R101): the buffer clears, both weight registers are invalid, no verdict is
due. -/
def ArrayS.clear (a : ArrayS) : ArrayS := { a with accum := [], first := none, second := none, lastMode := none, checks := [] }

/-- The array at the end of an attempt, and at the start of one (R74, R78): no entry and no tile stands any more. -/
def ArrayS.newStep (a : ArrayS) : ArrayS := { a with accum := [], first := none, second := none }

end Sys2Proof.Machine
end

