-- ==== Sys2Proof/Machine/SeqOps.lean ====
section
/-! DEFINITION. The sequencer: registers at the start of an attempt (R174), tower ranges and reads of the fetch engine (R180 to R182),
and the run-ahead cursor (R192, R193). -/

namespace Sys2Proof.Machine

/-- The value of an index register at step `n` by the last STEP.BASE for it (R174). -/
def BaseRec.at (b : BaseRec) (n : Nat) : Nat :=
  toTwos 64 ((b.base : Int) + ((if b.modulus = 0 then n else n % b.modulus : Nat) : Int) * b.stride)

/-- The 16 index registers at the start of an attempt of step `n` (R174). -/
def startIdx (bases : List (Option BaseRec)) (n : Nat) : List Nat :=
  (List.range 16).map fun k =>
    if k = 0 then n % 2 ^ 64 else match bases.getD k none with
      | none => 0
      | some b => b.at n

/-- The value of an index register. -/
def Sequencer.reg (q : Sequencer) (k : Nat) : Nat := q.idx.getD k 0

/-- The pier address that an operand names (R175). -/
def operandAddr (idx : List Nat) (ireg offset : Nat) : Nat := (idx.getD ireg 0 % 2 ^ 22 + offset) % 2 ^ 22

/-- The tower address that a register and a signed 32-bit offset name (R180). -/
def towerAddr (idx : List Nat) (treg toff : Nat) : Nat := toTwos 64 ((idx.getD treg 0 : Int) + signed 32 toff)

/-- R180: a range of `rows` rows lies in the tower region, within the part's tower size, and is 512-byte aligned. -/
def State.rangeOk (s : State) (a rows : Nat) : Bool := a % 512 == 0 && a + 512 * rows ≤ s.towerBytes

/-- Reads that the fetch engine of field `f` has outstanding (R182). -/
def State.fetchSlots (s : State) (f : Nat) : Nat :=
  (s.mesh.requests.filter fun o => o.master == pierMaster f && o.dest.isSome).length

/-- Run-ahead reads that it has outstanding or holds (R182, R192). -/
def State.aheadSlots (s : State) (f : Nat) : Nat :=
  (s.mesh.requests.filter fun o => o.master == pierMaster f && o.ahead.isSome).length

/-- The fetch engine sends one read: READ, tower address, rows and destination; `ahead` names the step of a run-ahead read, `serial` the
instruction. -/
def State.fetchRead (s : State) (f k a rows dst serial : Nat) (ahead : Option Nat) : State :=
  let tag := s.mesh.nextTag
  let s1 := s.request
    { tag := 0, master := pierMaster f, span := k, field := f, mover := none, dest := some dst, bytes := 512 * rows, ahead := ahead
      write := false, serial := serial }
  let o := (s.openStep f).getD (k, 0, 0)
  let s2 := s1.send (pierMaster f) tyRead k (ahead.getD o.2.1) o.2.2 (.addr a) 0 [tag, 512 * rows]
  if ahead.isSome then s2.bump regRunaheadReads f 1 else s2

/-- Reads of the issue cursor that find no free slot wait, and issue as slots free (R182). -/
def State.fetchIssue (s : State) (f k : Nat) (serial : Nat) (reads : List (Nat × Nat × Nat)) : State :=
  reads.foldl (fun t r =>
    if t.fetchSlots f < 64 ∧ (t.field f).seq.readQueue = [] then t.fetchRead f k r.1 r.2.1 r.2.2 serial none
    else t.modSeq f fun q => { q with readQueue := q.readQueue ++ [(r.1, r.2.1, r.2.2, serial)] }) s

/-- A slot has freed: the oldest waiting read issues (R182). -/
def State.fetchNext (s : State) (f k : Nat) : State :=
  match (s.field f).seq.readQueue with
  | [] => s
  | r :: rest =>
    if s.fetchSlots f < 64 then (s.modSeq f fun q => { q with readQueue := rest }).fetchRead f k r.1 r.2.1 r.2.2.1 r.2.2.2 none else s

/-- The entries of a list row (R181): tower address and rows of entries 0 to `count`. -/
def listEntries (row : List Byte) (count : Nat) : List (Nat × Nat) :=
  (List.range (count + 1)).map fun i =>
    let e := leAt row (8 * i) 8
    (bits e 0 48, bits e 48 7 + 1)

/-- The reads of list entries, landing consecutively from `dst` (R181). -/
def listReads (dst : Nat) : List (Nat × Nat) → List (Nat × Nat × Nat)
  | [] => []
  | (a, n) :: r => (a, n, dst) :: listReads (rowAfter dst n) r

/-! ### The run-ahead cursor -/

/-- The body entry of a variant; 0xFFFF_FFFF when the variant is absent (R166). -/
def Image.entry (i : Image) (v : Nat) : Nat := i.body.getD v 0xFFFFFFFF

/-- The 128-bit word at an instruction index (R165). -/
def Image.word (i : Image) (pc : Nat) : Nat := i.code.getD (pc - i.codeFirst) 0

/-- Does an index lie inside the code (R165)? -/
def Image.inside (i : Image) (t : Nat) : Bool := i.codeFirst ≤ t && t < i.codeFirst + i.codeCount

/-- The scratchpad operand of 26 bits that starts at bit `lo` of a word (R175). -/
def wordOperand (idx : List Nat) (w lo : Nat) : Nat := operandAddr idx (bits w (lo + 22) 4) (bits w lo 22)

/-- The cursor issues the reads of the FETCH in hand while a slot is free for them: 48 of its own, 64 in all (R182, R192). -/
def State.aheadReads (s : State) (f k : Nat) (r : RunAhead) : List (Nat × Nat × Nat) → State
  | [] => s.modSeq f fun q => { q with runAhead := some r.pass }
  | x :: rest =>
    if s.aheadSlots f < 48 ∧ s.fetchSlots f < 64 then
      let tag := s.mesh.nextTag
      let own (a : AheadFetch) : AheadFetch := if a.step == r.step && a.nth == r.nth then { a with tags := a.tags ++ [tag] } else a
      ((s.fetchRead f k x.1 x.2.1 x.2.2 0 (some r.step)).modSeq f fun q => { q with ahead := q.ahead.map own }).aheadReads f k r rest
    else s.modSeq f fun q => { q with runAhead := some { r with stop := .slots, rest := x :: rest } }

/-- The cursor takes an eligible FETCH in hand, whose reads are known. -/
def State.aheadIssue (s : State) (f k : Nat) (r : RunAhead) (reads : List (Nat × Nat × Nat)) (row : Option Nat) : State :=
  (s.modSeq f fun q => { q with ahead := q.ahead ++ [⟨r.step, r.nth, [], row⟩] }).aheadReads f k r reads


/-- An index register file with register `k` written; no instruction writes register 0 (R174). -/
def putIdx (idx : List Nat) (k v : Nat) : List Nat := if k = 0 then idx else idx.set k (v % 2 ^ 64)

/-- The register copies after a STEP instruction that the cursor performs (R189, R192). -/
def aheadStepOp (q : Sequencer) (r : RunAhead) (w : Nat) : RunAhead :=
  let k := bits w 92 4
  match bits w 120 4 with
  | 1 => { r with idx := putIdx r.idx k ((BaseRec.mk (bits w 36 48) (bits w 84 8) (signed 32 (bits w 4 32))).at r.step), pc := r.pc + 1 }
  | 2 => { r with idx := putIdx r.idx k (toTwos 64 ((r.idx.getD k 0 : Int) + signed 48 (bits w 44 48))), pc := r.pc + 1 }
  | 3 => { r with loops := r.loops.set (bits w 94 2) (bits w 78 16), pc := r.pc + 1 }
  | 4 =>
    let c := bits w 94 2
    let v := (r.loops.getD c 0 + 65535) % 65536
    { r with loops := r.loops.set c v, pc := if v = 0 then r.pc + 1 else bits w 80 14 }
  | 5 => { r with pc := bits w 82 14 }
  | 6 => { r with stop := .atLdx }
  | _ => { r with stop := .atNext, idx := startIdx q.bases (r.step + 1) }

/-- The cursor at the entry of the body for step `n`. -/
def aheadAt (q : Sequencer) (i : Image) (variant n : Nat) : RunAhead :=
  ⟨variant, n, i.entry variant, startIdx q.bases n, List.replicate 4 0, 0, .going, []⟩

/-- The cursor at a FETCH word with RA set (R192, R193): the tower ranges of its reads and the list row it reads.  None where the issue
cursor is to make the reads: an operand names no bank (R175), a range breaks R180, the list row cannot be read, or 16 list rows are
watched already. -/
def State.aheadPlan (s : State) (f : Nat) (q : Sequencer) (r : RunAhead) (w : Nat) : Option (List (Nat × Nat × Nat) × Option Nat) :=
  let dst := wordOperand r.idx w 26
  let listAt := wordOperand r.idx w 70
  let isList := bits w 120 4 == 1
  let barred := 40 ≤ addrBank dst ||
    (isList && (40 ≤ addrBank listAt || 16 ≤ (q.ahead.filterMap (·.row)).length || s.rowStatus f listAt != 0))
  if barred then none else
    let reads := if isList then listReads dst (listEntries (s.row f listAt) (bits w 64 6))
      else [(towerAddr r.idx (bits w 92 4) (bits w 60 32), bits w 52 7 + 1, dst)]
    if reads.all fun x => s.rangeOk x.1 x.2.1 then some (reads, if isList then some listAt else none) else none

/-- One move of a cursor that is going: STEP operations on its copies, eligible FETCHes, and every other instruction passed (R192). -/
def State.aheadMove (s : State) (f k : Nat) (i : Image) (r : RunAhead) : State :=
  let q := (s.field f).seq
  let w := i.word r.pc
  let move (x : RunAhead) : State := s.modSeq f fun y => { y with runAhead := some x }
  if bits w 124 4 = 0xC then move (aheadStepOp q r w)
  else if bits w 124 4 = 4 ∧ w.testBit 98 then
    match s.aheadPlan f q r w with
    | some x => s.aheadIssue f k r x.1 x.2
    | none => move r.pass
  else move { r with pc := r.pc + 1 }

/-- The cursor runs until it stands (R192); it is at most two steps ahead of `n`, the open step. -/
def aheadRun (f k n : Nat) : Nat → State → State
  | 0, s => s
  | fuel + 1, s =>
    match (s.field f).seq.image, (s.field f).seq.runAhead with
    | some i, some r =>
      match r.stop with
      | .atLdx => s
      | .atNext =>
        if r.step ≤ n + 1 then
          aheadRun f k n fuel (s.modSeq f fun x => { x with runAhead := some (aheadAt x i r.variant (r.step + 1)) })
        else s
      | .slots =>
        let t := s.aheadReads f k r r.rest
        if (t.field f).seq.runAhead.any (·.stop == .slots) then t else aheadRun f k n fuel t
      | .going => if i.inside r.pc then aheadRun f k n fuel (s.aheadMove f k i r) else s
    | _, _ => s

/-- Let the cursor of field `f` go on for the open step (R192). -/
def State.aheadGo (s : State) (f : Nat) : State :=
  match s.openStep f with
  | some (k, n, _) => aheadRun f k n 65536 s
  | none => s

/-- ABORT or an epoch change drops run-ahead (R40, R193). -/
def State.aheadClear (s : State) (f : Nat) : State :=
  (s.dropAhead f fun _ => true).modSeq f fun q => { q with runAhead := none }

/-! ### The start of an attempt -/

/-- The sequencer at the start of an attempt of step `n` (R171, R174, R184): everything counted per attempt starts again. -/
def Sequencer.start (q : Sequencer) (n variant : Nat) : Sequencer :=
  { q with
    state := .running, pc := (q.image.map fun i => i.entry variant).getD 0, idx := startIdx q.bases n, loops := List.replicate 4 0
    tokens := List.replicate 16 false, inFlight := [], waiting := [], rowCount := List.replicate 16 0
    sigCount := List.replicate 16 0, forceCheck := false, passIndex := 0, vecIndex := 0, syncSeq := List.replicate 17 0
    collSeq := List.replicate 16 0, window := 0, verdicts := [], wholeChecks := [], writesOpen := 0, nonfinSeen := false, vecNonfin := false
    reported := false, failedBits := 0, issuedCommit := false, abortDue := false, fetchNth := 0, readQueue := [], forward := [], held := [], serial := 1
    colls := [] }

/-- Run-ahead at the opening of step `n` (R192, R193): reads made for another variant are dropped; the cursor goes on, or starts at
step n + 1. -/
def State.aheadOpen (s : State) (f n variant : Nat) : State :=
  let q := (s.field f).seq
  let keep := match q.runAhead with
    | some r => r.variant == variant && n ≤ r.step
    | none => false
  let s1 := if keep then s.dropAhead f fun a => a.step < n else s.aheadClear f
  let s2 := if keep then s1 else match q.image with
    | some i => s1.modSeq f fun x => { x with runAhead := some (aheadAt q i variant (n + 1)) }
    | none => s1
  s2.aheadGo f

/-- The sequencer at the start of an attempt: what a step records once is not forgotten by its next attempt (R119, R204). -/
def Sequencer.attempt (q : Sequencer) (n variant : Nat) (again : Bool) : Sequencer :=
  { q.start n variant with nonfinSeen := again && q.nonfinSeen, vecNonfin := again && q.vecNonfin }

/-- A pier starts an attempt of step `n` of its span at a body variant, if its sequencer can (R198), with an empty array (R74). -/
def State.attemptStart (s : State) (f n variant : Nat) : State :=
  let again := (s.openStep f).any fun o => o.2.2 != 0
  match (s.field f).seq.state with
  | .waiting | .aborting | .committing =>
    (((s.modSeq f fun q => q.attempt n variant again).modArray f ArrayS.newStep).setReg regVariant f variant).aheadOpen f n variant
  | _ => s

/-- A phase is declared (R188, R469, R470): naming the phase in force has no effect; otherwise the power manager applies its point. -/
def State.declarePhase (s : State) (f code : Nat) : State :=
  if s.reg regPhase f = code then s
  else
    let s1 := s.setReg regPhase f code
    (s1.modPower f fun p => { p with phasePoint := s1.phaseRequest f }).powerUpdate f

/-- The sequencer returns to WAITING, where its array holds no result of an attempt (R74) and the declared phase is IDLE (R188, R198). -/
def State.seqWait (s : State) (f : Nat) : State :=
  (((s.passesDropped f).modSeq f fun q => { q with state := .waiting, waiting := [], inFlight := [], held := [] }).modArray f ArrayS.newStep).declarePhase f 4

/-- The sequencer starts at PROLOGUE (R198): its registers as at the start of an attempt with the committed step. -/
def State.prologueStart (s : State) (f n : Nat) : State :=
  (s.modArray f ArrayS.newStep).modSeq f fun q => { q.start n 0 with state := .prologue, pc := (q.image.map (·.prologue)).getD 0 }

/-- The image is discarded: the sequencer is EMPTY (R198). -/
def State.seqEmpty (s : State) (f : Nat) : State :=
  (((s.aheadClear f).modSeq f fun _ => Sequencer.reset).setReg regProgramBuild f 0).setReg regProgramDigest f 0
    |>.setReg regRegionTable f 0

end Sys2Proof.Machine
end

