-- ==== Sys2Proof/Machine/DevMem.lean ====
section
/-! DEFINITION. Accesses by device address (R15, R16): what a target answers, what a read delivers and a write leaves; and the failed
reports of R32. -/

namespace Sys2Proof.Machine

/-- The pier address of a scratchpad-window address (R15, R135). -/
def addrPier (a : Nat) : Nat := bits a 9 22
/-- The bank of a scratchpad-window address. -/
def windowBank (a : Nat) : Nat := bits a 25 6

/-- Does a scratchpad-window address name a row that exists (R15, R16)? -/
def windowExists (a : Nat) : Bool := bits a 36 8 == 0 && addrField a < 30 && windowBank a < 40

/-- The NACK code of a pier's power state, 0 when it is on (R284). -/
def PierPower.nack : PierPower → Nat
  | .on => 0
  | .retired | .fused => nackRetired
  | .off | .deferred | .staging | .heatOff => nackOff

/-- Is a field reachable (R303, R316)? -/
def State.reachable (s : State) (f : Nat) : Bool := (s.field f).state != .dark && (s.field f).state != .retired

/-- Is a supervisor left (R350, R416): a standby, or an active one whose field has its rails? -/
def State.supervised (s : State) : Bool := s.control.standby || s.reachable (if s.control.activeB then 29 else 0)

/-- What an access to rows of a scratchpad window meets (R16, R54, R158, R284, R364): a NACK code, 0 when it is performed. -/
def State.windowCode (s : State) (master span : Nat) (right : Right) (a n : Nat) : Nat :=
  let f := addrField a
  let rows := (List.range ((a % 512 + n + 511) / 512)).map fun i => rowAfter (addrPier a) i
  if !windowExists a || rows.any fun p => 40 ≤ addrBank p then nackAbsent
  else if !s.reachable f then nackUnreachable
  else if (s.spanOf f).any s.resetting then nackReset
  else if !s.granted (targetScratch f) master span right (rows.map addrBank) then nackAccess
  else if (s.field f).power.state.nack ≠ 0 then (s.field f).power.state.nack
  else
    let st := s.rowsStatus f rows
    if st.testBit 6 then nackOff else if st.testBit 4 then nackUncorr else 0

/-- Does an access of `n` bytes at a device address wait for a WAKING bank (R158)? -/
def State.windowAsleep (s : State) (a n : Nat) : Bool :=
  addrRegion a == 8 && windowExists a &&
  s.rowsAsleep (addrField a) ((List.range ((a % 512 + n + 511) / 512)).map fun i => rowAfter (addrPier a) i)

/-- What an access to one granule part of a tower meets. -/
def State.granuleCode (s : State) (master span : Nat) (right : Right) (wholeWrite : Bool) (a : Nat) : Nat :=
  match s.setOf a with
  | none => nackAbsent
  | some k =>
    let cs := s.copies k a
    let d := s.setDesc k
    let t := (d.atPos (d.posRow a).1 (d.posRow a).2 a).1 / 8
    if !s.reachable (towerField t) && (goodCopies cs).isEmpty then nackUnreachable
    else if !s.granted (targetTower t) master span right [k] then nackAccess
    else if right = .r then
      match goodCopies cs with
      | [] => firstNack cs
      | l => if l.all s.badGranule then nackUncorr else 0
    else if anyRetrain cs then nackRetrain
    else match goodCopies cs with
      | [] => firstNack cs
      | l => if !wholeWrite && l.any s.badGranule then nackUncorr else 0

/-- The first code that is not 0. -/
def firstCode : List Nat → Nat
  | [] => 0
  | c :: r => if c = 0 then firstCode r else c

/-- What an access of `n` bytes at a device address meets (R284): a NACK code, 0 when it is performed.  No part of a refused request is
performed (R364). -/
def State.accessCode (s : State) (master span : Nat) (right : Right) (a n : Nat) : Nat :=
  if addrRegion a = 8 then s.windowCode master span right a n
  else if addrRegion a = 0 then
    if a + n > s.towerBytes then nackAbsent
    else firstCode ((partsOf a n).map fun p => s.granuleCode master span right (p.2 == 64) p.1)
  else nackAbsent

/-- The bytes at a device address, as a granted read delivers them. -/
def State.peekAny (s : State) (a n : Nat) : List Byte :=
  if addrRegion a = 8 then s.read (a % 2 ^ 48) n else (s.peek a n).getD (zeros n)

/-- A granted write at a device address.  A whole granule written is no longer uncorrectable (R250); run-ahead lists that a row held
are dropped (R193). -/
def State.pokeAny (s : State) (a : Nat) (l : List Byte) : State :=
  if addrRegion a = 8 then
    let rows := (List.range ((a % 512 + l.length + 511) / 512)).map fun i => rowAfter (addrPier a) i
    rows.foldl (fun t p => t.rowWritten (addrField a) p) (s.write (a % 2 ^ 48) l)
  else
    let s1 := s.poke a l
    (partsOf a l.length).foldl (fun t p =>
      if p.2 = 64 then
        (t.writeCopies p.1).foldl (fun u x => u.modChannel x.1 fun c => { c with bad := c.bad.filter (· != x.2 / 64) }) t
      else t) s1

/-- The flits of 256 B in which a write of `n` bytes at address `a` reaches the banks (R140): address and bytes. -/
def flitParts : Nat → Nat → Nat → List (Nat × Nat)
  | 0, _, _ => []
  | k + 1, a, n => if n = 0 then [] else let m := min n (256 - a % 256); (a, m) :: flitParts k (a + m) (n - m)

/-- The flits of a write. -/
def flitsOf (a n : Nat) : List (Nat × Nat) := flitParts (n / 256 + 2) a n

/-- Of flits written one after another, those that are narrow writes: all but the two halves of one aligned row in consecutive flits
(R138, R140). -/
def narrowFlits : List (Nat × Nat) → List Nat
  | x :: y :: r =>
    if x.2 = 256 ∧ y.2 = 256 ∧ x.1 / 512 = y.1 / 512 ∧ x.1 ≠ y.1 then narrowFlits r else x.1 :: narrowFlits (y :: r)
  | l => l.map (·.1)

/-- The scratchpad rows that a write of `n` bytes at a window address performs as narrow writes (R138, R140). -/
def narrowRows (a n : Nat) : Nat :=
  if addrRegion a ≠ 8 then 0 else
    let first := if a % 512 ≠ 0 ∨ n < 512 - a % 512 then 1 else 0
    let last := if (a + n) % 512 ≠ 0 ∧ a / 512 ≠ (a + n) / 512 then 1 else 0
    if n = 0 then 0 else first + last

/-! ### Failed reports (R32) -/

/-- A pier reports a failure at once (R32): the anchor receives the status bits for the open attempt. -/
def State.reportFail (s : State) (f : Nat) (bits : Nat) : State :=
  match s.openStep f with
  | none => s
  | some (k, n, a) =>
    (s.modSeq f fun q => { q with failedBits := q.failedBits ||| bits }).send (pierMaster f) tyReport k n a (s.anchorDst k) bits [1, 1, 0]

/-- A unit of a span that is no pier reports a failure to the anchor while a step is open (R341). -/
def State.reportSpan (s : State) (k master bits : Nat) : State :=
  if (s.span k).step.isSome then
    s.send master tyReport k ((s.span k).committed + 1) (s.span k).attempt (s.anchorDst k) bits [1, 1, 0]
  else s

/-- The report bit of a NACK code (R284). -/
def nackBit (c : Nat) : Nat :=
  if c = nackReset ∨ c = nackRetired then 0x20
  else if c = nackAccess ∨ c = nackAbsent ∨ c = nackOff then 0x40
  else 0x10

/-! ### Refusals at a target (R16, R158, R256, R284, R367) -/

/-- The access-table target of an access, for the record of a refusal. -/
def State.targetOf (s : State) (a : Nat) : Nat :=
  if addrRegion a = 8 then targetScratch (addrField a)
  else match s.setOf a with
    | some k => let d := s.setDesc k; targetTower ((d.atPos (d.posRow a).1 (d.posRow a).2 a).1 / 8)
    | none => 0

/-- Does an access of `n` bytes meet a tower address that lies in no VALID set? -/
def State.outsideSets (s : State) (a n : Nat) : Bool := addrRegion a == 0 && (partsOf a n).any fun p => (s.setOf p.1).isNone

/-- An access of the device's own units that nothing has answered: event 0x0813 if an address of it lies in no VALID set (R256). -/
def State.noteOutside (s : State) (a n : Nat) : State := if s.outsideSets a n then s.supEvent 0x0813 [] else s

/-- What a refused access records at its target: an access violation (R367), an access-class event whose code the spec does not name (R16;
notes/assumptions/17), that no VALID set has the address (R256), or that a bank is not ACTIVE, which a pier of a span also reports (R158). -/
def State.noteRefusal (s : State) (master span : Nat) (right : Right) (a n code : Nat) : State :=
  if code = nackAccess then s.violation (s.targetOf a) master span right a
  else if code = nackAbsent ∧ addrRegion a = 8 then (s.supEvent (0x0800 + (s.free 8).toNat) []).nextFree
  else if code = nackAbsent then s.noteOutside a n
  else if code = nackOff ∧ addrRegion a = 8 ∧ (s.field (addrField a)).power.state = .on then
    (s.event (pierMaster (addrField a)) 0x0811 []).reportFail (addrField a) 0x40
  else s

end Sys2Proof.Machine
end

