-- ==== Sys2Proof/Machine/MoverOps.lean ====
section
/-! DEFINITION. Mover channels: register sets and their checks, what a transfer writes, triggers, starts, completion and errors
(R318 to R346). -/

namespace Sys2Proof.Machine

/-! ### Register sets -/

/-- A register set from its 64 bytes (R323). -/
def MoverSet.ofBytes (l : List Byte) : MoverSet :=
  { src := leAt l 0 8, dst := leAt l 8 8, length := leAt l 16 4, op := leAt l 20 1, trigger := leAt l 21 1, prio := leAt l 22 1
    flags := leAt l 23 1, trigArg := leAt l 24 8, countA := leAt l 32 2, esize := leAt l 34 1, countB := leAt l 36 4
    srcPitch := leAt l 40 4, dstPitch := leAt l 44 4, pattern := leAt l 48 8, user := leAt l 56 4 }

/-- The 64 bytes of a register set (R323). -/
def MoverSet.toBytes (m : MoverSet) : List Byte :=
  leBytes 8 m.src ++ leBytes 8 m.dst ++ leBytes 4 m.length ++ leBytes 1 m.op ++ leBytes 1 m.trigger ++ leBytes 1 m.prio ++
  leBytes 1 m.flags ++ leBytes 8 m.trigArg ++ leBytes 2 m.countA ++ leBytes 1 m.esize ++ zeros 1 ++ leBytes 4 m.countB ++
  leBytes 4 m.srcPitch ++ leBytes 4 m.dstPitch ++ leBytes 8 m.pattern ++ leBytes 4 m.user ++ zeros 4

/-- Does a write of a set keep every reserved bit 0 (R13, R323)? -/
def moverReservedOk (l : List Byte) : Bool :=
  leAt l 6 2 == 0 && leAt l 14 2 == 0 && leAt l 22 1 < 4 && leAt l 23 1 < 8 && leAt l 35 1 == 0 && leAt l 60 4 == 0

/-- Are the bits of TRIG_ARG that a trigger reserves 0 (R331)? -/
def trigReservedOk (trigger arg : Nat) : Bool :=
  match trigger with
  | 2 => arg < 16
  | 3 => arg < 65536
  | 4 => arg < 2 ^ 24 && (if arg.testBit 15 then bits arg 6 9 == 0 else bits arg 14 1 == 0)
  | _ => true

/-- FLAGS bit 0: interrupt on completion. -/
def MoverSet.irq (m : MoverSet) : Bool := m.flags.testBit 0
/-- FLAGS bit 1: PAD. -/
def MoverSet.pad (m : MoverSet) : Bool := m.flags.testBit 1
/-- FLAGS bit 2: RELOAD. -/
def MoverSet.reload (m : MoverSet) : Bool := m.flags.testBit 2
/-- w, the element size in bytes (ESIZE 1 to 3). -/
def MoverSet.width (m : MoverSet) : Nat := 2 ^ (m.esize - 1)
/-- b, the bits of an element of PLANE_SPLIT and PLANE_MERGE (R326). -/
def MoverSet.planeBits (m : MoverSet) : Nat := if m.esize = 0 then 4 else 8
/-- n, the elements of PLANE_SPLIT and PLANE_MERGE. -/
def MoverSet.planeElems (m : MoverSet) : Nat := m.length * 8 / m.planeBits
/-- Bytes of one tile of 32 × 32 elements (R153, R330). -/
def MoverSet.tileBytes (m : MoverSet) : Nat := if m.esize = 0 then 512 else 1024 * m.width

/-- The span that MOVER_SPAN assigns to channel `c` of field `f`, 0xFF for none (R346). -/
def State.moverSpan (s : State) (f c : Nat) : Nat := leAt (leBytes 16 (s.reg regMoverSpan f)) c 1

/-- The channels of a block carry the epochs of the spans that they are assigned to (R320), 0 for none. -/
def State.moverEpochs (s : State) (f : Nat) : State :=
  (List.range 16).foldl (fun t c =>
    let k := t.moverSpan f c
    t.modMover f c fun x => { x with epoch := if k < 8 then (t.span k).epoch else 0 }) s

/-- The event trigger of a set and how many events a start needs (R331, R332). -/
def MoverSet.needs (m : MoverSet) : Nat := if m.trigger = 4 then bits m.trigArg 16 8 + 1 else 1

/-- R321 and R15: an address in the tower or the scratchpad region. -/
def moverAddrOk (a : Nat) : Bool := a < 2 ^ 48 && (addrRegion a == 0 || addrRegion a == 8)

/-- Does TRIG_ARG fit the trigger (R331, R334)? -/
def State.moverTrigOk (s : State) (f c : Nat) (m : MoverSet) : Bool :=
  match m.trigger with
  | 0 => m.trigArg == 0
  | 1 => true
  | 2 => m.trigArg < 16 && m.trigArg != c
  | 3 => (m.trigArg < 2 || (m.trigArg % 256 == 2 && m.trigArg < 65536)) && s.memberOf f == some (s.moverSpan f c)
  | 4 => trigReservedOk 4 m.trigArg
  | _ => false

/-- Do the fields fit the operation (R323, R326)? -/
def moverOpOk (m : MoverSet) : Bool :=
  let w := m.width
  let noPattern := m.pattern == 0
  let noCounts := m.countA == 0 && m.countB == 0
  let aligned (n a : Nat) : Bool := a % n == 0
  match m.op with
  | 0 => 1 ≤ m.length && m.length ≤ 2 ^ 26 && noCounts && m.esize == 0 && m.srcPitch == 0 && m.dstPitch == 0 && noPattern && !m.pad &&
      moverAddrOk m.src
  | 1 => 1 ≤ m.length && m.length ≤ 2 ^ 26 && noCounts && m.esize == 0 && m.srcPitch == 0 && m.dstPitch == 0 && m.src == 0 && !m.pad
  | 2 => 1 ≤ m.countA && m.countA ≤ 1024 && 1 ≤ m.countB && m.countB ≤ 65536 && 1 ≤ m.esize && m.esize ≤ 3 &&
      m.length == m.countA * m.countB * w && m.length ≤ 2 ^ 28 && m.countA * w ≤ m.srcPitch && m.countB * w ≤ m.dstPitch && noPattern &&
      [m.src, m.dst, m.srcPitch, m.dstPitch].all (aligned w) && (!m.pad || (aligned 512 m.dst && aligned 512 m.dstPitch)) &&
      moverAddrOk m.src
  | 3 => 1 ≤ m.countA && m.countA ≤ 1024 && 1 ≤ m.countB && m.countB ≤ 65536 && 1 ≤ m.esize && m.esize ≤ 3 &&
      m.length == m.countA * m.countB * w && m.length ≤ 2 ^ 28 && m.countB * w ≤ m.srcPitch && m.countA * w ≤ m.dstPitch && noPattern &&
      [m.src, m.dst, m.srcPitch, m.dstPitch].all (aligned w) && (!m.pad || (aligned 512 m.src && aligned 512 m.srcPitch)) &&
      moverAddrOk m.src
  | 4 => m.esize ≤ 1 && 1 ≤ m.length && m.length ≤ 2 ^ 26 && m.planeElems % 4096 == 0 && m.length == m.planeElems * m.planeBits / 8 &&
      noCounts && m.srcPitch == 0 && m.planeElems / 8 ≤ m.dstPitch && aligned 64 m.dst && noPattern && !m.pad && moverAddrOk m.src
  | 5 => m.esize ≤ 1 && 1 ≤ m.length && m.length ≤ 2 ^ 26 && m.planeElems % 4096 == 0 && m.length == m.planeElems * m.planeBits / 8 &&
      noCounts && m.dstPitch == 0 && m.planeElems / 8 ≤ m.srcPitch && aligned 64 m.src && noPattern && !m.pad && moverAddrOk m.src
  | 6 => m.length == 0 && 1 ≤ m.countA && m.countA ≤ 4096 && m.countB == 0 && m.esize ≤ 3 && m.tileBytes ≤ m.srcPitch &&
      m.tileBytes ≤ m.dstPitch && [m.src, m.dst, m.srcPitch, m.dstPitch].all (aligned 64) && noPattern && !m.pad && moverAddrOk m.src
  | _ => false

/-- The check of GO and ARM_SHADOW (R325). -/
def State.moverSetOk (s : State) (f c : Nat) (m : MoverSet) : Bool :=
  moverOpOk m && moverAddrOk m.dst && s.moverTrigOk f c m && m.prio < 4 && m.flags < 8

/-! ### What a transfer moves -/

/-- Bit `k` of element `i` of elements of `b` bits in the order of R110. -/
def elemBit (l : List Byte) (b i k : Nat) : Bool := (ofLe (slice ((i * b + k) / 8) 1 l)).testBit ((i * b + k) % 8)

/-- The bytes whose bits are given, bit i of byte q from `g (8q + i)`. -/
def bytesOfBits (n : Nat) (g : Nat → Bool) : List Byte :=
  (List.range n).map fun q => BitVec.ofNat 8 (packBools ((List.range 8).map fun i => g (8 * q + i)))

/-- The transpose of one tile of 32 × 32 elements of `b` bits (R153, R330). -/
def transposeTile (b : Nat) (l : List Byte) : List Byte :=
  bytesOfBits (128 * b) fun j =>
    let e := j / b
    elemBit l b (32 * (e % 32) + e / 32) (j % b)

/-- What the engine reads and then writes at one time: address and bytes. -/
structure MoverStep where
  reads  : List (Nat × Nat)
  writes : List (Nat × Nat)
deriving DecidableEq, Repr

/-- `n` items in pieces of at most `k`: first item and number. -/
def piecesOf (k n : Nat) : List (Nat × Nat) := (List.range ((n + k - 1) / k)).map fun i => (k * i, min k (n - k * i))

/-- A transfer in the order in which the engine works: DEINTERLEAVE and INTERLEAVE in tiles of 16 audio channels by 512/w frames, ascending
by channel, then by frame, with runs of 512 bytes on the plane side and of 16w bytes on the other (R328); TRANSPOSE in tiles (R330); the
others in ascending pieces (notes/assumptions/34). -/
def MoverSet.steps (m : MoverSet) : List MoverStep :=
  let w := m.width
  let b := m.planeBits
  let tiles (g : Nat × Nat → Nat × Nat → MoverStep) : List MoverStep :=
    ((piecesOf 16 m.countA).map fun c => (piecesOf (512 / w) m.countB).map fun t => g c t).flatten
  match m.op with
  | 0 => (piecesOf 1024 m.length).map fun x => ⟨[(m.src + x.1, x.2)], [(m.dst + x.1, x.2)]⟩
  | 1 => (piecesOf 1024 m.length).map fun x => ⟨[], [(m.dst + x.1, x.2)]⟩
  | 2 => tiles fun c t =>
    ⟨(List.range t.2).map fun i => (m.src + (t.1 + i) * m.srcPitch + c.1 * w, c.2 * w),
      (List.range c.2).map fun i => (m.dst + (c.1 + i) * m.dstPitch + t.1 * w, if m.pad then 512 else t.2 * w)⟩
  | 3 => tiles fun c t =>
    ⟨(List.range c.2).map fun i => (m.src + (c.1 + i) * m.srcPitch + t.1 * w, t.2 * w),
      (List.range t.2).map fun i => (m.dst + (t.1 + i) * m.dstPitch + c.1 * w, c.2 * w)⟩
  | 4 => (piecesOf 4096 m.planeElems).map fun x =>
    ⟨[(m.src + x.1 * b / 8, x.2 * b / 8)], (List.range b).map fun k => (m.dst + k * m.dstPitch + x.1 / 8, x.2 / 8)⟩
  | 5 => (piecesOf 4096 m.planeElems).map fun x =>
    ⟨(List.range b).map fun k => (m.src + k * m.srcPitch + x.1 / 8, x.2 / 8), [(m.dst + x.1 * b / 8, x.2 * b / 8)]⟩
  | 6 => (List.range m.countA).map fun t => ⟨[(m.src + t * m.srcPitch, m.tileBytes)], [(m.dst + t * m.dstPitch, m.tileBytes)]⟩
  | _ => []

/-- What the writes of a step hold, given what its reads delivered (R327 to R330). -/
def MoverSet.stepBytes (m : MoverSet) (x : MoverStep) (data : List (List Byte)) : List (List Byte) :=
  let w := m.width
  match m.op with
  | 0 => data
  | 1 => x.writes.map fun a => (List.range a.2).map fun i => BitVec.ofNat 8 (m.pattern / 256 ^ ((a.1 - m.dst + i) % 8))
  | 2 => x.writes.zipIdx.map fun a => padTo a.1.2 (data.map fun l => slice (a.2 * w) w l).flatten
  | 3 => x.writes.zipIdx.map fun a => (data.map fun l => slice (a.2 * w) w l).flatten
  | 4 => x.writes.zipIdx.map fun a => bytesOfBits a.1.2 fun i => elemBit (data.headD []) m.planeBits i a.2
  | 5 => x.writes.map fun a => bytesOfBits a.2 fun j => elemBit (data.getD (j % m.planeBits) []) 1 (j / m.planeBits) 0
  | _ => data.map (transposeTile (m.tileBytes / 128))

/-- The reads of a transfer: address and bytes. -/
def MoverSet.reads (m : MoverSet) : List (Nat × Nat) := (m.steps.map (·.reads)).flatten

/-- The writes of a transfer: address and bytes. -/
def MoverSet.targets (m : MoverSet) : List (Nat × Nat) := (m.steps.map (·.writes)).flatten

/-- Do source and destination of a transfer overlap (R327)? -/
def MoverSet.overlapping (m : MoverSet) : Bool := m.reads.any fun r => m.targets.any fun w => overlaps r.1 r.2 w.1 w.2

/-- How many free values a transfer's writes take: those of one whose source and destination overlap. -/
def MoverSet.openBytes (m : MoverSet) : Nat := if m.overlapping then (m.targets.map (·.2)).sum else 0

/-- Writes of free values, from the `n`-th on. -/
def openWrites : Nat → List (Nat × Nat) → List (Nat × List Byte)
  | _, [] => []
  | n, x :: r => (x.1, (List.range x.2).map fun i => Config.freeValue (n + i) 8) :: openWrites (n + x.2) r

/-- The writes of one step of a transfer. -/
def State.stepWrites (s : State) (m : MoverSet) (x : MoverStep) : List (Nat × List Byte) :=
  (x.writes.map (·.1)).zip (m.stepBytes x (x.reads.map fun r => s.peekAny r.1 r.2))

/-- The writes of a transfer in order: address and bytes (R327 to R330).  Where source and destination overlap, the bytes are free (R327). -/
def State.moverWrites (s : State) (m : MoverSet) : List (Nat × List Byte) :=
  if m.overlapping then openWrites s.freeCount m.targets else (m.steps.map (s.stepWrites m)).flatten

/-- The source bytes of a whole transfer (R324). -/
def moverBytes (m : MoverSet) : Nat := if m.op = 6 then m.countA * m.tileBytes else m.length

/-- The endpoint of a write and its number: a destination bank of a field, or a destination tower channel (R337). -/
def State.endpointOf (s : State) (a : Nat) : Nat :=
  if addrRegion a = 8 then 256 + addrField a * 64 + windowBank a
  else ((s.writeCopies a).head?.map (·.1)).getD 255

/-- The table of 16 endpoints after a write at `a`, least recently written first, and the addresses whose READBACKs freed an entry
(R337). -/
def endpointStep (t : List (Nat × Nat) × List Nat) (e a : Nat) : List (Nat × Nat) × List Nat :=
  if t.1.any (·.1 == e) then (t.1.filter (·.1 != e) ++ [(e, a)], t.2)
  else if t.1.length < 16 then (t.1 ++ [(e, a)], t.2)
  else (t.1.drop 1 ++ [(e, a)], t.2 ++ (t.1.take 1).map (·.2))

/-- The endpoint table at the end of a transfer's writes, and the READBACKs sent on the way. -/
def State.endpointTable (s : State) (ws : List (Nat × Nat)) : List (Nat × Nat) × List Nat :=
  ws.foldl (fun t w => (partsOf w.1 w.2).foldl (fun u p => endpointStep u (s.endpointOf p.1) p.1) t) ([], [])

/-- The first access of a transfer, in order, that its target would refuse (R321): NACK code, right, address and length. -/
def State.moverRefusal (s : State) (f c : Nat) (m : MoverSet) : Option (Nat × Right × Nat × Nat) :=
  let code (right : Right) (r : Nat × Nat) : Nat × Right × Nat × Nat := (s.accessCode (moverMaster f c) (s.moverSpan f c) right r.1 r.2, right, r.1, r.2)
  ((m.steps.map fun x => x.reads.map (code .r) ++ x.writes.map (code .w)).flatten).find? (·.1 != 0)

/-! ### Errors (R340) -/

/-- The event of an error code (R340). -/
def moverEventCode (c : Nat) : Nat :=
  if c = 1 ∨ c = 3 ∨ c = 7 then 0x0820
  else if c = 2 then 0x0821
  else if c = 4 then 0x0312
  else if c = 16 ∨ c = 17 then 0x0822
  else if c = 18 then 0x0A13
  else 0x0607

/-- An interrupt to a field's processor cluster (R347): 1 a mover's completion or error, 2 NOTIFY, 3 a mailbox write, 4 a span reset, 5 the
quiesce of a field restart (R499). -/
def State.interrupt (s : State) (f cause : Nat) (args : List Nat) : State := s.emit (.interrupt f cause args)

/-- A channel enters ERROR with a code (R340, R341): count, event, interrupt, and the failed report to its span. -/
def State.moverFail (s : State) (f c code addr : Nat) : State :=
  let s1 := s.modMover f c fun m => { m with state := .error, errCode := code, errAddr := addr, stopFault := false, attempt := none }
  let s2 := ((s1.bump regMoverErrors f 1).event (moverMaster f c) (moverEventCode code) (items1 [f, c, code])).interrupt f 1
    [c, ((s.field f).mover c).active.user]
  let k := s.moverSpan f c
  if k < 8 ∧ code < 16 then s2.reportSpan k (moverMaster f c) (nackBit code) else s2

/-- Channels armed on the completion of channel `c` end in ERROR with code CHAIN when it ends in ERROR (R342), and so do those
chained on them. -/
def moverChainFail (f : Nat) : Nat → State → Nat → State
  | 0, s, _ => s
  | fuel + 1, s, c =>
    (List.range 16).foldl (fun t e =>
      let m := (t.field f).mover e
      if m.state = .armed ∧ m.active.trigger = 2 ∧ m.active.trigArg = c then moverChainFail f fuel (t.moverFail f e 17 0) e else t) s

/-- A channel ends in ERROR, and with it those chained on it. -/
def State.moverError (s : State) (f c code addr : Nat) : State := moverChainFail f 16 (s.moverFail f c code addr) c

/-! ### Starts (R331 to R335) -/

/-- Device time of a field's timebase (R447 to R450): it stands at the value where the field holds it until the beacons reach that. -/
def State.fieldTime (s : State) (f : Nat) : Nat :=
  let c := (s.field f).clock
  max c.heldAt ((s.now : Int) + c.offset).toNat

/-- The engine's send slot goes to the highest priority (R335): every RUNNING channel of a lower priority than some RUNNING one enters
PREEMPTED. -/
def State.moverPreempt (s : State) (f : Nat) : State :=
  let top := (s.field f).movers.foldl (fun p m => if m.state = .running then max p m.active.prio else p) 0
  (List.range 16).foldl (fun t c =>
    let m := (t.field f).mover c
    if m.state = .running ∧ m.active.prio < top then
      (t.modMover f c fun x => { x with state := .preempted }).bump regPreemptions f 1
    else t) s

/-- An ARMED channel starts at byte 0 (R331): it consumes its events (R332); a transfer that a step opening or a NOTIFY starts belongs to
the open attempt (R334). -/
def State.moverStart (s : State) (f c : Nat) (late : Bool) : State :=
  let m := (s.field f).mover c
  let uses := if m.active.trigger = 2 ∨ m.active.trigger = 3 ∨ m.active.trigger = 4 then m.active.needs else 0
  let own := if m.active.trigger = 3 ∧ m.active.trigArg % 256 ≠ 0 then (s.openStep f).map (·.2) else none
  let s1 := s.modMover f c fun x =>
    { x with state := .running, pending := x.pending - uses, bytesDone := 0, endpoints := [], attempt := own
             late := if m.active.trigger = 1 then late else x.late }
  (if m.active.trigger = 1 ∧ late then s1.bump regLateStarts f 1 else s1).moverPreempt f

/-- A channel that is ARMED starts if its trigger is satisfied already (R331, R333); a TIMER waits for the field's first beacon (R450). -/
def State.moverTry (s : State) (f c : Nat) : State :=
  let m := (s.field f).mover c
  if m.state ≠ .armed then s
  else match m.active.trigger with
    | 0 => s.moverStart f c false
    | 1 => if m.active.trigArg ≤ s.fieldTime f ∧ (s.field f).clock.errors ≠ [] then s.moverStart f c (decide (m.active.trigArg < s.fieldTime f)) else s
    | _ => if m.active.needs ≤ m.pending then s.moverStart f c false else s

/-- An event of a channel's trigger source (R332): counted from the moment the set is armed, at most 255. -/
def State.moverEvent (s : State) (f c : Nat) : State :=
  let m := (s.field f).mover c
  if m.state = .idle ∨ m.state = .error then s
  else if m.pending = 255 then
    ((s.modMover f c fun x => { x with overrun := true }).bump regTriggerOverruns f 1).event (moverMaster f c) 0x0823
      (items1 [f, c])
  else (s.modMover f c fun x => { x with pending := x.pending + 1 }).moverTry f c

/-- An event reaches every channel of a block whose trigger it is. -/
def State.moverEvents (s : State) (f : Nat) (isMine : MoverSet → Bool) : State :=
  (List.range 16).foldl (fun t c => if isMine ((t.field f).mover c).active then t.moverEvent f c else t) s

/-- The pier of a field signals an event of R331: kind 0 keystone advance, 1 step opened, 2 NOTIFY with its code. -/
def State.moverSeqEvent (s : State) (f kind code : Nat) : State :=
  s.moverEvents f fun m => m.trigger == 3 && m.trigArg % 256 == kind && (kind != 2 || m.trigArg / 256 % 256 == code)

/-- A media event (R331): the block of a group is ready, or a stream's frame. -/
def State.moverMediaEvent (s : State) (isGroup : Bool) (n : Nat) : State :=
  (List.range 30).foldl (fun t f =>
    t.moverEvents f fun m => m.trigger == 4 && m.trigArg.testBit 15 == isGroup && bits m.trigArg 0 (if isGroup then 6 else 14) == n) s

/-- SHADOW is loaded (R332, R342): PENDING carries over when trigger and argument are equal. -/
def State.moverReload (s : State) (f c : Nat) : State :=
  let m := (s.field f).mover c
  if m.active.reload ∧ m.shadowValid then
    let same := m.shadow.trigger = m.active.trigger ∧ m.shadow.trigArg = m.active.trigArg
    (s.modMover f c fun x =>
      { x with active := x.shadow, shadowValid := false, state := .armed, pending := if same then x.pending else 0 }).moverTry f c
  else s.modMover f c fun x => { x with state := .idle }

/-! ### Aborts and epochs -/

/-- A span aborts an attempt (R343): its transfers that belong to the attempt stop. -/
def State.moversAbort (s : State) (f k : Nat) : State :=
  (List.range 16).foldl (fun t c =>
    let m := (t.field f).mover c
    if t.moverSpan f c = k ∧ m.attempt.isSome ∧ (m.state = .running ∨ m.state = .preempted ∨ m.state = .completing) then
      t.modMover f c fun x => { x with state := .stopping, stopFault := false }
    else t) s

/-- Does a channel of span `k` in field `f` still stop for an ABORT (R343)? -/
def State.moversStopping (s : State) (f k : Nat) : Bool :=
  (List.range 16).any fun c =>
    let m := (s.field f).mover c
    s.moverSpan f c == k && m.attempt.isSome && m.state == .stopping

/-- The parts of a transfer's writes that its targets accept, flits of scratchpad rows and granule parts of towers, in order; none of a step
whose source cannot be read. -/
def State.moverParts (s : State) (f c : Nat) : List (Nat × List Byte) :=
  let m := ((s.field f).mover c).active
  let good (right : Right) (r : Nat × Nat) : Bool := s.accessCode (moverMaster f c) (s.moverSpan f c) right r.1 r.2 == 0
  let cut (w : Nat × List Byte) : List (Nat × List Byte) :=
    (if addrRegion w.1 = 8 then flitsOf w.1 w.2.length else partsOf w.1 w.2.length).map fun p => (p.1, slice (p.1 - w.1) p.2 w.2)
  let writes := if m.overlapping then s.moverWrites m
    else ((m.steps.filter fun x => x.reads.all (good .r)).map (s.stepWrites m)).flatten
  (writes.map cut).flatten.filter fun x => good .w (x.1, x.2.length)

/-- Does a transfer read or write a row of a WAKING bank (R158)? -/
def State.moverAsleep (s : State) (m : MoverSet) : Bool :=
  (m.reads ++ m.targets).any fun r => s.windowAsleep r.1 r.2

/-- The narrow writes among flits written one after another are counted, each in its field (R140, R163). -/
def State.countNarrow (s : State) (l : List (Nat × Nat)) : State :=
  (narrowFlits l).foldl (fun t a => if addrRegion a = 8 then t.bump regNarrowWrites (addrField a) 1 else t) s

/-- A transfer has stopped before its last write (R340, R342, R343): which parts of it have been written is open, and so is BYTES_DONE
(notes/assumptions/34). -/
def State.moverTorn (s : State) (f c : Nat) : State :=
  let m := ((s.field f).mover c).active
  let s0 := { s with freeCount := s.freeCount + m.openBytes }
  let parts := s.moverParts f c
  let landed : List (Nat × List Byte) := (parts.zipIdx.filter fun x => Config.freeValue (s0.freeCount + x.2) 1 == 1).map (·.1)
  let s1 := (landed.foldl (fun (t : State) x => (t.pokeAny x.1 x.2).bump regMoverBytes f x.2.length)
    { s0 with freeCount := s0.freeCount + parts.length }).countNarrow (landed.map fun x => (x.1, x.2.length))
  (s1.modMover f c fun x => { x with bytesDone := (s1.free 32).toNat % moverBytes m }).nextFree

/-- A new epoch is installed for span `k` (R344): channels at work end with code EPOCH, and all carry the new epoch. -/
def State.moversEpoch (s : State) (f k e : Nat) : State :=
  (List.range 16).foldl (fun t c =>
    if t.moverSpan f c ≠ k then t else
      let m := (t.field f).mover c
      let t1 := match m.state with
        | .running | .preempted => (t.moverTorn f c).moverError f c 18 0
        | .completing => t.moverError f c 18 0
        | _ => t
      t1.modMover f c fun x => { x with epoch := e }) s

/-- The field goes DARK (R342): registers are lost, and each write of an open transfer has landed or not (notes/assumptions/34). -/
def State.moversDark (s : State) (f : Nat) : State :=
  ((List.range 16).foldl (fun t c =>
    let m := (t.field f).mover c
    match m.state with
    | .running | .preempted | .stopping => if m.bytesDone = moverBytes m.active then t else t.moverTorn f c
    | _ => t) s).modField f fun x => { x with movers := List.replicate 16 .reset }

/-- STATUS of a channel (R324). -/
def MoverState.code : MoverState → Nat
  | .idle => 0 | .armed => 1 | .running => 2 | .preempted => 3 | .completing => 4 | .error => 5 | .stopping => 6

/-- The STATUS register (R324); ERR_CODE is set with ERROR (R340). -/
def Mover.status (m : Mover) : Nat :=
  m.state.code * 2 ^ 28 + m.pending * 2 ^ 16 + (if m.state = .error then m.errCode else 0) * 2 ^ 8 + boolNat m.shadowValid * 2 ^ 7 +
  boolNat m.late * 2 ^ 6 + boolNat m.overrun * 2 ^ 5

end Sys2Proof.Machine
end

