-- ==== Sys2Proof/Machine/Commit.lean ====
section
/-! DEFINITION. Steps and keystones: the keystone record, what opens a step, what a keystone moves, what an abort discards, and the
proposals that a verify step finds (R20 to R56, R219 to R227, R235). -/

namespace Sys2Proof.Machine

/-! ### The keystone record (R27, R30) -/

/-- The 64 bytes of a keystone record (R27). -/
def keystoneBytes (step epoch attempt : Nat) (select : Bool) (outTail reqHead time : Nat) : List Byte :=
  withCrc (leBytes 8 step ++ leBytes 1 epoch ++ leBytes 1 attempt ++ leBytes 1 (boolNat select) ++ zeros 1 ++ leBytes 4 outTail ++
    leBytes 4 reqHead ++ zeros 4 ++ leBytes 8 time ++ zeros 28)

/-- The record of span `k`'s committed state. -/
def Span.record (p : Span) : List Byte := keystoneBytes p.committed p.epoch p.attempt p.select p.outTail p.reqHead p.keyTime

/-- The record of the step that is about to commit (R35). -/
def Span.nextRecord (p : Span) : List Byte :=
  keystoneBytes (p.committed + 1) p.epoch p.attempt (!p.select) p.provOutTail p.provReqHead p.writeTime

/-- Does the anchor of a span stand on another device (R354)?  That device holds the keystone records (R360). -/
def State.anchorAway (s : State) (k : Nat) : Bool := 1 < (s.span k).devices && leAt (s.placement k) 34 1 != (s.span k).device

/-- Write both copies; the device of the anchor alone holds them (R360). -/
def State.writeKeystone (s : State) (k : Nat) (l : List Byte) : State :=
  if s.anchorAway k then s else (s.poke (s.span k).addrA l).poke (s.span k).addrB l

/-- Can both copies be written and read back (R29)? -/
def State.copiesReachable (s : State) (k : Nat) : Bool := s.canPoke (s.span k).addrA 64 && s.canPoke (s.span k).addrB 64

/-- A copy of the record, if its CRC is valid (R28). -/
def State.keystoneAt (s : State) (a : Nat) : Option (List Byte) :=
  match s.peek a 64 with
  | some l => if crcGood 64 l then some l else none
  | none => none

/-- The record that governs a span: the copy of the higher valid STEP (R30). -/
def State.governing (s : State) (k : Nat) : Option (List Byte) :=
  match s.keystoneAt (s.span k).addrA, s.keystoneAt (s.span k).addrB with
  | some a, some b => if leAt a 0 8 < leAt b 0 8 then some b else some a
  | some a, none => some a
  | none, b => b

/-- The dictionary's view of a span's committed state, as the supervisor has it (R22, R28). -/
def State.showCommitted (s : State) (k : Nat) : State :=
  let p := s.span k
  ((s.setReg regCommittedStep k p.committed).setReg regKeystoneTime k p.keyTime).setReg regEpoch k p.epoch

/-! ### Requests (R48, R543, R544) -/

/-- Entry `i` of a span's request queue. -/
def State.requestEntry (s : State) (k i : Nat) : List Byte :=
  (s.peek ((s.span k).reqQueue + 512 + 256 * (i % 4096)) 256).getD (zeros 256)

/-- How many entries the request whose first entry is given takes (R544). -/
def requestEntries (l : List Byte) : Nat := 1 + (leAt l 6 2 - 224 + 255) / 256

/-- The requests of the `left` entries from entry `i` on, in order: header and payload. -/
def State.requestsFrom (s : State) (k : Nat) : Nat → Nat → Nat → List (List Byte × List Byte)
  | 0, _, _ => []
  | fuel + 1, left, i =>
    if left = 0 then [] else
      let h := s.requestEntry k i
      let n := requestEntries h
      let rest := ((List.range (n - 1)).map fun j => s.requestEntry k (i + 1 + j)).flatten
      (h.take 32, (slice 32 224 h ++ rest).take (leAt h 6 2)) :: s.requestsFrom k fuel (left - n) ((i + n) % 2 ^ 32)

/-- The tokens that a payload holds: U32 tokens, or text that the program of the span splits (notes/assumptions/15). -/
def payloadTokens (h p : List Byte) : Nat := if leAt h 5 1 = 0 then p.length / 4 else Config.promptTokens p

/-- A sequence takes `n` tokens on, one slot each behind its frontier (R232, R233). -/
def SeqEntry.grow (e : SeqEntry) (n : Nat) : SeqEntry :=
  { e with slots := e.slots ++ (List.range n).map fun i => (e.length.toNat + 1 + i, e.frontier.toNat + 1 + i)
           length := e.length + BitVec.ofNat 32 n, frontier := e.frontier + BitVec.ofNat 32 n }

/-- A consumed request acts on the length table (R232, R542; notes/assumptions/15): START begins a sequence, APPEND adds to it, CANCEL
ends it. -/
def applyRequest (k free : Nat) (l : List SeqEntry) (r : List Byte × List Byte) : List SeqEntry :=
  let seq := leAt r.1 8 4
  let n := payloadTokens r.1 r.2
  match leAt r.1 3 1 with
  | 1 =>
    let new : SeqEntry := ⟨seq, 0, 0, Config.kvCapacity k seq, 1, [], (Config.freeValue (free + seq) 32).toNat, leAt r.1 16 8⟩
    l.filter (·.seq != seq) ++ [new.grow n]
  | 2 => l.map fun e => if e.seq = seq then e.grow n else e
  | 4 => l.map fun e => if e.seq = seq then { e with flags := e.flags ||| 2 } else e
  | _ => l

/-- A sequence that has not ended (R232). -/
def SeqEntry.live (e : SeqEntry) : Bool := !e.flags.getLsbD 1
/-- A sequence with speculation enabled (R232). -/
def SeqEntry.enabled (e : SeqEntry) : Bool := e.flags.getLsbD 0
/-- A sequence that stays root-only (R238). -/
def SeqEntry.disabled (e : SeqEntry) : SeqEntry := { e with flags := e.flags &&& ~~~1 }
/-- The slots of a sequence's region that are left. -/
def SeqEntry.room (e : SeqEntry) : Nat := e.capacity.toNat - e.frontier.toNat

/-! ### The two spans of a pair (R219 to R222) -/

/-- The pair of a span that values of the dictionary give: its role and its partner, if it has one (R219). -/
def RegFile.pair (r : RegFile) (k : Nat) : Option (Nat × Nat) :=
  let role := r.value regSpecRole k 0
  let pair := r.value regPairSpan k 0
  if (role = 1 ∨ role = 2) ∧ pair < 8 then some (role, pair) else none

/-- The pair of a span for the next step that opens (R49, R219). -/
def State.pairOf (s : State) (k : Nat) : Option (Nat × Nat) := s.regs.pair k

/-- The pair of a span in force for its open step, or for the last one (R49, R219). -/
def State.pairIn (s : State) (k : Nat) : Option (Nat × Nat) := (s.span k).latched.pair k

/-- The node capacity C of the selected body of a TARGET: 0 for a body that does not verify (R225). -/
def RegFile.verifyNodes (r : RegFile) (k : Nat) : Nat :=
  if r.value regSpecRole k 0 = 1 then leAt (leBytes 8 (r.value regVariantNodes k 0)) (r.value regStepVariant k 0) 1 else 0

/-- Is the next step of a span a verify step: a TARGET with live sequences whose selected variant is a verify body (R225)? -/
def State.verifyNext (s : State) (k : Nat) : Bool := s.regs.verifyNodes k != 0 && (s.span k).seqs.any SeqEntry.live

/-- Is a notice waiting whose step the span has not acted on (R221)? -/
def Span.noticed (p : Span) : Bool := Nat.blt p.draftActed p.noticeStep

/-- The proposal record of draft span `d` for sequence `e` of target step `n` (R226). -/
def State.proposalRecord (s : State) (d n : Nat) (e : SeqEntry) : List Byte :=
  (s.peek ((s.span d).outQueue + 512 + 512 * (2 * e.seq + n % 2)) 512).getD []

/-- Has the draft `d` committed a proposal for the next step of span `k` for every live sequence that speculates (R220)?  A record whose CRC is
wrong counts, and is replaced when the step opens (R227; notes/assumptions/72). -/
def State.proposalsReady (s : State) (k d : Nat) : Bool :=
  let p := s.span k
  let n := p.committed + 1
  p.noticed && (p.seqs.filter fun e => e.live && e.enabled).all fun e =>
    let l := s.proposalRecord d n e
    leAt l 328 8 == n || !crcGood 512 l

/-- Is it a span's turn (R220)?  A verify step waits for its proposals or for the timeout; a step of a DRAFT for accept entries that it has not
consumed, and for the supervisor's write of its variant (R222). -/
def State.turn (s : State) (k : Nat) : Bool :=
  let p := s.span k
  match s.pairOf k with
  | some (2, t) =>
    let n := (s.span t).verifyAt
    Nat.blt p.draftActed n && Nat.ble n p.noticeStep && Nat.ble n p.variantFor
  | some (_, d) => !s.verifyNext k || p.proposalLate || s.proposalsReady k d
  | none => !s.verifyNext k || p.proposalLate

/-- Work waits for a span (R54, R220). -/
def State.workWaiting (s : State) (k : Nat) : Bool :=
  let p := s.span k
  p.arrival != p.reqHead || p.moreChunks || ((s.verifyNext k || (s.pairOf k).any (·.1 == 2)) && s.turn k)

/-- May the next step of a span open (R220, R385)?  A step of either span of a pair waits for its turn and for the end of the other's verify or
draft step, and any step for the rewrite of a bank. -/
def State.mayOpen (s : State) (k : Nat) : Bool :=
  let p := s.span k
  let partnerOpen := (s.pairOf k).any fun x => (s.span x.2).step.isSome
  s.turn k && !(partnerOpen && (s.verifyNext k || (s.pairOf k).any (·.1 == 2))) &&
  !p.here.any fun f => (s.field f).banks.any fun b => b.rewriting != 0

/-- Is a pause set for a span (R54)? -/
def State.pauseSet (s : State) (k : Nat) : Bool := s.reg regPause k == 1 || !(s.span k).pauses.isEmpty

/-! ### Proposals (R226, R227, R235) -/

/-- Does a parent list of `n` nodes keep R223? -/
def parentsOk (l : List Nat) (n : Nat) : Bool :=
  let depths := (List.range n).foldl (fun d j => d ++ [if j = 0 then 0 else d.getD (l.getD j 0) 99 + 1]) []
  l.getD 0 0 == 255 && (List.range n).all fun j => (j == 0 || l.getD j 255 < j) && depths.getD j 99 ≤ 15

/-- A root-only tree of capacity `c` (R227). -/
def rootOnly (e : SeqEntry) (c : Nat) (replaced : Bool) : Tree :=
  { seq := e.seq, parents := 255 :: List.replicate (c - 1) 0, tokens := e.pendingToken :: List.replicate (c - 1) 0xFFFFFFFF
    depth := 0, width := 0, replaced := replaced, trimmed := false }

/-- The first `n` nodes of a tree stay; the others become pad nodes (R235). -/
def Tree.trim (t : Tree) (n : Nat) : Tree :=
  if t.parents.length ≤ n then t else
    { t with parents := t.parents.take n ++ List.replicate (t.parents.length - n) 0
             tokens := t.tokens.take n ++ List.replicate (t.parents.length - n) 0xFFFFFFFF, trimmed := true }

/-- The proposal of the draft span `d` for sequence `e` of target step `n`, if it passes the checks of R227. -/
def State.proposal (s : State) (d n c : Nat) (e : SeqEntry) : Option Tree :=
  let l := s.proposalRecord d n e
  let nodes := leAt l 320 1
  let parents := (List.range nodes).map fun j => leAt l j 1
  let tokens := (List.range nodes).map fun j => leAt l (64 + 4 * j) 4
  if crcGood 512 l && leAt l 328 8 == n && leAt l 336 4 == e.length.toNat && leAt l 64 4 == e.pendingToken && nodes == c && parentsOk parents nodes
  then some { seq := e.seq, parents := parents, tokens := tokens, depth := leAt l 321 1, width := leAt l 322 1, replaced := false
              trimmed := false }
  else none

/-- The depths that DRAFT_DEPTHS holds, ascending (R222). -/
def presentDepths (l : List Byte) : List Nat := (List.range 16).filter fun d => d != 0 && (l.any fun b => b.toNat == d)

/-- The start shape for capacity `c` (R241); (0, 0) stands for root-only trees. -/
def startShape (present : List Nat) (c : Nat) : Nat × Nat :=
  let shaped (d : Nat) : Nat × Nat := (d, if 1 + 2 * d ≤ c then 2 else 1)
  if 9 ≤ c ∧ present.contains 4 then (4, 2)
  else match (present.filter fun d => d ≤ 4 && 1 + d ≤ c).getLast? with
    | some d => shaped d
    | none => match present.head? with
      | some d => if 4 < d ∧ 1 + d ≤ c then shaped d else (0, 0)
      | none => (0, 0)

/-- The depths and the capacity in force for a span's open step (R49, R225, R241). -/
def State.depthsIn (s : State) (k : Nat) : List Nat × Nat :=
  let r := (s.span k).latched
  (presentDepths (match r.pair k with
    | some (_, d) => leBytes 8 (r.value regDraftDepths d 0)
    | none => []), r.verifyNodes k)

/-- The step-open handler for one sequence of a verify step (R227, R235): its tree, and the events it records.  Trees are root-only after the
timeout, for a sequence that does not speculate, and while no present depth fits (R238, R241). -/
def State.openTree (s : State) (k : Nat) (d : Option Nat) (n c : Nat) (e : SeqEntry) : State :=
  let plain := (s.span k).proposalLate || !e.enabled || !(s.depthsIn k).1.any fun x => 1 + x ≤ c
  let found := if plain then none else d.bind fun x => s.proposal x n c e
  let tree := found.getD (rootOnly e c (!plain))
  let s := match if plain then none else d with
    | some x => s.noteRead ((s.span x).outQueue + 512 + 512 * (2 * e.seq + n % 2)) 512
    | none => s
  let s1 := if !plain && found.isNone then
      (s.bump regProposalsReplaced k 1).event (pierMaster (s.span k).anchor) 0x0A0B (leBytes 4 e.seq)
    else s
  if e.room = 0 then s1.event (pierMaster (s.span k).anchor) 0x0A0C (leBytes 4 e.seq)
  else s1.modSpan k fun p => { p with trees := p.trees ++ [if e.room < c then tree.trim e.room else tree] }

/-- The step-open handler of a verify step (R227). -/
def State.openTrees (s : State) (k : Nat) : State :=
  let p := s.span k
  let c := p.latched.verifyNodes k
  if c = 0 then s
  else (p.seqs.filter SeqEntry.live).foldl (fun t e => t.openTree k ((p.latched.pair k).map (·.2)) (p.committed + 1) c e) s

/-- The working entry of a live sequence while a verify step runs (R233, R235): its provisional frontier covers the tree, and one without room
ends at the keystone. -/
def SeqEntry.verifying (e : SeqEntry) (c : Nat) : SeqEntry :=
  if !e.live then e
  else if e.room = 0 then { e with flags := e.flags ||| 2 }
  else { e with frontier := BitVec.ofNat 32 (min (e.frontier.toNat + c) e.capacity.toNat) }

/-- A DRAFT's entry for a sequence of its target (R237): it appends the root and the accepted tokens, so that its LENGTH is the target's. -/
def draftEntry (k : Nat) (own : List SeqEntry) (e : SeqEntry) : SeqEntry :=
  let mine := (own.find? (·.seq == e.seq)).getD ⟨e.seq, 0, 0, Config.kvCapacity k e.seq, e.flags, [], e.pendingToken, e.tag⟩
  { mine.grow (e.length.toNat - mine.length.toNat) with flags := e.flags, pendingToken := e.pendingToken, tag := e.tag }

/-- The working length table with which an attempt begins (R233, R235, R237). -/
def State.openWorking (s : State) (k : Nat) : State :=
  let p := s.span k
  let c := p.latched.verifyNodes k
  match p.latched.pair k with
  | some (2, t) => s.modSpan k fun q => { q with working := (s.span t).seqs.map (draftEntry k p.seqs) }
  | _ => if c = 0 then s else s.modSpan k fun q => { q with working := p.seqs.map (·.verifying c) }

/-! ### Opening a step -/

/-- A segment of the idle-slot tests on a pier stops (R388): its result is discarded. -/
def State.dropSegment (s : State) (f : Nat) : State :=
  match s.tests.segment with
  | some x => if x.1 = f then (s.modTests fun t => { t with segment := none }).bump regTestAbandoned f 1 else s
  | none => s

/-- The configuration of a span that is in force from the opening of a step (R49), with the draft depths of its partner (R222). -/
def State.configOf (s : State) (k : Nat) : RegFile :=
  s.regs.filter fun e => e.1 / 256 == 0x5100 + k || e.1 / 256 == 0x5200 + k || e.1 / 256 == 0xA100 + k ||
    e.1 == regDraftDepths.key (s.reg regPairSpan k) 0

/-- The first multiple of 1 µs at least 1 µs after now (R312). -/
def State.windowStart (s : State) : Nat := (s.now + 1000 + 999) / 1000 * 1000

/-- A timetable window is announced for the attempt that opens (R312); in holdover none opens, which is recorded once (R440). -/
def State.announceWindow (s : State) (k : Nat) : State :=
  let w := s.windowStart
  if (s.span k).timetable.loaded ∧ s.inForce k regMeshMode = 1 then
    if s.clocks.refState = .holdover then
      let s1 := s.modSpan k fun p => { p with timetable := { p.timetable with window := none, opened := false } }
      if s.clocks.timetableNoted then s1 else (s1.modClocks fun c => { c with timetableNoted := true }).supEvent 0x0206 []
    else s.modSpan k fun p => { p with timetable := { p.timetable with window := some w, opened := false, slot := 0, slipped := false } }
  else s

/-- The anchor opens step committed + 1 as attempt 0 (R25, R36, R54): configuration, requests, trees and marks of the step. -/
def State.stepOpens (s : State) (k : Nat) : State :=
  let p := s.span k
  let pred := if p.predClear then Predictor.reset else p.pred
  let s1 := s.modSpan k fun p =>
    { p with step := some .opened, attempt := 0, status := 0, windowSum := 0, clean := 0, doneCount := 0, charged := [], suspects := []
             latched := s.configOf k, provOutTail := p.outTail, provReqHead := p.reqHead, arrivalAtOpen := p.arrival, headTaken := none
             working := p.seqs, trees := [], pred := pred, predWork := pred, predClear := false, shapeWork := p.shape, verified := []
             barriers := [], mcasts := [] }
  let s2 := p.spare.toList.foldl State.banksApply (p.here.foldl (fun t f => (t.dropSegment f).banksApply f) s1)
  (((s2.openTrees k).openWorking k).announceWindow k).modSpan k fun p => { p with noticeOpen := p.noticeStep, proposalLate := false }

/-- The member piers on this device start the attempt (R198), and step openings reach the movers (R331). -/
def State.membersStart (s : State) (k : Nat) : State :=
  let p := s.span k
  p.here.foldl (fun t f => (t.attemptStart f (p.committed + 1) (t.inForce k regStepVariant)).moverSeqEvent f 1 0) s

/-- A READY span opens a step when work waits, no pause is set and its turn has come (R54). -/
def State.tryOpen (s : State) (k : Nat) : State :=
  if (s.span k).state = .ready ∧ s.workWaiting k ∧ s.mayOpen k ∧ !s.pauseSet k then
    ((s.setSpanState k .running).stepOpens k).membersStart k
  else s

/-- The live sequences of a span with KV on units that a set has lost are ended at recovery (R261; notes/assumptions/27). -/
def State.endSequences (s : State) (j : Nat) : State :=
  let p := s.span j
  let lost (e : SeqEntry) : Bool :=
    e.live && e.frontier != 0 && p.kvLost.any fun c => Config.kvOn j e.seq e.frontier.toNat c == 1
  let mark (e : SeqEntry) : SeqEntry := if lost e then { e with flags := e.flags ||| 2 } else e
  let s1 := s.modSpan j fun q => { q with seqs := q.seqs.map mark, working := q.seqs.map mark, kvLost := [] }
  (p.seqs.filter lost).foldl (fun t e => t.supEvent 0x050A (leBytes 1 j ++ leBytes 4 e.seq)) s1

/-- A PAUSED span returns to READY when the host has not paused it and nothing of the supervisor's is pending (R54). -/
def State.resume (s : State) (k : Nat) : State :=
  let p := s.span k
  if p.state = .paused ∧ !s.pauseSet k ∧ p.recovery.isEmpty ∧ p.epochDue = 0 then ((s.endSequences k).setSpanState k .ready).tryOpen k
  else s

/-! ### The keystone -/

/-- Every mark takes its provisional value (R20, R36): consumed requests, the length table, the predictor and the counters of R242. -/
def State.closeStep (s : State) (k : Nat) : State :=
  let p := s.span k
  let taken := (p.provReqHead + 2 ^ 32 - p.reqHead) % 2 ^ 32
  let s := if s.anchorAway k then s else
    (List.range (min taken 4096)).foldl (fun t i => t.noteRead (p.reqQueue + 512 + 256 * ((p.reqHead + i) % 4096)) 256) s
  let reqs := s.requestsFrom k (min taken 4096) taken p.reqHead
  let seqs := reqs.foldl (applyRequest k s.freeCount) p.working
  let at' := s.depthsIn k
  let differs := p.latched.verifyNodes k != 0 && p.shapeWork != startShape at'.1 at'.2 && !p.shapeSeen
  let s1 := s.modSpan k fun q =>
    { q with committed := q.committed + 1, step := none, select := !q.select, outTail := q.provOutTail, reqHead := q.provReqHead
             keyTime := q.writeTime, seqs := seqs, working := seqs, pred := q.predWork, shape := q.shapeWork, shapeSeen := q.shapeSeen || differs, failPauses := 0
             draftActed := max q.draftActed q.noticeOpen, verifyAt := if q.verified.isEmpty then q.verifyAt else q.committed + 1
             trees := [], verified := [], timetable := { q.timetable with window := none, opened := false } }
  let s2 := { s1 with freeCount := s1.freeCount + (if reqs.isEmpty then 0 else 4096) }
  let v (i : Nat) : Nat := p.verified.getD i 0
  let s3 := (((s2.bump regTreesVerified k (v 0)).bump regTokensEmitted k (v 1)).bump regAltAccepts k (v 2)).bump regHoleSlots k (v 3)
  let s4 := (s3.setReg regPredShape k (p.shapeWork.1 * 256 + p.shapeWork.2)).setReg regPredObservations k p.predWork.obs
  if differs then s4.event (pierMaster p.anchor) 0x0A0F
    (leBytes 1 k ++ leBytes 1 p.shapeWork.1 ++ leBytes 1 p.shapeWork.2 ++ zeros 1 ++ leBytes 4 (p.committed + 1)) else s4

/-- The anchor broadcasts the keystone advance (R35): to every member, the supervisor and the engine of the output queue. -/
def State.sendAdvance (s : State) (k : Nat) : State :=
  let p := s.span k
  let w := p.timetable.window.getD 0
  let a := pierMaster p.anchor
  let s1 := s.toMembers a tyAdvance k p.committed p.attempt p.members [p.outTail, w]
  let s2 := s1.send a tyAdvance k p.committed p.attempt (.master s.supervisor) 0 [p.outTail, w]
  s2.send a tyAdvance k p.committed p.attempt (.master (portMaster (4 * s.reg regServingGroup k))) 0 [p.outTail, w]

/-- The anchor of a paired span sends the pairing notice for its committed step (R221). -/
def State.sendNotice (s : State) (k : Nat) : State :=
  match s.pairIn k with
  | some (_, d) => s.send (pierMaster (s.span k).anchor) tyControl k (s.span k).committed 0 (.pier (s.span d).anchor) 0 [k, (s.span k).committed]
  | none => s

/-- The committed state of a span is what a keystone record says (R28). -/
def Span.adopt (p : Span) (l : List Byte) : Span :=
  { p with committed := leAt l 0 8, select := (leAt l 10 1).testBit 0, outTail := leAt l 12 4, reqHead := leAt l 16 4, keyTime := leAt l 24 8 }

/-- Every provisional mark of a span stands at the committed one (R20, R40, R41). -/
def Span.unmarked (p : Span) : Span :=
  { p with provOutTail := p.outTail, provReqHead := p.reqHead, working := p.seqs, predWork := p.pred, shapeWork := p.shape, verified := [] }

/-- No step of a span is open any more (R25, R41, R55). -/
def Span.closed (p : Span) : Span := { p.unmarked with step := none, trees := [] }

/-- R30: the supervisor takes the higher valid STEP as committed and rewrites the other copy; with no valid copy the span stops, with no
step open.  A decided step whose record has reached a copy closes as advanced, any other as aborted (R56).  On a device that does not
hold the records (R360) the step closes as aborted. -/
def State.applyR30 (s : State) (k : Nat) : State :=
  if s.anchorAway k then (s.modSpan k Span.closed).showCommitted k else
  let s := (s.noteRead (s.span k).addrA 64).noteRead (s.span k).addrB 64
  match s.governing k with
  | none => ((s.modSpan k Span.closed).setSpanState k .stopped).supEvent 0x0A05 []
  | some l =>
    let s1 := s.writeKeystone k l
    let s2 := if leAt l 0 8 = (s.span k).committed + 1 ∧ (s.span k).step = some .decided then s1.closeStep k else s1
    (s2.modSpan k fun p => (p.adopt l).closed).showCommitted k

/-- After an epoch change, the anchors of both spans of a pair send the notices of their committed steps again (R221). -/
def State.noticesAgain (s : State) (k : Nat) : State :=
  match s.pairIn k with
  | some (_, d) => (s.sendNotice k).sendNotice d
  | none => s

/-- The anchor is lost while its keystone writes are on their way: whether each copy landed is open (R29, R56; notes/assumptions/16). -/
def State.landOpen (s : State) (k : Nat) : State :=
  let p := s.span k
  if p.step ≠ some .decided then s else
    let a := (s.free 1) = 1
    let b := (s.nextFree.free 1) = 1
    let s1 := s.nextFree.nextFree
    let s2 := if a then s1.poke p.addrA p.nextRecord else s1
    if b then s2.poke p.addrB p.nextRecord else s2

/-! ### Aborts (R32, R40 to R43, R197) -/

/-- How many reports make up all of a span's (R408, R587): its members but those lost and those in a DARK field. -/
def State.quorum (s : State) (k : Nat) : Nat :=
  let p := s.span k
  (p.members.filter fun m => !p.lost.contains (m.1 * 32 + m.2) && !(m.1 == p.device && !s.reachable m.2)).length

/-- The anchor broadcasts ABORT for the open attempt with cause bits (R32, R43, R56). -/
def State.abortSpan (s : State) (k cause : Nat) : State :=
  let p := s.span k
  if p.step = some .opened ∨ p.step = some .closing then
    let all := p.status ||| cause
    let s1 := s.modSpan k fun q => { q with step := some .aborting, status := all, doneCount := 0
                                            timetable := { q.timetable with window := none, opened := false } }
    let s2 := ((s1.bump regAbortCount k 1).setReg regLastAbortCause k all).event (pierMaster p.anchor) 0x0A02
      (leBytes 4 (p.committed + 1) ++ leBytes 2 all)
    s2.toMembers (pierMaster p.anchor) tyAbort k (p.committed + 1) p.attempt p.members []
  else s

/-- ABORT from an anchor on another device (R360): the attempt is aborting here too. -/
def State.abortAway (s : State) (k : Nat) : State :=
  let p := s.span k
  if s.anchorAway k ∧ (p.step = some .opened ∨ p.step = some .closing) then
    s.modSpan k fun q => { q with step := some .aborting, timetable := { q.timetable with window := none, opened := false } }
  else s

/-- A multicast of a root that stops: the windows not yet sent are flushed with its queue (R197). -/
def Mcast.cut (m : Mcast) (root : Nat) : Mcast := if m.root = root then { m with windows := m.sent } else m

/-- Has every target of a multicast acknowledged every window (R308)? -/
def Mcast.acked (m : Mcast) : Bool := m.targets.all fun t => Nat.ble m.windows t.2.2.1

/-- The multicasts of a root that stops (R40, R197): those with nothing on its way are over, the others end with their acknowledgements. -/
def State.mcastsCut (s : State) (f : Nat) : State :=
  match s.memberOf f with
  | none => s
  | some k =>
    let finished (m : Mcast) : Bool := m.root == f && (m.cut f).acked
    let n := ((s.span k).mcasts.filter finished).length
    (s.modSpan k fun p => { p with mcasts := (p.mcasts.filter (!finished ·)).map (·.cut f) }).modSeq f fun q =>
      { q with writesOpen := q.writesOpen - n }

/-- A pier stops its attempt (R100, R197): queues, verdicts, tokens, counters and run-ahead are dropped, and the responses still due end
no instruction any more.  The writes that it has issued stay outstanding (R40). -/
def State.pierStop (s : State) (f : Nat) : State :=
  let s1 := ((s.passesDropped f).aheadClear f).modSeq f fun q =>
    { q with state := .aborting, tokens := List.replicate 16 false, inFlight := [], held := [], waiting := [], verdicts := [], readQueue := []
             rowCount := List.replicate 16 0, sigCount := List.replicate 16 0 }
  let s2 := s1.modMesh fun m => { m with requests := m.requests.filter fun o => o.master != pierMaster f || o.write }
  (s2.mcastsCut f).modArray f ArrayS.clear

/-- ABORT reaches a member pier (R40, R198, R343): it stops, or drops its run-ahead where no attempt runs, and abort-done is due. -/
def State.pierAbort (s : State) (f k : Nat) : State :=
  let s1 := match (s.field f).seq.state with
    | .running | .prologue | .committing | .aborting => s.pierStop f
    | _ => s.aheadClear f
  (s1.modSeq f fun q => { q with abortDue := true }).moversAbort f k

/-- What keeps a pier from sending abort-done (R40, R150, R168, R264, R343, R385). -/
def State.abortHeld (s : State) (f k : Nat) : Bool :=
  let x := s.field f
  s.moversStopping f k || x.seq.damagedWord || x.banks.any (fun b => !b.locked.isEmpty || b.rewriting != 0) ||
  (x.seq.failedBits.testBit 4 && (bitList 16 (namedSets (s.placement k))).any fun j =>
    (s.setDesc j).list.any fun c => (s.channel c).state == .retraining)

/-- An aborted attempt of a pier has nothing outstanding any more, and nothing keeps it from sending abort-done (R40). -/
def State.abortClear (s : State) (f k : Nat) : Bool := (s.field f).seq.writesOpen == 0 && !s.abortHeld f k

/-- The span leaves RUNNING: members that were aborting, or that wait for nothing, return to WAITING (R198); one whose prologue failed stays
until it can start it again (notes/assumptions/68). -/
def State.membersRest (s : State) (k : Nat) : State :=
  (s.span k).piers.foldl (fun t f =>
    let q := (t.field f).seq
    let t1 := t.modSeq f fun x => { x with abortDue := false }
    match q.state with
    | .aborting => if q.prologueFailed then t1 else t1.seqWait f
    | .committing | .running => t1.seqWait f
    | _ => t1) s

/-- The next attempt of an open step. -/
def Span.again (p : Span) : Span :=
  { p.unmarked with step := some .opened, attempt := p.attempt + 1, status := 0, windowSum := 0, clean := 0, doneCount := 0, barriers := [],
                    mcasts := [], charged := [] }

/-- The anchor opens the next attempt (R26, R40, R56): OPEN goes to every member. -/
def State.nextAttempt (s : State) (k : Nat) : State :=
  let s2 := ((s.modSpan k Span.again).openWorking k).announceWindow k
  let p := s2.span k
  s2.toMembers (pierMaster p.anchor) tyOpen k (p.committed + 1) p.attempt p.members [p.timetable.window.getD 0]

/-- OPEN from an anchor on another device (R360): the next attempt is open here too. -/
def State.openAway (s : State) (k attempt : Nat) : State :=
  if s.anchorAway k ∧ (s.span k).step = some .aborting ∧ attempt = (s.span k).attempt + 1 then (s.modSpan k Span.again).openWorking k else s

/-! ### Epochs (R50 to R52) -/

/-- A new epoch is installed at every pier, mover block, cluster and engine of a span (R52, R193, R198, R344); it counts as a change
(R58). -/
def State.installEpoch (s : State) (k e : Nat) : State :=
  let p := s.span k
  let s1 := (((s.modSpan k fun q => { q with epoch := e, epochDue := 0 }).setReg regEpoch k e)).changed
  let s2 := (List.range 30).foldl (fun t f => t.moversEpoch f k e) s1
  p.piers.foldl (fun t f =>
    match (t.field f).seq.state with
    | .waiting | .loaded => (t.aheadClear f).prologueStart f p.committed
    | _ => t.aheadClear f) s2

/-- The anchor device of a bridged span tells the supervisors of the other devices (R360, R371, R377). -/
def State.tellPeers (s : State) (k : Nat) (data : List Nat) : State :=
  let p := s.span k
  let others := (List.range p.devices).filter (· != p.device)
  if p.state ≠ .unused ∧ 1 < p.devices ∧ leAt (s.placement k) 34 1 = p.device then
    others.foldl (fun t d => t.send s.supervisor tyControl k 0 0 (.device d) 0 data) s
  else s

/-- The epoch of a span advances by what is due, and by `extra` occasions of R50; both spans of a pair send their notices again (R221). -/
def State.newEpoch (s : State) (k extra : Nat) : State :=
  let e := ((s.span k).epoch + (s.span k).epochDue + extra) % 256
  ((s.installEpoch k e).tellPeers k [k, 1, e]).noticesAgain k

end Sys2Proof.Machine
end

