-- ==== Sys2Proof/Machine/Engine.lean ====
section
/-! DEFINITION. The data-port engines: requests into a span's queue, and what a keystone releases from its output queue (R542 to R550,
R564). -/

namespace Sys2Proof.Machine

/-- The Ethernet group of a port: 0 of field 12, 1 of field 17 (R539). -/
def portGroup (e : Nat) : Nat := e / 4
/-- Is a port UP? -/
def State.ethUp (s : State) (e : Nat) : Bool := (s.eth e).state == .up
/-- A frame leaves a port. -/
def State.frameOut (s : State) (e addr udp : Nat) (l : List Byte) : State := (s.emit (.datagram e addr udp l)).bump regFramesTx e 1
/-- A frame that a port receives is dropped and counted (R540). -/
def State.frameDrop (s : State) (e : Nat) : State := s.bump regEthDrops e 1

/-! ### The state of a port that is down (R539, R541) -/

/-- The field of an Ethernet port's group (R539). -/
def ethField (e : Nat) : Nat := if e < 4 then 12 else 17
/-- The lanes of the group that a mode of a port uses (R539). -/
def modeLanes (e mode : Nat) : List Nat :=
  (List.range (if mode = 1 then 4 else if mode = 2 then 2 else if mode = 3 then 1 else 0)).map (4 * (e % 4) + ·)

/-- The state in which a port goes on when it is down: DOWN in mode 0, FAULT while a lane that the mode uses is retired. -/
def State.ethRest (s : State) (e : Nat) : EthState :=
  let mode := s.reg regEthMode e
  if mode = 0 then .down
  else if (modeLanes e mode).any (s.eth e).badLanes.contains then .fault
  else .training

/-! ### Requests (R542 to R544) -/

/-- An address of a family of 16 bytes as a number, its first byte most significant. -/
def addrOf (l : List Byte) : Nat := l.foldl (fun a b => 256 * a + b.toNat) 0

/-- Does an entry of 20 bytes of an ADMIT list match an address?  An entry of zeros is none. -/
def admitMatch (l : List Byte) (a : Nat) : Bool :=
  l.any (· != 0) && leAt l 16 1 ≤ 128 && addrOf (l.take 16) / 2 ^ (128 - leAt l 16 1) == a / 2 ^ (128 - leAt l 16 1)

/-- Is a source admitted to span `k` (R543)? -/
def State.admitted (s : State) (k a : Nat) : Bool :=
  let l := leBytes 80 (s.reg regAdmit k)
  (List.range 4).any fun i => admitMatch (slice (20 * i) 20 l) a

/-- Is a request malformed (R543)? -/
def requestBad (l : List Byte) : Bool :=
  leAt l 0 2 != 0x5251 || leAt l 2 1 != 1 || leAt l 3 1 == 0 || 4 < leAt l 3 1 || 1 < leAt l 5 1 || leAt l 28 4 != 0 || 8192 < leAt l 6 2 ||
  l.length != leAt l 6 2 + 32 || 4095 < leAt l 8 4

/-- A reply datagram (R550). -/
def replyBytes (kind k count reason req : Nat) (entries : List Byte) : List Byte :=
  leBytes 2 0x5254 ++ leBytes 1 1 ++ leBytes 1 kind ++ leBytes 1 k ++ leBytes 1 count ++ leBytes 1 reason ++ zeros 1 ++ leBytes 4 req ++
  zeros 20 ++ entries

/-- A REJECT with a reason (R543, R550). -/
def State.reject (s : State) (k : Nat) (d : Datagram) (reason : Nat) : State :=
  (s.bump regRequestsRefused k 1).frameOut d.port d.srcAddr.toNat d.srcPort.toNat (replyBytes 2 k 0 reason (leAt d.payload 12 4) [])

/-- The index of the entry past every request written (R544). -/
def Span.queueTail (p : Span) : Nat := p.arrival + p.unarrived.sum
/-- The free entries of a request queue (R544). -/
def Span.queueFree (p : Span) : Nat := 4096 - (p.queueTail + 2 ^ 32 - p.reqHead) % 2 ^ 32

/-- The entries of a request are written, 256 bytes each (R544). -/
def State.queueWrite (s : State) (k : Nat) (l : List Byte) (n : Nat) : State :=
  let p := s.span k
  (List.range n).foldl (fun t i => t.poke (p.reqQueue + 512 + 256 * ((p.queueTail + i) % 4096)) (padTo 256 (slice (256 * i) 256 l))) s

/-- A request is admitted (R544, R549): its entries, and the binding of a START. -/
def State.requestTaken (s : State) (k : Nat) (d : Datagram) (n : Nat) : State :=
  let seq := leAt d.payload 8 4
  let s1 := ((s.queueWrite k d.payload n).bump regRequestsAccepted k 1).modSpan k fun p => { p with unarrived := p.unarrived ++ [n] }
  if leAt d.payload 3 1 = 1 then
    s1.modSpan k fun p =>
      { p with bindings := p.bindings.filter (·.seq != seq) ++ [⟨seq, d.port, d.srcAddr.toNat, d.srcPort.toNat⟩] }
  else s1

/-- May an event be recorded that a span records at most once per second for each source? -/
def oncePerSecond (l : List (Nat × Nat)) (a now : Nat) : Bool :=
  match l.lookup a with
  | none => true
  | some t => t + 1000000000 ≤ now

/-- A request datagram at an Ethernet port (R543). -/
def State.requestIn (s : State) (d : Datagram) : State :=
  let k := leAt d.payload 4 1
  let a := d.srcAddr.toNat
  let s0 := s.bump regFramesRx d.port 1
  if !s.ethUp d.port then s
  else if 8 ≤ k then s0.frameDrop d.port
  else if !s.admitted k a then
    let s1 := s0.bump regRequestsRefused k 1
    if oncePerSecond (s.span k).lastRefuse a s.now then
      (s1.modSpan k fun p => { p with lastRefuse := (a, s.now) :: p.lastRefuse.filter (·.1 != a) }).event (portMaster d.port) 0x0830
        (leBytes 1 k ++ leBytes 1 d.port ++ zeros 2 ++ leBytes 4 a)
    else s1
  else if requestBad d.payload then s0.reject k d 2
  else
    let p := s.span k
    let n := 1 + (leAt d.payload 6 2 - 224 + 255) / 256
    if p.state ≠ .ready ∧ p.state ≠ .running ∧ p.state ≠ .paused then s0.reject k d 3
    else if p.queueFree < n then
      let due := match p.lastFull with
        | none => true
        | some t => t + 1000000000 ≤ s.now
      let s1 := s0.reject k d 1
      if due then (s1.modSpan k fun q => { q with lastFull := some s.now }).event (portMaster d.port) 0x0A16 [] else s1
    else s0.requestTaken k d n

/-! ### Outputs (R545 to R550) -/

/-- Entry `i` of a span's output queue. -/
def State.outEntry (s : State) (k i : Nat) : List Byte := (s.peek ((s.span k).outQueue + 512 + 64 * (i % 65536)) 64).getD (zeros 64)

/-- Is an address IPv4 as ::ffff:a.b.c.d? -/
def isIpv4 (a : Nat) : Bool := a / 2 ^ 32 == 0xFFFF

/-- How many entries a reply datagram takes at a port (R550). -/
def State.replyRoom (s : State) (e a : Nat) : Nat := min 255 ((s.reg regMtu e - (if isIpv4 a then 20 else 40) - 8 - 32) / 64)

/-- The reply datagrams of the entries of one binding (R550). -/
def State.replies (s : State) (k : Nat) (b : Binding) (es : List (List Byte)) : Nat → State
  | 0 => s
  | fuel + 1 =>
    if es.isEmpty then s
    else
      let m := max 1 (s.replyRoom b.port b.addr)
      let now := es.take m
      (s.frameOut b.port b.addr b.udp (replyBytes 1 k now.length 0 0 now.flatten)).replies k b (es.drop m) fuel

/-- The device time in ns of tick `t` of a media group (R556). -/
def State.tickTime (s : State) (g t : Nat) : Nat := leAt (leBytes 32 (s.reg regGroupDesc g)) 24 4 * 1000 + 20000000 * t

/-- An audio entry reaches the media engine (R547, R557): the frames that are in time are released for the sending streams of the slot that
name this span; late ones are dropped and counted. -/
def State.audioEntry (s : State) (k : Nat) (l : List Byte) : State :=
  let g := leAt l 1 1
  let ticks := (List.range (leAt l 4 4)).map (leAt l 8 8 + ·)
  let late (t : Nat) : Bool := s.tickTime g t < s.now + 2000000
  let slot (x : Stream) : Bool :=
    leAt x.desc 5 1 == g && leAt x.desc 6 2 == leAt l 2 2 && leAt x.desc 36 1 == k && (leAt x.desc 1 1).testBit 1
  if 64 ≤ g ∨ leAt (leBytes 32 (s.reg regGroupDesc g)) 6 1 ≤ leAt l 4 4 then s
  else
    let put (x : Stream) : Stream := if slot x then { x with released := x.released ++ ticks.filter (!late ·) } else x
    (s.bump regTxLate g (ticks.filter late).length).modPorts fun p => { p with streams := p.streams.map put }

/-- One entry of the output queue is sent or skipped (R548, R549); `held` gathers the entries of each binding. -/
def State.outAct (s : State) (k : Nat) (held : List (Binding × List (List Byte))) (l : List Byte) :
    State × List (Binding × List (List Byte)) :=
  let good := crcGood 64 l
  match good, leAt l 0 1 with
  | true, 1 =>
    match (s.span k).bindings.find? (·.seq == leAt l 4 4) with
    | none => (s.bump regEntriesDropped k 1, held)
    | some b =>
      let s1 := if (leAt l 1 1).testBit 0 then s.modSpan k fun p => { p with bindings := p.bindings.filter (·.seq != b.seq) } else s
      if s.ethUp b.port then
        let new := if held.any (·.1 == b) then held.map fun h => if h.1 == b then (h.1, h.2 ++ [l]) else h else held ++ [(b, [l])]
        (s1.bump regTokensSent k 1, new)
      else (s1.bump regEntriesDropped k 1, held)
  | true, 2 => (s, held)
  | true, 3 => (s.audioEntry k l, held)
  | _, _ => (s.bump regEntriesDropped k 1, held)

/-- The engine receives an advance with a tail (R548): entries SENT to the tail are acted on in order, and SENT is raised.  No engine
transmits the queue of a DRAFT span (R545). -/
def State.engineAdvance (s : State) (k : Nat) : State :=
  let p := s.span k
  let n := (p.outTail + 2 ^ 32 - p.sent) % 2 ^ 32
  if s.reg regSpecRole k = 2 ∨ n = 0 then s
  else
    let r := (List.range n).foldl (fun x i =>
      (x.1.noteRead (p.outQueue + 512 + 64 * ((p.sent + i) % 65536)) 64).outAct k x.2 (s.outEntry k (p.sent + i))) (s, [])
    let s1 := r.2.foldl (fun t h => t.replies k h.1 h.2 h.2.length) r.1
    (s1.modSpan k fun q => { q with sent := p.outTail }).poke p.outQueue (leBytes 4 p.outTail)

/-! ### The loss of a group (R564) -/

/-- Ethernet group `g` is lost with its field: its bindings, streams and media groups go, and the other group serves its spans. -/
def State.groupLost (s : State) (g : Nat) : State :=
  let s1 := s.modPorts fun p => { p with streams := p.streams.filter fun x => x.id / 8192 != g }
  let s2 := (List.range 64).foldl (fun t m =>
    if leAt (leBytes 32 (t.reg regGroupDesc m)) 0 1 != 0 && leAt (leBytes 32 (t.reg regGroupDesc m)) 1 1 == g then t.setReg regGroupDesc m 0 else t) s1
  (List.range 8).foldl (fun t k =>
    let t1 := t.modSpan k fun p => { p with bindings := p.bindings.filter fun b => portGroup b.port != g }
    if (t.span k).state ≠ .unused ∧ t.reg regServingGroup k = g then (t1.setReg regServingGroup k (1 - g)).supEvent 0x0A17 [] else t1) s2

end Sys2Proof.Machine
end

