-- ==== Sys2Proof/Machine/PowerOps.lean ====
section
/-! DEFINITION. Admission of piers, wake-ups and power-downs of pier domains (R160, R474 to R478). -/

namespace Sys2Proof.Machine

/-! ### Zones and admission (R476) -/

/-- The supply zone of a field (R476). -/
def zoneOf (f : Nat) : Nat := 2 * (f / 6) + f % 6 / 3
/-- The fields of a zone. -/
def zoneFields (z : Nat) : List Nat := (List.range 30).filter fun f => zoneOf f == z
/-- I_w of a pier at a point (R476), fused worst-case current × set-point / (12 V × 0.90), in units of 1/10,800 mA. -/
def State.wakeAt (s : State) (f p : Nat) : Nat := s.pointAmps f p * s.pointMv f p * 1000
/-- I_w of a pier at its effective point. -/
def State.wakeCurrent (s : State) (f : Nat) : Nat := s.wakeAt f (s.wantPoint f)
/-- The wake currents reserved in a zone, but for field `f`. -/
def State.zoneReserved (s : State) (f : Nat) : Nat :=
  (((zoneFields (zoneOf f)).filter (· != f)).map fun g => (s.field g).power.reserved).sum
/-- Is the pier of field `f` admitted at a zone current in mA (R476)? -/
def State.admits (s : State) (f zone : Nat) : Bool := zone * 10800 + s.zoneReserved f + s.wakeCurrent f ≤ 90000 * 10800

/-- A pier enters STAGING (R474, R475, R586): it reserves its wake current and its VDD_P group stands at its effective point; a PLL that is
set to another frequency takes one drawbridge before stage 1. -/
def State.pierStaging (s : State) (f : Nat) : State :=
  let p := s.wantPoint f
  let same := (s.field f).clock.aclk = s.pointMhz f p * 1000
  (s.setPierPower f .staging).modPower f fun x =>
    { x with stage := 0, reserved := s.wakeCurrent f, point := p, millivolts := s.pointMv f p, slewTo := none
             drawTo := if same then none else some p }

/-- A pier is to wake (R474): it enters STAGING if its zone admits it at the current last measured, else DEFERRED; an
admission limit of an earlier wake-up has ended with it. -/
def State.pierWake (s : State) (f : Nat) : State :=
  match (s.field f).power.state with
  | .off | .heatOff =>
    let s1 := s.modPower f fun x => { x with phasePoint := s.phaseRequest f, cellLimit := (s.cellPoint f).getD 0, admissionLimit := 7 }
    if s1.admits f (s.supply.zones.getD (zoneOf f) 0) then s1.pierStaging f
    else (s1.setPierPower f .deferred).bump regAdmissionDeferrals f 1
  | _ => s

/-- The pier domain turns off, power state `x` (R474): its point and reservations end. -/
def State.pierDown (s : State) (f : Nat) (x : PierPower) : State :=
  (s.setPierPower f x).modPower f fun p =>
    { p with stage := 0, reserved := 0, slewTo := none, drawTo := none, phaseHeld := false, heatPending := false, millivolts := 0
             ownBubble := clearBit p.ownBubble 1 }

/-- A pier that the host wants OFF goes off once no bank is ACTIVE, WAKING or DRAINING (R474). -/
def State.offCheck (s : State) (f : Nat) : State :=
  let busy (b : Bank) : Bool := b.state == .active || b.state == .waking || b.state == .draining
  if (s.field f).power.state = .on ∧ s.reg regPierPowerRequest f = 1 ∧ s.spanOf f = none ∧ !(s.field f).banks.any busy then s.pierDown f .off
  else s

/-- The host requests OFF (R474): every bank is requested OFF but those requested RETAIN. -/
def State.pierOff (s : State) (f : Nat) : State :=
  ((List.range 40).foldl (fun t b => if t.bankRequest f b = 1 then t else t.bankApply f b .off) s).offCheck f

/-- Heat switches a pier off (R160, R477). -/
def State.pierHeatOff (s : State) (f : Nat) : State := ((s.pierDown f .heatOff).banksHeat f).event (pierMaster f) 0x0902 []

/-- A field enters or leaves a span's service (R478). -/
def State.fieldServes (s : State) (f : Nat) (serving : Bool) : State :=
  let fresh (x : FieldState) : FieldState :=
    match x with
    | .ready | .serving => if serving then .serving else .ready
    | y => y
  let x := s.field f
  (s.modField f fun y => { y with saved := fresh y.saved }).setFieldState f (fresh x.state)

end Sys2Proof.Machine
end

