-- ==== Sys2Proof/Machine/Faults.lean ====
section
/-! DEFINITION. Occurrences, declarations, the retirement of each kind of unit, and how a span goes on without a pier (R397 to R417,
R587). -/

namespace Sys2Proof.Machine

/-! ### Unit identifiers (R397) -/

/-- A unit identifier. -/
def unitId (kind field index : Nat) : Nat := kind * 2 ^ 27 + field * 2 ^ 22 + index
/-- KIND. -/
def unitKind (u : Nat) : Nat := bits u 27 5
/-- FIELD. -/
def unitField (u : Nat) : Nat := bits u 22 5
/-- INDEX. -/
def unitIndex (u : Nat) : Nat := bits u 0 22
/-- The PIER of field `f`. -/
def pierUnit (f : Nat) : Nat := unitId 5 f 0
/-- The FIELD unit. -/
def fieldUnit (f : Nat) : Nat := unitId 6 f 0
/-- The ARRAY_BLOCK `b` of field `f`. -/
def blockUnit (f b : Nat) : Nat := unitId 3 f b
/-- The SCRATCH_ROW of a pier address (R135). -/
def rowUnit (f p : Nat) : Nat := unitId 4 f p
/-- A TOWER_CHANNEL. -/
def channelUnit (c : Nat) : Nat := unitId 9 (channelField c) c
/-- A TOWER. -/
def towerUnit (t : Nat) : Nat := unitId 8 (towerField t) t
/-- A REG_CELL. -/
def cellUnit (f c : Nat) : Nat := unitId 13 f c
/-- A PATH from a field to a field, over no spanlink. -/
def pathUnit (src dst : Nat) : Nat := unitId 14 src dst

/-- The field of a spanlink port (R278). -/
def portField (p : Nat) : Nat := [0, 6, 18, 24, 5, 11, 23, 29].getD p 0
/-- The spanlink port of a field, if it has one (R278). -/
def fieldPort (f : Nat) : Option Nat := (List.range 8).find? fun p => portField p == f

/-- Does an identifier name a unit that exists, in the field that holds it (R397, R401)? -/
def unitExists (u : Nat) : Bool :=
  let f := unitField u
  let i := unitIndex u
  f < 30 && match unitKind u with
    | 1 | 2 => bits i 5 3 == 0 && i / 16384 == 0
    | 3 => i < 16
    | 4 => i / 65536 < 40
    | 5 | 6 => i == 0
    | 7 => i < 4
    | 8 => i < 24 && f == towerField i
    | 9 => i < 192 && f == channelField i
    | 10 =>
      let r := i % 128
      let d := i / 256
      bits i 7 1 == 0 && d < 4 && r < 120 && f == routerField r && (d == 1 || d == 2) &&
        (if d = 1 then r % 12 != 11 else r / 12 != 9)
    | 11 => i < 16 && ((fieldPort f).isSome || f == 12 || f == 17)
    | 12 => i < 8 && f == portField i
    | 13 => i < 16
    | 14 => i % 32 < 30 && i < 512
    | _ => false

/-- The units retired (R407). -/
def State.isRetired (s : State) (u : Nat) : Bool := s.faults.retired.any (·.1 == u)

/-- The spans that use a unit (R402). -/
def State.unitSpans (s : State) (u : Nat) : List Nat :=
  let f := unitField u
  let i := unitIndex u
  match unitKind u with
  | 8 => (List.range 8).filter fun k => (s.span k).state != .unused &&
      (bitList 16 (namedSets (s.placement k))).any fun j => bits (s.setChannels j) (8 * i) 8 != 0
  | 9 => (List.range 8).filter fun k => (s.span k).state != .unused &&
      (bitList 16 (namedSets (s.placement k))).any fun j => (s.setChannels j).testBit i
  | 10 | 11 => []
  | 12 => (List.range 8).filter fun k => (s.span k).state != .unused && (leAt (s.placement k) 35 1).testBit i
  | 14 => (s.spanOf f).toList ++ ((s.spanOf (i % 32)).toList.filter fun k => (s.spanOf f).toList != [k])
  | _ => (s.spanOf f).toList

/-- The data of a retirement event (R584): the unit and the lowest-numbered span that uses it. -/
def State.unitData (s : State) (u : Nat) : List Byte :=
  leBytes 4 u ++ leBytes 1 ((s.unitSpans u).foldl (fun m k => min m k) 0xFF)

/-- Is copy A of the map the older one?  An invalid copy is. -/
def Boot.olderA (b : Boot) : Bool :=
  match b.mapA, b.mapB with
  | none, _ => true
  | some _, none => false
  | some x, some y => x.gen ≤ y.gen

/-- A change of the map is written to its older copy (R490). -/
def State.mapWrite (s : State) : State :=
  let c : MapCopy := ⟨s.faults.mapGen, s.faults.retired⟩
  s.modBoot fun b => if b.olderA then { b with mapA := some c } else { b with mapB := some c }

/-- A unit goes on the retirement map (R407), with the spare that replaces it, if any. -/
def State.addRetired (s : State) (u spare : Nat) : State :=
  if s.faults.retired.contains (u, spare) then s
  else
    (s.modFaults fun x =>
      { x with retired := x.retired.filter (·.1 != u) ++ [(u, spare)], mapGen := x.mapGen + 1 }).mapWrite

/-! ### Pausing and recovering spans (R54, R402, R408 to R413, R417) -/

/-- The placement of a span changes one byte. -/
def State.setPlacementByte (s : State) (k off v : Nat) : State :=
  s.setReg regPlacement k (ofLe (splice (s.placement k) off (leBytes 1 v)))

/-- Plan `i` of a span (R412). -/
def State.plan (s : State) (k i : Nat) : List Byte := slice (32 * i) 32 (leBytes 256 (s.reg regNminus1Plans k))

/-- Is plan `i` usable for the loss of the member in field `f` (R412): VALID, covering it, with no pier retired, fused, lost or
occupied? -/
def State.planUsable (s : State) (k i f : Nat) : Bool :=
  let l := s.plan k i
  (leAt l 27 1).testBit 0 && (leAt l 0 4).testBit f &&
  (bitList 30 (leAt l 4 4)).all fun g =>
    let st := (s.field g).power.state
    st != .retired && st != .fused && !(s.span k).lost.contains ((s.span k).device * 32 + g) &&
    match s.spanOf g with
    | none => true
    | some j => j == k

/-- The supervisor recovers a PAUSED span that has lost members (R408): by its spare, by an N−1 plan from number `from'`, or not at
all; with no supervisor it does not recover (R416). -/
def State.recoverFrom (s : State) (k from' : Nat) : State :=
  if !s.supervised then s else
  let p := s.span k
  match p.lost with
  | [] => s
  | l :: _ =>
    let spareUp := p.spare.filter fun g => (s.field g).power.state.nack == 0
    match spareUp, ((List.range 8).filter (from' ≤ ·)).find? fun i => p.devices == 1 && s.planUsable k i (l % 32) with
    | some g, _ => (s.dropSegment g).modSpan k fun q => { q with recovery := [.spare l] }
    | none, some i => (p.here.foldl State.dropSegment s).modSpan k fun q => { q with recovery := [.plan l i] }
    | none, none => ((s.modSpan k fun q => { q with recovery := [] }).setSpanState k .stopped).supEvent 0x0A04 []

/-- Recovery starts, or starts again with one more loss (R408, R417). -/
def State.recover (s : State) (k : Nat) : State := s.recoverFrom k 0

/-- A span enters PAUSED (R54, R198): no step is open, members rest, piers that wait for the keystone to be switched off for heat are
switched off (R477), and the recovery of lost members starts. -/
def State.enterPaused (s : State) (k : Nat) : State :=
  if (s.span k).state = .stopped then s.membersRest k else
  let s1 := ((s.modSpan k fun p => { p.closed with pauses := p.pauses.filter (· != .now) }).membersRest k).setSpanState k .paused
  let s2 := (s1.span k).here.foldl (fun t f =>
    if (t.span k).pauses.contains (.heat f) ∧ (t.field f).power.state = .on ∧ (t.field f).power.heatPending then t.pierHeatOff f else t) s1
  let s3 := s2.modSpan k fun p => { p with pauses := p.pauses.filter (· != .epoch) }
  s3.recover k

/-- A span pauses for a reason that does not wait for its keystone (R54, R563, R587): an open attempt aborts first. -/
def State.pauseNow (s : State) (k : Nat) (r : PauseReason) : State :=
  match (s.span k).state with
  | .running => ((s.markPause k r).markPause k .now).abortSpan k 0
  | .ready => (s.markPause k r).enterPaused k
  | .paused => s.markPause k r
  | _ => s

/-- Fields that a located test takes (R403, R404) enter TESTING. -/
def State.fieldTesting (s : State) (f : Nat) : State :=
  match (s.field f).state with
  | .ready | .serving => (s.modField f fun x => { x with saved := (s.field f).state }).setFieldState f .testing
  | _ => s

/-- A field's tests end: it returns to the state it left (R478). -/
def State.fieldTested (s : State) (f : Nat) : State :=
  if (s.field f).state = .testing then s.setFieldState f (s.field f).saved else s

/-- The fields that the located test of a unit holds in TESTING. -/
def testedFields (u : Nat) : List Nat := if unitKind u = 14 then [unitField u, unitIndex u % 32] else [unitField u]

/-- The units charged in the three attempts of a step are tested, with their fields TESTING (R413). -/
def State.testSuspects (s : State) (k : Nat) (us : List Nat) : State :=
  ((us.map testedFields).flatten.foldl State.fieldTesting s).modSpan k fun q =>
    { q with recovery := [.test], testing := us, testHit := false }

/-- An aborted attempt has ended at every member (R54, R56, R408, R413): the next attempt, or PAUSED. -/
def State.attemptEnded (s : State) (k : Nat) : State :=
  let p := s.span k
  if !p.lost.isEmpty then (s.applyR30 k).enterPaused k
  else if p.pauses.contains .now then s.enterPaused k
  else if p.attempt < 2 then s.nextAttempt k
  else
    let s1 := s.supEvent 0x0A03 (leBytes 4 (p.committed + 1) ++ leBytes 2 (s.reg regLastAbortCause k) ++ leBytes 1 k)
    let s2 := s1.modSpan k fun q => { q with failPauses := q.failPauses + 1 }
    let s3 := s2.enterPaused k
    if s3.faults.pausedOn.any fun u => (s3.unitSpans u).contains k then s3
    else if 3 ≤ p.failPauses + 1 then (s3.setSpanState k .stopped).supEvent 0x0A04 []
    else if p.suspects.isEmpty then s3.needEpoch k
    else s3.testSuspects k p.suspects

/-- All abort-done reports that are due have come (R40, R408). -/
def State.abortQuorum (s : State) (k : Nat) : State :=
  if (s.span k).step = some .aborting ∧ s.quorum k ≤ (s.span k).doneCount then s.attemptEnded k else s

/-- A span stops because its load failed (R54), with an event whose code the spec does not name (notes/assumptions/17). -/
def State.loadFailed (s : State) (k : Nat) : State :=
  ((s.supEvent (0x0A00 + (s.free 8).toNat) []).nextFree).setSpanState k .stopped

/-- A span loses the member of device `d`, field `f` (R30, R54, R56, R408, R417). -/
def State.loseMember (s : State) (k d f : Nat) : State :=
  let p := s.span k
  let s1 := s.modSpan k fun q => { q with lost := if q.lost.contains (d * 32 + f) then q.lost else q.lost ++ [d * 32 + f] }
  match p.state with
  | .loading => s1.loadFailed k
  | .ready => s1.enterPaused k
  | .paused => s1.recover k
  | .running =>
    if d = s.anchorDevice k ∧ f = p.anchor then
      (((s1.abortSpan k 0).landOpen k).applyR30 k).enterPaused k
    else if p.step = some .decided then s1.markPause k .now
    else (s1.abortSpan k 0).abortQuorum k
  | _ => s1.ignored k 8

/-- A span loses the pier of field `f` of this device: a member, or its spare (R408, R417). -/
def State.losePier (s : State) (f : Nat) : State :=
  match s.spanOf f with
  | none => s
  | some k =>
    let p := s.span k
    if p.spare = some f then
      ((((s.modSpan k fun q => { q with spare := none }).setPlacementByte k 5 0xFF).changed).fieldServes f false).recover k
    else s.loseMember k p.device f

/-! ### Retirements (R402) -/

/-- A pier is retired (R402, R408, R474): its domain off, its banks OFF, its program lost. -/
def State.retirePier (s : State) (f : Nat) : State :=
  let st := (s.field f).power.state
  if st = .retired ∨ st = .fused then s else
    let data := s.unitData (pierUnit f)
    let s1 := ((s.addRetired (pierUnit f) 0).pierDown f .retired).banksOff f
    let s2 := ((s1.seqEmpty f).arrayOff f).setPierStatus f 2
    ((s2.supEvent 0x0408 data).capacityChanged).losePier f

/-- Has the girder of a row or column already used its spare row, or column (R66)? -/
def State.girderSpent (s : State) (u : Nat) : Bool := s.faults.retired.any fun e => e.1 / 256 == u / 256

/-- A girder row or column is retired (R65, R66, R402): its spare is switched in, or the pier is retired where the girder's spare is
used up. -/
def State.retireGirder (s : State) (u : Nat) : State :=
  let f := unitField u
  if s.girderSpent u then s.retirePier f else
    let g := s.reg regGirderSpares f
    ((s.addRetired u 0).setReg regGirderSpares f (if unitKind u = 1 then g + 256 else g + 1)).supEvent 0x0401 (s.unitData u)

/-- Spare rows that bank `b` of field `f` uses (R148). -/
def State.sparesUsed (s : State) (f b : Nat) : Nat := leAt (leBytes 80 (s.reg regSpareRowsUsed f)) (2 * b) 2

/-- A scratchpad row is retired (R148, R149): a spare row, or none left. -/
def State.retireRow (s : State) (u : Nat) : State :=
  let f := unitField u
  let b := unitIndex u / 65536
  let n := s.sparesUsed f b
  if 256 ≤ n then s.retirePier f else
    ((s.addRetired u n).setReg regSpareRowsUsed f (ofLe (splice (leBytes 80 (s.reg regSpareRowsUsed f)) (2 * b) (leBytes 2 (n + 1))))).supEvent
      0x0402 (s.unitData u)

/-- A channel is retired (R260, R270, R274, R402): its sets act, and the spans that use it take a new epoch. -/
def State.retireChannel (s : State) (c : Nat) : State :=
  let st := (s.channel c).state
  if st = .retired ∨ st = .fused then s else
    let u := channelUnit c
    let sets := (List.range 16).filter fun k => (s.setDesc k).valid && (s.setChannels k).testBit c
    let s1 := ((s.setChannelState c .retired).addRetired u 0).supEvent 0x0403 (s.unitData u)
    let s2 := sets.foldl (fun t k => (t.setChannelRetired k c).setTested k) s1
    let s3 := (s.unitSpans u).foldl (fun t k => t.needEpoch k) s2
    if st ≠ .online ∧ (towerChannels (c / 8)).all fun x => (s1.channel x).state == .retired then s3.capacityChanged else s3

/-- A tower is retired (R402). -/
def State.retireTower (s : State) (t : Nat) : State :=
  let u := towerUnit t
  (towerChannels t).foldl State.retireChannel ((s.addRetired u 0).supEvent 0x040E (s.unitData u))

/-- The widest of 16, 15, 14, 12 and 8 lanes that a number of good lanes allows, 0 for none (R411). -/
def lanesOf (good : Nat) : Nat := if 14 ≤ good then min good 16 else if 12 ≤ good then 12 else if 8 ≤ good then 8 else 0

/-- The other devices of a bridged span that its UP ports reach, counted by the peers' serials (R563). -/
def State.peersReached (s : State) (k : Nat) : Nat :=
  let ports := (List.range 8).filter fun p => (leAt (s.placement k) 35 1).testBit p && (s.link p).state == .up
  ((ports.map fun p => s.reg regPeerSerial p).eraseDups).length

/-- The other devices of a bridged span are lost to it (R361). -/
def State.losePeers (s : State) (k : Nat) : State :=
  let p := s.span k
  (p.members.filter (·.1 != p.device)).foldl (fun t m => t.loseMember k m.1 m.2) s

/-- The bridged spans of a port (R563). -/
def State.portSpans (s : State) (p : Nat) : List Nat :=
  (List.range 8).filter fun k => (s.span k).state != .unused && 1 < (s.span k).devices && (leAt (s.placement k) 35 1).testBit p

/-- A spanlink port has left UP (R563): its bridged spans pause; those that still reach every device take a new epoch, others wait. -/
def State.portDown (s : State) (p : Nat) : State :=
  (s.portSpans p).foldl (fun t k =>
    if (t.span k).devices ≤ t.peersReached k + 1 then (t.pauseNow k .epoch).modSpan k fun q => { q with epochDue := q.epochDue + 1 }
    else t.pauseNow k (.link p)) s

/-- A spanlink port goes OFF or RETIRED (R361, R563): spans that reach a device no more lose its members. -/
def State.portGone (s : State) (p : Nat) : State :=
  (s.portSpans p).foldl (fun t k => if (t.span k).devices ≤ t.peersReached k + 1 then t else t.losePeers k) s

/-- A spanlink port is retired (R402, R411, R559); `told` when the peer must be told of it. -/
def State.retirePort (s : State) (p : Nat) (told : Bool) : State :=
  let st := (s.link p).state
  if st = .retired ∨ st = .fused then s else
    let u := unitId 12 (portField p) p
    let s1 := ((s.setPortState p .retired).addRetired u 0).supEvent 0x0406 (s.unitData u)
    let s2 := if told then s1.emit (.peer p 2) else s1
    let s3 := if st = .up then s2.portDown p else s2
    (s.unitSpans u).foldl (fun t k => t.needEpoch k) (s3.portGone p)

/-- A SerDes lane is retired (R411): its spanlink port narrows or is retired; an Ethernet port whose mode uses it goes to FAULT. -/
def State.retireLane (s : State) (f lane : Nat) : State :=
  let u := unitId 11 f lane
  let s1 := (s.addRetired u 0).supEvent 0x0405 (s.unitData u)
  match fieldPort f with
  | some p =>
    let s2 := s1.modLink p fun x => { x with badLanes := if x.badLanes.contains lane then x.badLanes else x.badLanes ++ [lane] }
    let w := lanesOf (16 - (s2.link p).badLanes.length)
    if w < 8 then s2.retirePort p true
    else if (s2.link p).state = .up ∧ w < (s2.link p).lanes then
      ((((s2.setPortState p .retraining).bump regSpanlinkRetrains p 1).supEvent 0x0613 []).emit (.peer p 1)).portDown p
    else s2
  | none =>
    let e := (if f = 12 then 0 else 4) + lane / 4
    let mode := s.reg regEthMode e
    let used := if mode = 1 then 4 else if mode = 2 then 2 else if mode = 3 then 1 else 0
    let s2 := s1.modEth e fun x => { x with badLanes := x.badLanes ++ [lane] }
    if lane % 4 < used then
      let s3 := if (s.eth e).state = .up then s2.event (portMaster e) 0x0611 [] else s2
      (s3.modEth e fun x => { x with state := .fault }).capacityChanged
    else s2

/-- The links of the routers of a field retire (R301, R405). -/
def State.retireLinksOf (s : State) (f : Nat) : State :=
  ((List.range 120).filter fun r => routerField r == f).foldl (fun t r => (List.range 4).foldl (fun u d => u.retireLink r d) t) s

/-- What goes with a service strip's field (R4, R405): in field 0 supervisor A, PCIe and 10BASE-T1S port 0, in field 29 supervisor B and
port 1 (notes/assumptions/63). -/
def State.stripLost (s : State) (f : Nat) : State :=
  let s1 := if f = (if s.control.activeB then 0 else 29) then (s.modCtl fun c => { c with standby := false }).capacityChanged else s
  if f = 0 then (s1.setReg regPcieLink 0 0).setReg regT1sLink 0 0
  else if f = 29 then s1.setReg regT1sLink 1 0
  else s1

/-- A field loses its rails and enters DARK (R160, R301, R342, R405, R478, R587): its pier's domain, program and banks, its movers, its
links, its towers' channels and its service strip. -/
def State.fieldDark (s : State) (f : Nat) : State :=
  let st := (s.field f).power.state
  let s1 := ((s.dropSegment f).moversDark f).modField f fun x => { x with saved := .dark }
  let s2 := if st = .retired ∨ st = .fused ∨ st = .off then s1 else s1.pierDown f .off
  let s3 := ((s2.banksOff f).seqEmpty f).arrayOff f
  let s4 := s3.modClock f fun _ => FieldClock.reset
  let s5 := ((s4.setFieldState f .dark).retireLinksOf f).stripLost f
  ((fieldTowers f).map towerChannels).flatten.foldl State.retireChannel s5

/-- A field that goes DARK without being retired (R587): its span pauses at once and waits for the field. -/
def State.fieldDarkHeat (s : State) (f : Nat) : State :=
  match s.memberOf f with
  | none => s.fieldDark f
  | some k =>
    let p := s.span k
    let s1 := s.fieldDark f
    match p.state with
    | .running =>
      if p.anchor = f ∧ !s.anchorAway k then
        (((((s1.markPause k (.heat f)).abortSpan k 0).landOpen k).applyR30 k)).enterPaused k
      else ((s1.pauseNow k (.heat f)).abortQuorum k)
    | .loading => s1.loadFailed k
    | _ => s1.pauseNow k (.heat f)

/-- A field is retired (R405): DARK at once, every unit in it retired. -/
def State.retireField (s : State) (f : Nat) : State :=
  if (s.field f).state = .retired then s else
    let u := fieldUnit f
    let data := s.unitData u
    let s1 := (s.addRetired u 0).fieldDark f
    let s2 := s1.retirePier f
    let s3 := (List.range 4).foldl (fun t c => t.addRetired (unitId 7 f c) 0) s2
    let s4 := match fieldPort f with
      | some p => s3.retirePort p true
      | none => s3
    let s5 := if f = 12 ∨ f = 17 then
        ((List.range 4).foldl (fun t i =>
          let e := (if f = 12 then 0 else 4) + i
          (if (t.eth e).state = .up then t.event (portMaster e) 0x0611 [] else t).modEth e fun x => { x with state := .fault }) s4).groupLost (if f = 12 then 0 else 1)
      else s4
    (((s5.rerouted).setFieldState f .retired).supEvent 0x0409 data).capacityChanged

/-- A core is retired (R402): held in reset, its span tag moves to the lowest surviving core; the last one retires the field. -/
def State.retireCore (s : State) (f c : Nat) : State :=
  let u := unitId 7 f c
  let s1 := ((s.addRetired u 0).supEvent 0x040D (s.unitData u)).modField f fun x => { x with coresReset := setBit x.coresReset c }
  let alive := (List.range 4).filter fun i => !s1.isRetired (unitId 7 f i)
  match alive with
  | [] => s1.retireField f
  | a :: _ =>
    let tags := leBytes 4 (s.reg regCoreSpan f)
    let tag := leAt tags c 1
    let moved := if leAt tags a 1 = 0xFF then splice tags a (leBytes 1 tag) else tags
    s1.setReg regCoreSpan f (ofLe (splice moved c (leBytes 1 0xFF)))

/-- Banks that the region table of the loaded program names (R151, R462). -/
def regionBanks (table : List Byte) : List Nat :=
  (List.range 40).filter fun b => (List.range 16).any fun i =>
    leAt table (16 * i + 6) 1 != 0 && leAt table (16 * i) 1 ≤ b && b ≤ leAt table (16 * i + 1) 1

/-- At most 24 banks are requested ACTIVE (R410, R462): those that the program names come first, then the lowest numbers; the supervisor
requests RETAIN for the others (R157; notes/assumptions/62). -/
def State.banksLimit (s : State) (f : Nat) (named : List Nat) : State :=
  let on := (List.range 40).filter fun b => s.bankRequest f b == 0
  if on.length ≤ 24 then s else
    let keep := (named.filter on.contains ++ on.filter fun b => !named.contains b).take 24
    let v := ((List.range 40).map fun b => leBytes 1 (if on.contains b && !keep.contains b then 1 else s.bankRequest f b)).flatten
    let s1 := s.setReg regBankPower f (ofLe v)
    if (s.field f).power.state = .on ∧ s.spanOf f = none then s1.banksApply f else s1

/-- The limits of a field's regulator cells are applied again (R410, R462, R478): the cell limit of the pier, the 24 banks of VDD_M, and
the fabric when both VDD_F cells are out; `c` is the cell whose loss or return is applied. -/
def State.cellsApply (s : State) (f c : Nat) : State :=
  let x := s.field f
  let m := x.cellsGood 10 4
  let retiredMask := s.reg regRegCellsRetired f
  if x.cellsGood 14 2 = 0 then
    if retiredMask.testBit 14 && retiredMask.testBit 15 then s.retireField f else s.fieldDarkHeat f
  else
    let regions := (x.seq.image.map (·.regions)).getD []
    match s.cellPoint f with
    | none => s.retirePier f
    | some p =>
      if m < 2 ∨ (m = 2 ∧ 24 < (regionBanks regions).length) then s.retirePier f
      else
        let s1 := if p < x.power.cellLimit ∨ (m = 2 ∧ 10 ≤ c ∧ c < 14) then s.event (pierMaster f) 0x0107 [] else s
        let hot := x.cellsGood 0 10 ≤ 8 ∧ p < x.power.point
        let s2 := s1.modPower f fun y => { y with cellLimit := p, ownBubble := putBit y.ownBubble 0 hot }
        let s3 := if m = 2 then s2.banksLimit f (regionBanks regions) else s2
        let capped := 2 ≤ popCount 10 retiredMask ∨ 2 ≤ popCount 4 (retiredMask / 1024)
        let s4 := if capped ∧ s.reg regPierStatus f = 0 then (s3.setPierStatus f 1).capacityChanged else s3
        s4.powerUpdate f

/-- A regulator cell is retired (R410). -/
def State.retireCell (s : State) (f c : Nat) : State :=
  let u := cellUnit f c
  let s1 := ((s.addRetired u 0).supEvent 0x0407 (s.unitData u)).setReg regRegCellsRetired f (setBit (s.reg regRegCellsRetired f) c)
  ((s1.modField f fun x => { x with cellsOut := setBit x.cellsOut c }).capacityChanged).cellsApply f c

/-- The located test of a unit begins (R403, R404). -/
def State.locate (s : State) (u : Nat) : State :=
  s.modFaults fun x => { x with located := if x.located.contains u then x.located else x.located ++ [u] }

/-- A unit is retired now (R402); for ARRAY_BLOCK and PATH the located test starts (R403, R404). -/
def State.retireUnit (s : State) (u : Nat) : State :=
  let f := unitField u
  let i := unitIndex u
  match unitKind u with
  | 1 | 2 => s.retireGirder u
  | 3 => (s.fieldTesting f).locate u
  | 4 => s.retireRow u
  | 5 => s.retirePier f
  | 6 => s.retireField f
  | 7 => s.retireCore f i
  | 8 => s.retireTower i
  | 9 => s.retireChannel i
  | 10 => (s.retireLink (i % 128) (i / 256)).addRetired u 0
  | 11 => s.retireLane f i
  | 12 => s.retirePort i true
  | 13 => s.retireCell f i
  | 14 => ((s.fieldTesting f).fieldTesting (i % 32)).locate u
  | _ => s

/-- Does the kind of a unit mark a pause (R402)? -/
def pausesSpan (u : Nat) : Bool := [1, 2, 3, 5, 6, 14].contains (unitKind u)
/-- Does the kind of a unit advance the epoch (R402)?  Channels, towers and ports do it themselves; for a PATH the unit found does. -/
def advancesEpoch (u : Nat) : Bool := [1, 2, 3, 5, 6].contains (unitKind u)

/-- Does a girder's spare wait to be switched in, because a span of its pier is LOADING, RESETTING or STOPPED (R65)? -/
def State.spareWaits (s : State) (u : Nat) : Bool :=
  (unitKind u == 1 || unitKind u == 2) && !s.girderSpent u && (s.unitSpans u).any fun k => [.loading, .resetting, .stopped].contains (s.span k).state

/-- A declared unit is retired, at the next keystone of the RUNNING spans that use it if its kind marks a pause (R402), after a drawbridge
of its field (R417), and where a spare is switched in, once its span is PAUSED or gone (R65). -/
def State.retireDue (s : State) (u : Nat) : State :=
  let users := s.unitSpans u
  let running := users.filter fun k => (s.span k).state == .running
  if (pausesSpan u ∧ running ≠ []) ∨ (s.field (unitField u)).state = .drawbridge ∨ s.spareWaits u = true then
    (if pausesSpan u then running.foldl (fun t k => t.markPause k .retire) s else s).modFaults fun x =>
      { x with pausedOn := x.pausedOn ++ [u] }
  else
    let s1 := if pausesSpan u then users.foldl (fun t k => t.pauseFor k .retire) s else s
    let s2 := s1.retireUnit u
    let s3 := if advancesEpoch u then users.foldl (fun t k => t.needEpoch k) s2 else s2
    if unitKind u = 3 ∨ unitKind u = 14 then
      users.foldl (fun t k => t.modSpan k fun p => { p with recovery := p.recovery ++ [.test] }) s3
    else s3

/-- Units that waited for a keystone or the end of a drawbridge are retired, and their pauses end (R402, R417). -/
def State.retireWaiting (s : State) : State :=
  let due := s.faults.pausedOn
  let s1 := due.foldl State.retireDue (s.modFaults fun x => { x with pausedOn := [] })
  (List.range 8).foldl (fun t k =>
    if t.faults.pausedOn.any fun u => (t.unitSpans u).contains k then t
    else if (t.span k).state = .paused then t.modSpan k fun p => { p with pauses := p.pauses.filter (· != .retire) } else t) s1

/-- A unit is declared permanent (R399): event, count, history cleared, retirement.  A pier that its own detections declare in an open
attempt is lost at once (R54). -/
def State.declare (s : State) (u cause : Nat) (atOnce : Bool) : State :=
  let s1 := (s.supEvent 0x040A (leBytes 4 u ++ leBytes 2 cause)).bump regPermanentCount 0 1
  let s2 := s1.modFaults fun x => { x with history := x.history.filter (·.1 != u) }
  if atOnce ∧ unitKind u = 5 then s2.retireUnit u else s2.retireDue u

/-! ### Occurrences (R398 to R400) -/

/-- Does a history of three occurrences declare its unit permanent (R399)? -/
def permanentNow (h : List Occurrence) : Bool :=
  match h with
  | [a, b, c] =>
    c.opTime - a.opTime ≤ 86400 ||
    (a.span == b.span && b.span == c.span && a.span != 0xFF && max a.step (max b.step c.step) - min a.step (min b.step c.step) ≤ 1000)
  | _ => false

/-- What a history keeps of a detection now (R400): operating time, and the span and step in which it is charged, if one is open. -/
def State.occurrence (s : State) (k : Nat) : Occurrence :=
  if k < 8 ∧ (s.span k).step.isSome then ⟨s.opSeconds, k, (s.span k).committed + 1⟩ else ⟨s.opSeconds, 0xFF, 0⟩

/-- A unit is charged in an attempt of a span: it is tested if the step fails three times (R413). -/
def State.suspect (s : State) (k u : Nat) : State :=
  s.modSpan k fun q => { q with suspects := if q.suspects.contains u then q.suspects else q.suspects ++ [u] }

/-- A detection with event code `code` is charged to a unit in an attempt of span `k` (0xFF for none) (R398 to R400). -/
def State.chargeTo (s : State) (u k code : Nat) : State :=
  let p := s.span k
  let inAttempt := k < 8 && p.step.isSome
  if (inAttempt && p.charged.contains u) || s.isRetired u && unitKind u != 4 then s else
    let occ := s.occurrence k
    let old := (s.faults.history.lookup u).getD []
    let now := ((old ++ [occ]).reverse.take 3).reverse
    let s1 := s.modFaults fun x => { x with history := (u, now) :: x.history.filter (·.1 != u) }
    let s2 := if inAttempt then (s1.modSpan k fun q => { q with charged := u :: q.charged }).suspect k u else s1
    let s3 := s2.bump regFieldOccurrences (unitField u) 1
    if permanentNow now then s3.declare u code inAttempt else s3

/-- A detection is charged to a unit in no attempt: of the span of its pier, if the unit is used by one (R398, R417). -/
def State.charge (s : State) (u code : Nat) : State :=
  let k := ((s.unitSpans u).head?).getD 0xFF
  let occ := s.occurrence k
  if s.isRetired u && unitKind u != 4 then s else
    let now := ((((s.faults.history.lookup u).getD []) ++ [occ]).reverse.take 3).reverse
    let s1 := (s.modFaults fun x => { x with history := (u, now) :: x.history.filter (·.1 != u) }).bump regFieldOccurrences (unitField u) 1
    let s2 := if occ.span < 8 then s1.suspect k u else s1
    if permanentNow now then s2.declare u code false else s2

/-- A detection of the pier of field `f` in its attempt, charged to a unit (R398). -/
def State.chargePier (s : State) (f u code : Nat) : State := s.chargeTo u ((s.memberOf f).getD 0xFF) code

/-! ### Probes (R406) -/

/-- A detection for which the spec names no event code is charged: the code that a declaration would carry is open
(notes/assumptions/22). -/
def State.chargeOpen (s : State) (u : Nat) : State := (s.charge u (s.free 16).toNat).nextFree

/-- The supervisor probes a pier: a control read of its sequencer state. -/
def State.probe (s : State) (f : Nat) : State :=
  let tag := s.mesh.nextTag
  let s1 := s.request
    { tag := 0, master := s.supervisor, span := 0xFF, field := f, mover := none, dest := none, bytes := 0, ahead := none, write := false
      serial := 0 }
  (s1.modFaults fun x => { x with probes := f :: x.probes.filter (· != f) }).send s.supervisor tyRead 0xFF 0 0 (.pier f) 0 [tag]

/-- A probed pier answers: one occurrence. -/
def State.probeAnswered (s : State) (o : Outstanding) : State :=
  if o.master / 256 = 5 ∧ s.faults.probes.contains o.field then
    (s.modFaults fun x => { x with probes := x.probes.filter (· != o.field) }).chargeOpen (pierUnit o.field)
  else s

end Sys2Proof.Machine
end

