-- ==== Sys2Proof/Machine/Granules.lean ====
section
/-! DEFINITION. What reads of uncorrectable granules and reads that a mirror serves record, at a channel and at a device address (R250,
R258). -/

namespace Sys2Proof.Machine

/-- The tower of a channel. -/
def towerOf (c : Nat) : Nat := c / 8
/-- Event data of a granule (R584): channel and granule index. -/
def granuleData (c g : Nat) : List Byte := leBytes 1 c ++ zeros 3 ++ leBytes 4 g

/-- The mirrored set that has channel-local address `a` of channel `c` at a position, with the channel of the mirror. -/
def State.mirrorOf (s : State) (c a : Nat) : Option (Nat × Nat) :=
  (List.range 16).findSome? fun k =>
    let d := s.setDesc k
    let pos := d.list.findIdx (· == c)
    let unit := a / d.unit
    if d.valid && d.mirror && pos < d.nc / 2 && d.chBase ≤ unit && unit < d.chBase + d.perChannel then
      some (k, d.list.getD (pos + d.nc / 2) 0)
    else none

/-- Event 0x050B and the count of a granule read from the mirror (R258): set, device channel of the position and of the mirror, granule
index at the position. -/
def State.mirrorServes (s : State) (k c m g : Nat) : State :=
  (s.bump regMirrorHeals k 1).unitEvent (towerHolder (towerOf c)) 0x050B (leBytes 1 k ++ leBytes 1 c ++ leBytes 1 m ++ zeros 1 ++ leBytes 4 g)

/-- A read finds granule `g` of channel `c` uncorrectable (R250, R258): event, count and occurrence; where a mirror (its set, channel and
granule) holds a good copy, that is read and written back at the position.  A read that delivers nothing ends the attempt of a span that uses the
channel, which charges it once (R398). -/
def State.granuleLostAt (s : State) (c g : Nat) (mirror : Option (Nat × Nat × Nat)) : State :=
  let s1 := s.modChannel c fun x => { x with bad := if x.bad.contains g then x.bad else g :: x.bad }
  let s2 := (s1.unitEvent (towerHolder (towerOf c)) 0x0502 (granuleData c g)).bump regUncorrected (towerOf c) 1
  let once := (s.unitSpans (channelUnit c)).find? fun k => (s.span k).step.isSome
  match mirror with
    | some (k, m, h) =>
      if (s.channel m).state = ChannelState.online ∧ !(s.channel m).bad.contains h then
        ((s2.write (towerKey (c, 64 * g)) (s2.read (towerKey (m, 64 * h)) 64)).modChannel c fun x =>
          { x with bad := x.bad.filter (· != g) }).mirrorServes k c m g |>.charge (channelUnit c) 0x0502
      else s2.chargeTo (channelUnit c) (once.getD 0xFF) 0x0502
    | none => s2.chargeTo (channelUnit c) (once.getD 0xFF) 0x0502

/-- A read finds an uncorrectable granule at a channel. -/
def State.granuleLost (s : State) (c g : Nat) : State :=
  s.granuleLostAt c g ((s.mirrorOf c (64 * g)).map fun x => (x.1, x.2, g))

/-- What the read of the granule at a device address records (R250, R258). -/
def State.granuleServed (s : State) (a : Nat) : State :=
  match s.setOf a with
  | none => s
  | some k =>
    let d := s.setDesc k
    let own := d.atPos (d.posRow a).1 (d.posRow a).2 a
    match s.copies k a with
    | .ok x :: rest =>
      if s.badGranule x then s.granuleLostAt x.1 (x.2 / 64) ((goodCopies rest).head?.map fun y => (k, y.1, y.2 / 64)) else s
    | .error _ :: rest => match goodCopies rest with
      | y :: _ => if s.badGranule y then s.granuleLostAt y.1 (y.2 / 64) none else s.mirrorServes k own.1 y.1 (own.2 / 64)
      | [] => s
    | [] => s

/-- The granules that an access of `n` bytes at a tower address reads: all that it touches, of a write those that it does not write
whole (R246). -/
def readParts (right : Right) (a n : Nat) : List Nat :=
  ((partsOf a n).filter fun p => decide (right ≠ .w) || p.2 != 64).map (·.1)

end Sys2Proof.Machine
end

