-- ==== Sys2Proof/Machine/Settle.lean ====
section
/-! DEFINITION. What a command leaves to do: reads that found an uncorrectable granule, units and fields that waited, and spans that resume
(R54, R250, R402, R499); and how a packet is dropped, lost, answered by a router or brought to its destination (R285, R303, R304). -/

namespace Sys2Proof.Machine

/-! ### Field restarts (R499) -/

/-- The marks that a restart of field `f` put on spans go. -/
def State.restartUnmark (s : State) (f : Nat) : State :=
  (List.range 8).foldl (fun t k => t.modSpan k fun p => { p with pauses := p.pauses.filter (· != .restart f) }) s

/-- The retired cores of a field's cluster, which stay in reset (R405). -/
def State.deadCores (s : State) (f : Nat) : Nat := packBools ((List.range 4).map fun c => s.isRetired (unitId 7 f c))

/-- The field whose restart is under way enters WAKING once its pier's span runs no step (R499): cores, mover block and sequencers are
held in reset.  A field that has gone DARK or RETIRED meanwhile is skipped (R506). -/
def State.restartWaiting (s : State) : State :=
  match s.boot.inHand with
  | none => s
  | some f =>
    let x := s.field f
    let idle := match s.memberOf f with
      | none => true
      | some k => (s.span k).state != .running
    match x.state with
    | .dark | .retired => ((s.modBoot fun b => { b with inHand := none }).restartUnmark f).modField f fun y =>
      { y with restarting := false, coresReset := s.deadCores f }
    | .ready | .serving =>
      if !x.restarting && idle then
        ((((s.dropSegment f).moversDark f).modField f fun y => { y with saved := x.state, restarting := true, coresReset := 15, clock := { y.clock with errors := [], delays := [], rate := 0 } }).setFieldState f
          .waking).seqEmpty f
      else s
    | _ => s

/-- What the reads of a command found is recorded (R250, R258). -/
def State.recordReads (s : State) : State := s.lateReads.foldl State.granuleServed { s with lateReads := [] }

/-- After a command that may have paused or retired something: what its reads found is recorded, what waited is done, and PAUSED spans resume
if they can. -/
def State.settle (s : State) : State := (List.range 8).foldl State.resume s.recordReads.retireWaiting.restartWaiting

/-! ### Refused accesses -/

/-- What the reads of an access of `n` bytes at a device address record. -/
def State.readNotes (s : State) (right : Right) (a n : Nat) : State :=
  if addrRegion a = 0 ∧ (readParts right a n).any s.elsewhere then ((readParts right a n).foldl State.granuleServed s).settle else s

/-- What a refused access records: reads that found an uncorrectable granule (R250), and the refusal at its target. -/
def State.refused (s : State) (master span : Nat) (right : Right) (a n code : Nat) : State :=
  (if code = nackUncorr then s.readNotes right a n else s).noteRefusal master span right a n code

/-! ### Packets on their way (R285, R303, R304) -/

/-- The link by which a packet comes into router `r` on the route in use, if it comes by one. -/
def State.inLink (s : State) (p : Pkt) (r : Nat) : Option Nat :=
  match s.journey p.src p.dst p.dstUnit with
  | .arrives outs => (outs.find? fun o => o.2 < 4 && neighbour o.1 o.2 == r).map fun o => linkUnit o.1 o.2
  | _ => none

/-- A packet is damaged: the router that finds it drops it whole (R285), and the link of the input it came by is charged (R398). -/
def State.dropDamaged (s : State) (p : Pkt) (r : Nat) : State :=
  let t := (s.unitEvent (routerHolder r) 0x0606 []).bump regDrops r 1
  match s.inLink p r with
  | some u => (t.charge u 0x0606).settle
  | none => t

/-- A packet of a type and `n` flits crosses the mesh, and `act` is what its destination does.  A damaged one is dropped (R285), and so is
one of the old generation of routes (R304); where there is no route, the router answers (R303). -/
def State.carried (s : State) (ty n : Nat) (p : Pkt) (act : State → State) : State :=
  match p.damage with
  | some r => s.dropDamaged p r
  | none =>
    if p.gen ≠ s.mesh.routeGen then s
    else match s.journey p.src p.dst p.dstUnit with
      | .arrives _ => act (s.hauled p n)
      | .unreachable r => if isResponse ty then s else s.answerFrom ⟨unRouter, r⟩ p tyNack nackUnreachable []
      | .lost => s

end Sys2Proof.Machine
end

