-- ==== Sys2Proof/Machine/Words.lean ====
section
/-! DEFINITION. The 128-bit word of each pier instruction: common header, class, sub-operation and operands (R169, R173, R175 to R190). -/

namespace Sys2Proof.Machine

/-- Bits [127:98]: the common header with CLASS and SUB, and RA (R169). -/
def headWord (cls sub : Nat) (h : Hdr) (ra : Bool) : Nat :=
  cls * 2 ^ 124 + sub * 2 ^ 120 + h.wait.toNat * 2 ^ 104 + h.token.val * 2 ^ 100 + boolNat h.sett * 2 ^ 99 + boolNat ra * 2 ^ 98

/-- A scratchpad operand of 26 bits (R175). -/
def opndWord (o : Opnd) : Nat := o.ireg.val * 2 ^ 22 + o.offset.toNat

/-- The tower range of FETCH.LINEAR and SEND.STORE (R180). -/
def towerWord (t : TowerOpnd) : Nat := t.treg.val * 2 ^ 92 + t.toff.toNat * 2 ^ 60 + t.len.toNat * 2 ^ 52

/-- PASS (R176). -/
def passWord (h : Hdr) (o : PassOp) : Nat :=
  headWord 1 0 h false + o.desc.toNat * 2 ^ 86 + boolNat o.chain * 2 ^ 85 + boolNat o.drain * 2 ^ 84 + opndWord o.wsrc * 2 ^ 52 +
  opndWord o.asrc * 2 ^ 26 + opndWord o.dst

/-- VEC with operation code `op` (R178). -/
def vecWord (op : Nat) (h : Hdr) (o : VecOp) : Nat :=
  headWord 2 0 h false + op * 2 ^ 88 + o.vdesc.toNat * 2 ^ 78 + opndWord o.src1 * 2 ^ 52 + opndWord o.src2 * 2 ^ 26 + opndWord o.dst

/-- MOVE: COPY 0, TURN 1, FILL 2 (R179). -/
def moveWord (sub : Nat) (h : Hdr) (count : BitVec 12) (esize src : Nat) (dst : Opnd) : Nat :=
  headWord 3 sub h false + count.toNat * 2 ^ 84 + esize * 2 ^ 82 + src * 2 ^ 52 + opndWord dst * 2 ^ 26

/-- FETCH.LINEAR (R180). -/
def fetchLinearWord (h : Hdr) (ra : Bool) (t : TowerOpnd) (dst : Opnd) : Nat :=
  headWord 4 0 h ra + towerWord t + opndWord dst * 2 ^ 26

/-- FETCH.LIST (R181). -/
def fetchListWord (h : Hdr) (ra : Bool) (count : BitVec 6) (list dst : Opnd) : Nat :=
  headWord 4 1 h ra + opndWord list * 2 ^ 70 + count.toNat * 2 ^ 64 + opndWord dst * 2 ^ 26

/-- SEND.ROWS (0) and SEND.MCAST (3) (R183). -/
def sendWord (sub : Nat) (h : Hdr) (o : SendOp) : Nat :=
  headWord 5 sub h false + o.target.toNat * 2 ^ 88 + o.chan.val * 2 ^ 84 + o.count.toNat * 2 ^ 72 + opndWord o.src * 2 ^ 26 +
  opndWord o.rdst

/-- SEND.SIGNAL (R183). -/
def sendSignalWord (h : Hdr) (target : BitVec 8) (chan : Idx16) : Nat :=
  headWord 5 1 h false + target.toNat * 2 ^ 88 + chan.val * 2 ^ 84

/-- SEND.STORE (R180). -/
def sendStoreWord (h : Hdr) (t : TowerOpnd) (src : Opnd) : Nat := headWord 5 2 h false + towerWord t + opndWord src * 2 ^ 26

/-- RECV: ROWS 0, SIGNAL 1 (R184). -/
def recvWord (sub : Nat) (h : Hdr) (chan : Idx16) (count : BitVec 12) : Nat :=
  headWord 6 sub h false + chan.val * 2 ^ 84 + count.toNat * 2 ^ 72

/-- COLL: REDUCE 0, ALLREDUCE 1, ALLGATHER 2, BROADCAST 3 (R185). -/
def collWord (sub : Nat) (h : Hdr) (o : CollOp) : Nat :=
  headWord 7 sub h false + o.group.toNat * 2 ^ 88 + o.count.toNat * 2 ^ 76 + opndWord o.src * 2 ^ 26 + opndWord o.dst

/-- SYNC: SPAN 0, GROUP 1, LOCAL 2 (R186). -/
def syncWord (sub : Nat) (h : Hdr) (group : Nat) : Nat := headWord 8 sub h false + group * 2 ^ 88

/-- CHECK: WAIT 0, FORCE 1, WINDOW 2 (R187). -/
def checkWord (sub : Nat) (h : Hdr) (ireg : Nat) : Nat := headWord 9 sub h false + ireg * 2 ^ 92

/-- PHASE (R188). -/
def phaseWord (h : Hdr) (code : BitVec 3) : Nat := headWord 10 0 h false + code.toNat * 2 ^ 93

/-- COMMIT (R190). -/
def commitWord (h : Hdr) : Nat := headWord 11 0 h false

/-- STEP.NEXT (R189). -/
def nextWord (h : Hdr) : Nat := headWord 12 0 h false

/-- STEP.BASE (R189). -/
def baseWord (h : Hdr) (ireg : Idx16) (modulus : BitVec 8) (base : BitVec 48) (stride : BitVec 32) : Nat :=
  headWord 12 1 h false + ireg.val * 2 ^ 92 + modulus.toNat * 2 ^ 84 + base.toNat * 2 ^ 36 + stride.toNat * 2 ^ 4

/-- STEP.ADD (R189). -/
def addWord (h : Hdr) (ireg : Idx16) (imm : BitVec 48) : Nat := headWord 12 2 h false + ireg.val * 2 ^ 92 + imm.toNat * 2 ^ 44

/-- STEP.LOOP (R189). -/
def loopWord (h : Hdr) (lc : Fin 4) (iter : BitVec 16) : Nat := headWord 12 3 h false + lc.val * 2 ^ 94 + iter.toNat * 2 ^ 78

/-- STEP.ENDLOOP (R189). -/
def endloopWord (h : Hdr) (lc : Fin 4) (target : BitVec 14) : Nat := headWord 12 4 h false + lc.val * 2 ^ 94 + target.toNat * 2 ^ 80

/-- STEP.JUMP (R189). -/
def jumpWord (h : Hdr) (target : BitVec 14) : Nat := headWord 12 5 h false + target.toNat * 2 ^ 82

/-- STEP.LDX (R189). -/
def ldxWord (h : Hdr) (ireg : Idx16) (src : Opnd) (word : BitVec 6) : Nat :=
  headWord 12 6 h false + ireg.val * 2 ^ 92 + opndWord src * 2 ^ 66 + word.toNat * 2 ^ 60

/-- A word without the operand bits that its instruction ignores: ESIZE of COPY and FILL, SRC of FILL (R179). -/
def actsOn (w : Nat) : Nat :=
  let op := w / 2 ^ 120
  if op = 0x30 then w - bits w 82 2 * 2 ^ 82
  else if op = 0x32 then w - bits w 52 32 * 2 ^ 52
  else w

end Sys2Proof.Machine
end

