-- ==== Sys2Proof/Machine/PierOps.lean ====
section
/-! DEFINITION. Issue of pier instructions: what holds an instruction back, what the checks of issue do, tokens, completion, and what an
access of the pier's own units meets (R168 to R175, R184, R195 to R198). -/

namespace Sys2Proof.Machine

/-! ### Detections of the sequencer -/

/-- The pier of field `f` records an event of an instruction, and LAST_FAULT (R199). -/
def State.pierFault (s : State) (f code : Nat) (data : List Byte) : State :=
  (s.event (pierMaster f) code data).setReg regLastFault f (code * 65536 + (s.field f).seq.pc % 16384)

/-- A failure in PROLOGUE (R198): the sequencer is ABORTING until the cause is cleared and the prologue starts again
(notes/assumptions/68); a second failure in the same prologue pauses the span. -/
def State.prologueFailure (s : State) (f : Nat) : State :=
  let again := (s.field f).seq.prologueFailed
  let s1 := (s.pierStop f).modSeq f fun x => { x with prologueFailed := !again }
  match again, s.spanOf f with
  | true, some k =>
    let s2 := (s1.seqWait f).modSpan k fun p =>
      { p with recovery := p.recovery.filter (· != .test) ++ [.test], testing := p.testing ++ [pierUnit f], testHit := false }
    if (s2.span k).state = .paused then s2 else s2.pauseNow k .now
  | true, none => s1.seqWait f
  | false, _ => s1

/-- A pier's failure reaches its attempt (R32), or its prologue (R198). -/
def State.failed (s : State) (f status : Nat) : State :=
  if (s.field f).seq.state = .prologue then s.prologueFailure f else s.reportFail f status

/-- Issue stops in both twins (R168, R196): the array stops, and the attempt or the prologue fails.  Only RUNNING and PROLOGUE become
ABORTING by it (R198); elsewhere an open attempt is reported, and its ABORT follows. -/
def State.issueStops (s : State) (f status : Nat) : State :=
  match (s.field f).seq.state with
  | .prologue => s.prologueFailure f
  | .running => (s.reportFail f status).pierStop f
  | _ => (s.reportFail f status).modArray f ArrayS.clear

/-- A difference between the marionettes (R196, R584). -/
def State.twinFault (s : State) (f indexB : Nat) : State :=
  let q := (s.field f).seq
  let s1 := (s.pierFault f 0x0304 (leBytes 2 q.pc ++ leBytes 2 indexB ++ s.stepLow f)).bump regTwinMismatches f 1
  (s1.issueStops f 4).chargePier f (pierUnit f) 0x0304 |>.settle

/-- An uncorrectable word of program memory (R168). -/
def State.wordFault (s : State) (f : Nat) : State :=
  let s1 := (s.pierFault f 0x0305 []).modSeq f fun q => { q with damagedWord := true }
  ((s1.issueStops f 0x10).chargePier f (pierUnit f) 0x0305).settle

/-! ### Issue -/

/-- Queue places of a unit (R170); the fetch engine queues reads, not instructions (R182). -/
def unitPlaces : PierUnit → Option Nat
  | .array => some 4 | .vector => some 8 | .turn => some 4 | .mesh => some 16 | .fetch => none

/-- Is it a NEXT before the COMMIT of its body, behind which nothing issues (R170, R189)? -/
def Waiting.isNext : Waiting → Bool
  | .next _ => true
  | _ => false

/-- Is it a RECV, which holds a place of the mesh interface (R170, R173)? -/
def Waiting.isRecv : Waiting → Bool
  | .recv _ _ _ _ => true
  | _ => false

/-- Has a unit a free queue place? -/
def Sequencer.hasPlace (q : Sequencer) (u : PierUnit) : Bool :=
  match unitPlaces u with
  | none => true
  | some n =>
    let recvs := if u = .mesh then (q.waiting.filter Waiting.isRecv).length else 0
    (q.inFlight.filter (·.unit == u)).length + recvs < n

/-- Is a token busy (R171)? -/
def Sequencer.busy (q : Sequencer) (t : Nat) : Bool := q.tokens.getD t false

/-- May an instruction issue (R170): its WAIT tokens and its own token are not busy, and its unit has a place. -/
def Sequencer.mayIssue (q : Sequencer) (h : Hdr) (u : Option PierUnit) : Bool :=
  !(bitList 16 h.wait.toNat).any q.busy && !(h.sett && q.busy h.token) &&
  match u with
  | none => true
  | some x => q.hasPlace x

/-- Can the sequencer issue instructions at all (R168, R189, R198)? -/
def Sequencer.issuing (q : Sequencer) : Bool :=
  (q.state == .running || q.state == .prologue) && !q.damagedWord && !q.waiting.any Waiting.isNext

/-- Is a word the instruction at the instruction index, the next one in program order (R170)? -/
def Sequencer.nextIs (q : Sequencer) (w : Nat) : Bool := q.image.any fun i => i.inside q.pc && actsOn (i.word q.pc) == actsOn w

/-- The token of an instruction, if it sets one. -/
def hdrToken (h : Hdr) : Option Nat := if h.sett then some h.token.val else none

/-- Make a token busy or free. -/
def Sequencer.setToken (q : Sequencer) (t : Option Nat) (b : Bool) : Sequencer :=
  match t with
  | none => q
  | some i => { q with tokens := q.tokens.set i b }

/-- One cycle in which the sequencer of a pier, if it `can`, tries to issue the instruction of word `w` (R168 to R171, R195, R196): a
difference of the twins stops issue in any cycle; an instruction other than the next one of the image is held back; a bad word stops
issue; an instruction that cannot issue counts a waiting cycle; in a drawbridge no cycle passes (R88); otherwise the instruction index moves on and `act` is the effect. -/
def State.issueIf (s : State) (can : Bool) (h : Hdr) (w : Nat) (u : Option PierUnit) (act : State → State) : State :=
  let f := h.field.val
  let q := (s.field f).seq
  if (s.field f).state = .drawbridge then s else
  match h.fault with
  | .twin b => if q.state = .empty then s else s.twinFault f b.toNat
  | x =>
    if !(can && q.nextIs w) then s
    else if x = .uncorrectable then s.wordFault f
    else
      let s1 := if x = .corrected then s.bump regProgEccCorrected f 1 else s
      if (s1.field f).seq.mayIssue h u then act (s1.modSeq f fun q => { q with pc := q.pc + 1 })
      else s1.bump regIssueWaits f 1

/-- One cycle of an attempt or a prologue in which an instruction may issue. -/
def State.issue (s : State) (h : Hdr) (w : Nat) (u : Option PierUnit) (act : State → State) : State :=
  s.issueIf (s.field h.field).seq.issuing h w u act

/-- An issued instruction enters its unit's queue with its token busy (R171): `left` responses are awaited. -/
def State.launch (s : State) (h : Hdr) (u : PierUnit) (cls left : Nat) (args : List Nat) : State :=
  s.modSeq h.field fun q =>
    ({ q with inFlight := q.inFlight ++ [InFlight.mk u cls (hdrToken h) q.serial left args], serial := q.serial + 1 }).setToken (hdrToken h) true

/-- An instruction that waits for an event takes its token (R171, R184, R186, R187). -/
def State.await (s : State) (h : Hdr) (w : Waiting) : State :=
  s.modSeq h.field fun q => ({ q with waiting := q.waiting ++ [w] }).setToken (hdrToken h) true

/-! ### Completion -/

/-- The token that a waiting instruction frees. -/
def Waiting.token : Waiting → Option Nat
  | .recv _ _ _ t => t | .sync _ _ t => t | .localSync t => t | .verdicts _ t => t | .next t => t

/-- Has what a waiting instruction waits for come to pass?  A barrier completes by its RELEASE alone; `still` says that the fetch engine has
nothing outstanding. -/
def Sequencer.ready (q : Sequencer) (still : Bool) : Waiting → Bool
  | .recv signals chan count _ => count ≤ (if signals then q.sigCount else q.rowCount).getD chan 0
  | .sync _ _ _ | .next _ => false
  | .localSync t => still && q.inFlight.isEmpty && !q.waiting.any Waiting.isRecv && (List.range 16).all fun i => t == some i || !q.busy i
  | .verdicts before _ => !q.verdicts.any fun v => !v.1 && v.2 < before

/-- A waiting instruction completes (R184): a RECV subtracts its count. -/
def Sequencer.complete (q : Sequencer) (w : Waiting) : Sequencer :=
  let q1 := { q with waiting := q.waiting.erase w }.setToken w.token false
  match w with
  | .recv true chan count _ => { q1 with sigCount := q1.sigCount.set chan (q1.sigCount.getD chan 0 - count) }
  | .recv false chan count _ => { q1 with rowCount := q1.rowCount.set chan (q1.rowCount.getD chan 0 - count) }
  | _ => q1

/-- Complete waiting instructions, oldest first, until none is ready. -/
def Sequencer.drainWaiting (still : Bool) : Nat → Sequencer → Sequencer
  | 0, q => q
  | n + 1, q => match q.waiting.find? (q.ready still) with
    | none => q
    | some w => Sequencer.drainWaiting still n (q.complete w)

/-- Look at the waiting instructions of a pier again. -/
def State.wakeWaiting (s : State) (f : Nat) : State :=
  s.modSeq f fun q => Sequencer.drainWaiting (s.fetchSlots f == 0) (q.waiting.length + 1) q

/-- An instruction in flight completes: its token is not busy (R171). -/
def State.finish (s : State) (f : Nat) (x : InFlight) : State :=
  (s.modSeq f fun q => ({ q with inFlight := q.inFlight.erase x }).setToken x.token false).wakeWaiting f

/-- A response to an instruction of number `n` has come: with its last one a FETCH or a SEND completes (R173). -/
def State.responded (s : State) (f n : Nat) : State :=
  let s1 := s.modSeq f fun q =>
    { q with inFlight := q.inFlight.map fun x => if x.serial = n then { x with left := x.left - 1 } else x }
  match (s1.field f).seq.inFlight.find? fun x => x.serial == n with
  | some x => if x.left = 0 ∧ (x.cls = 4 ∨ x.cls = 5) then s1.finish f x else s1
  | none => s1

/-! ### Operands and accesses -/

/-- The pier address of an operand at field `f` (R175). -/
def State.opnd (s : State) (f : Nat) (o : Opnd) : Nat := operandAddr (s.field f).seq.idx o.ireg o.offset.toNat

/-- The low 32 bits of a step and an instruction index as event data. -/
def State.stepAndPc (s : State) (f : Nat) : List Byte := s.stepLow f ++ leBytes 2 ((s.field f).seq.pc - 1)

/-- Does an operand name a bank that does not exist (R175)? -/
def badBank (p : Nat) : Bool := 40 ≤ addrBank p

/-- An operand of a bank from 40 to 63 (R175): the instruction is not performed. -/
def State.operandFault (s : State) (f : Nat) : State :=
  ((s.event (pierMaster f) 0x0812 (leBytes 2 ((s.field f).seq.pc - 1))).setReg regLastFault f
    (0x0812 * 65536 + ((s.field f).seq.pc - 1) % 16384)).failed f 0x40

/-- An instruction that meets a WAKING bank waits there (R158), and what follows it waits behind it: it is still the next of its image. -/
def State.unissue (s : State) (f : Nat) : State := s.modSeq f fun q => { q with pc := q.pc - 1 }

/-- The pier's units access rows: a WAKING bank makes the instruction wait; operands that name no bank are refused (R175), rows of banks that do not exist record an event of the
access class (R16, R136; notes/assumptions/17), banks that are not ACTIVE event 0x0811 (R158), both with an ACCESS report; locked rows
report UNCORR (R101, R145); otherwise `act` is performed. -/
def State.withRows (s : State) (f : Nat) (operands rows : List Nat) (act : State → State) : State :=
  if operands.any badBank then s.operandFault f
  else if s.rowsAsleep f rows then s.unissue f
  else
    let st := s.rowsStatus f rows
    if st = 0 then act s
    else
      let s1 := if rows.any badBank then (s.event (pierMaster f) (0x0800 + (s.free 8).toNat) []).nextFree
        else if st.testBit 6 then s.event (pierMaster f) 0x0811 [] else s
      s1.failed f st

/-- Result rows are written (R140): a last row that is not filled is a narrow write; lists that the rows held are dropped (R193). -/
def State.putRows (s : State) (f p : Nat) (l : List Byte) : State :=
  let n := (l.length + 511) / 512
  let whole := l.length / 512
  let s1 := (List.range whole).foldl (fun t i => t.setRow f (rowAfter p i) (slice (512 * i) 512 l)) s
  let s2 := if whole < n then
      (s1.write (rowKey f (rowAfter p whole)) (l.drop (512 * whole))).bump regNarrowWrites f 1
    else s1
  (rowsFrom p n).foldl (fun t r => t.rowWritten f r) s2

/-- Rows that hold PARTIAL entries keep the per-tensor scales of the passes that produced them (R125). -/
def State.tagRows (s : State) (f : Nat) (rows scales : List Nat) : State :=
  if scales.isEmpty then s
  else s.modField f fun x => { x with rowScales := x.rowScales.filter (fun e => !rows.contains e.1) ++ rows.map fun r => (r, scales) }

/-- The per-tensor scales that go with a row (R125). -/
def State.scalesAt (s : State) (f p : Nat) : List Nat := ((s.field f).rowScales.lookup p).getD []

/-- The descriptor of an image (R165, R177, R202). -/
def State.descriptor (s : State) (f d : Nat) : List Byte := ((s.field f).seq.image.map fun i => i.descs.getD d []).getD []

end Sys2Proof.Machine
end

