-- ==== Sys2Proof/Machine/Array.lean ====
section
/-! DEFINITION. The matrix array: PASS, its checks, spin operations (R70 to R107, R119 to R133, R176). -/

namespace Sys2Proof.Machine

/-! ### Checks (R96, R130) -/

/-- The checking profile of the pier's span in force (R49, R371). -/
def State.profileOf (s : State) (f : Nat) : Nat :=
  match s.memberOf f with
  | some k => if (s.span k).step.isSome then s.inForce k regCheckProfile else s.reg regCheckProfile k
  | none => 0

/-- Is pass p of step n checked (R96, R187)? -/
def passChecked (profile p n : Nat) (force : Bool) : Bool := force || profile == 0 || (profile == 1 && (p + n) % 8 == 0)

/-! ### Spin operations (R102 to R106) -/

/-- A real pass is issued (R105): spin passes stop; a busy fraction below 0.8 × A makes it wait for a pre-ramp, which is counted once, and
not again for the passes that queue behind it (notes/assumptions/69). -/
def State.arrayEnter (s : State) (f : Nat) : State :=
  let a := (s.field f).array
  let low := match a.spin with
    | .rest => !s.arrayBusy f && s.spinOn f
    | .ramping => 10 * s.busyNow f < 8 * 20000 * a.level
    | _ => false
  if a.spin = .preRamp then s
  else if low then (s.spinTo f .preRamp).bump regPreRamps f 1
  else s.spinTo f .rest

/-! ### PASS -/

/-- How many outputs a pass drains (R73, R76, R80, R83, R89). -/
def PassDesc.outCount (d : PassDesc) : Nat :=
  if d.diagonal then 256 * d.beats else if d.flow = 0 then d.beats * d.subs * d.side else d.batch * d.sets * d.groups * d.width

/-- The rows that a pass writes at DST: none without DRAIN, or with results to the vector unit (R73, R176). -/
def State.drainRows (s : State) (f : Nat) (o : PassOp) (d : PassDesc) : List Nat :=
  if o.drain && !d.outVec then rowsFrom (s.opnd f o.dst) (rowsOf d.ofmt d.outCount) else []

/-- What a pass with DRAIN set writes (R73, R126 to R129): its bytes and counts.  PARTIAL entries keep the scales of their pass (R125). -/
def State.drainPass (s : State) (f : Nat) (h : Hdr) (o : PassOp) (d : PassDesc) (gs : List (List PassEntry)) : State :=
  let outs := gs.map fun g => combineAll (g.map (·.sum))
  let lossy := (outs.map (·.2)).sum
  let r := drain d.ofmt d.outScale d.scales (fun i => Config.freeValue (s.freeCount + i) 112) (outs.map (·.1))
  let used := gs.flatten.map (·.num)
  let q := (s.field f).seq
  let s1 := { s with freeCount := s.freeCount + (if r.2.2 = 0 then 0 else outs.length) }
  let s2 := ((s1.bump regSaturations f r.2.1).bump regNonfinite f r.2.2).modArray f fun a =>
    { a with accum := a.accum.filter fun e => !used.contains e.1 }
  let s3 := if r.2.2 ≠ 0 ∧ !q.nonfinSeen then
      (s2.event (pierMaster f) 0x0303 (s.stepLow f ++ leBytes 2 q.passIndex)).modSeq f fun x => { x with nonfinSeen := true }
    else s2
  let s4 := s3.modSeq f fun x => { x with window := x.window + lossy }
  let scales := if d.ofmt = 6 then d.scales else []
  if d.outVec then s4.modSeq f fun x => { x with forward := x.forward ++ [(if h.sett then h.token.val else 16, r.1, scales)] }
  else (s4.putRows f (s.opnd f o.dst) r.1).tagRows f (s.drainRows f o d) scales

/-- The weight registers when a STATIONARY pass has its tile: the second ones while an earlier pass uses the first (R77). -/
def ArrayS.loadTile (a : ArrayS) (busy : Bool) (tile : List Byte) : ArrayS :=
  if busy then { a with second := some tile } else { a with first := some tile, second := none }

/-- The delay of a checked pass whose check beat comes within 32 cycles of that of an earlier one (R95): timing leaves it open; with no
earlier checked pass there is none. -/
def State.checkDelay (s : State) (f : Nat) : State :=
  if s.reg regCheckedPasses f = 0 then s else (s.bump regCheckSpacingStalls f (s.free 5).toNat).nextFree

/-- A pass runs (R67 to R101, R118 to R133): entries, WINDOW count, checksums, results. -/
def State.runPass (s : State) (f : Nat) (h : Hdr) (o : PassOp) (d : PassDesc) (w a : List (List Nat)) : State :=
  let q := (s.field f).seq
  let x : PassInput := ⟨w.map (s.rows f), a.map (s.rows f)⟩
  let gs := d.entries o.chain (s.field f).array.accum x
  let es := gs.flatten
  let drops := (es.map (·.drops)).sum
  let checked := passChecked (s.profileOf f) q.passIndex (q.reg 0) q.forceCheck
  let s1 := (s.arrayEnter f).modArray f fun y =>
    let z := if !d.diagonal && d.flow == 0 then y.loadTile (s.arrayBusy f) (x.weights.headD []) else y
    { z with accum := y.accum.filter (fun e => !(es.map (·.num)).contains e.1) ++ es.map (fun e => (e.num, e.sum))
             lastMode := some (d.mode, d.flow) }
  let s2 := s1.modSeq f fun y => { y with window := y.window + drops, forceCheck := false }
  let s3 := if o.drain then s2.drainPass f h o d gs else s2
  let total := (s3.field f).seq.window - q.window
  let s4 := if total = 0 then s3 else (s3.bump regWindowPasses f 1).bump regWindowDrops f total
  let s5 := if d.diagonal then s4.bump regDiagonalPasses f 1 else s4
  let s6 := if checked then
      (((s5.checkDelay f).bump regCheckedPasses f 1).modSeq f fun y => { y with verdicts := y.verdicts ++ [(false, q.passIndex)] }).modArray f
        fun y => { y with checks := y.checks ++ [d.check q.passIndex x (gs.map (withDrain o.drain)).flatten] }
    else s5
  (s6.modSeq f fun y => { y with passIndex := q.passIndex + 1 }).launch h .array 1 0 []

/-- PASS (R176). -/
def execPass (h : Hdr) (o : PassOp) (s : State) : Host.Outcome State Fault Refusal :=
  .next (s.issue h (passWord h o) (some .array) fun t =>
    let f := h.field.val
    let d := PassDesc.ofBytes (t.descriptor f o.desc.toNat)
    let w := d.weightRows (t.opnd f o.wsrc)
    let a := d.actRows (t.opnd f o.asrc)
    let dst := t.drainRows f o d
    t.withRows f ([t.opnd f o.wsrc, t.opnd f o.asrc] ++ dst.take 1) (w.flatten ++ a.flatten ++ dst) fun u => u.runPass f h o d w a)

/-! ### Verdicts and spin commands -/

/-- The verdict of a pass (R90 to R98, R130, R131): the checker compares, given what the cells got wrong; a failure reports CHECKSUM, records
0x0301 and is charged to the failing blocks.  No cycle passes, and so no verdict comes, in a drawbridge (R88). -/
def execChecksumVerdict (f : FieldId) (pass : BitVec 16) (faults : List CellFault) (s : State) : Host.Outcome State Fault Refusal :=
  let q := (s.field f).seq
  .next (match q.verdicts.find? fun v => !v.1 && v.2 % 65536 == pass.toNat with
    | none => s
    | some v =>
      if (s.field f).state = .drawbridge then s else
      let c := ((s.field f).array.checks.find? fun c => c.pass == v.2).getD ⟨v.2, []⟩
      let blocks := c.failing faults
      let s1 := ((s.modSeq f fun x => { x with verdicts := x.verdicts.erase v }).modArray f fun x =>
        { x with checks := x.checks.filter (·.pass != v.2) }).bump regBoundedChecks f c.bounded
      let s2 := if blocks = 0 then s1 else
        let s3 := ((s1.event (pierMaster f) 0x0301 (s.stepLow f ++ leBytes 2 pass.toNat ++ leBytes 2 blocks)).bump regChecksumFails f
          1).setReg regLastFailBlocks f blocks
        ((bitList 16 blocks).foldl (fun t b => t.chargePier f (blockUnit f b) 0x0301) (s3.failed f 2)).settle
      s2.wakeWaiting f)

/-- The gap reaches the spin threshold: the ramp-down begins (R104). -/
def execSpinThresholdExpiry (f : FieldId) (s : State) : Host.Outcome State Fault Refusal :=
  .next (if (s.field f).array.spin = .spinning then s.spinTo f .ramping else s)

/-- The ramp-down reaches 0: spin stops (R104). -/
def execSpinRampEnd (f : FieldId) (s : State) : Host.Outcome State Fault Refusal :=
  .next (if (s.field f).array.spin = .ramping then s.spinTo f .rest else s)

/-- The pre-ramp reaches the running level: the waiting pass enters (R105). -/
def execPreRampDone (f : FieldId) (s : State) : Host.Outcome State Fault Refusal :=
  .next (if (s.field f).array.spin = .preRamp then s.spinTo f .rest else s)

end Sys2Proof.Machine
end

