-- ==== Sys2Proof/Machine/Keccak.lean ====
section
/-! DEFINITION. SHA3-256 and SHAKE128 (FIPS 202), as R166, R212, R377, R382 and R391 use them. -/

namespace Sys2Proof.Machine

/-- The register of the constant generator after `n` shifts: eight bits, fed back by x⁸ + x⁶ + x⁵ + x⁴ + 1. -/
def keccakShift : Nat → Nat
  | 0 => 1
  | n + 1 => let r := 2 * keccakShift n; if r < 256 then r else r ^^^ 0x171

/-- The round constants of Keccak-f[1600]: bit 2^j − 1 of constant `i` is the lowest bit of the generator after j + 7 i shifts. -/
def keccakRounds : List Nat :=
  (List.range 24).map fun i => ((List.range 7).map fun j => keccakShift (7 * i + j) % 2 * 2 ^ (2 ^ j - 1)).sum

/-- The lanes x + 5 y in the order of the walk that sets the rotations: from lane 1, (x, y) goes to (y, 2x + 3y). -/
def keccakWalk : Nat → Nat × Nat
  | 0 => (1, 0)
  | n + 1 => let p := keccakWalk n; (p.2, (2 * p.1 + 3 * p.2) % 5)

/-- The rotations of lanes x + 5y: the lane that the walk meets at its step t turns by the triangular number (t+1)(t+2)/2, lane 0 not. -/
def keccakRot : List Nat :=
  (List.range 25).map fun i =>
    match (List.range 24).find? fun t => (keccakWalk t).1 + 5 * (keccakWalk t).2 == i with
    | some t => (t + 1) * (t + 2) / 2 % 64
    | none => 0

/-- A 64-bit lane rotated left. -/
def rotLane (v n : Nat) : Nat := v * 2 ^ n % 2 ^ 64 + v / 2 ^ (64 - n)

/-- One round on 25 lanes. -/
def keccakRound (a : List Nat) (rc : Nat) : List Nat :=
  let c := (List.range 5).map fun x => (List.range 5).foldl (fun v y => v ^^^ a.getD (x + 5 * y) 0) 0
  let d := (List.range 5).map fun x => c.getD ((x + 4) % 5) 0 ^^^ rotLane (c.getD ((x + 1) % 5) 0) 1
  let t := (List.range 25).map fun i => a.getD i 0 ^^^ d.getD (i % 5) 0
  let b := (List.range 25).map fun j =>
    let i := (j % 5 + 3 * (j / 5)) % 5 + 5 * (j % 5)
    rotLane (t.getD i 0) (keccakRot.getD i 0)
  (List.range 25).map fun j =>
    let row := 5 * (j / 5)
    let v := b.getD j 0 ^^^ ((2 ^ 64 - 1 - b.getD (row + (j + 1) % 5) 0) &&& b.getD (row + (j + 2) % 5) 0)
    if j = 0 then v ^^^ rc else v

/-- Keccak-f[1600]. -/
def keccakF (a : List Nat) : List Nat := keccakRounds.foldl keccakRound a

/-- The bytes of a message with its padding at a rate, domain suffix `sfx`. -/
def keccakPad (rate sfx : Nat) (m : List Byte) : List Byte :=
  let n := rate - m.length % rate
  if n = 1 then m ++ leBytes 1 (sfx + 0x80) else m ++ leBytes 1 sfx ++ zeros (n - 2) ++ leBytes 1 0x80

/-- Absorb `n` blocks. -/
def keccakAbsorb (rate : Nat) : Nat → List Byte → List Nat → List Nat
  | 0, _, a => a
  | n + 1, m, a =>
    keccakAbsorb rate n (m.drop rate) (keccakF ((List.range 25).map fun i => a.getD i 0 ^^^ (if 8 * i < rate then leAt m (8 * i) 8 else 0)))

/-- The first `out` bytes, at most one block, of a sponge's output. -/
def keccak (rate sfx out : Nat) (m : List Byte) : List Byte :=
  let p := keccakPad rate sfx m
  ((keccakAbsorb rate (p.length / rate) p (List.replicate 25 0)).map (leBytes 8)).flatten.take out

/-- SHA3-256. -/
def sha3 (m : List Byte) : List Byte := keccak 136 0x06 32 m
/-- The first 8 bytes of SHAKE128 as a little-endian number (R212, R377). -/
def shake64 (m : List Byte) : Nat := ofLe (keccak 168 0x1F 8 m)

end Sys2Proof.Machine
end

