-- ==== Sys2Proof/Machine/DigestOps.lean ====
section
/-! DEFINITION. Regions of a scratchpad, their tower copies, and the weight digests over them (R151, R152, R268, R382 to R384). -/

namespace Sys2Proof.Machine

/-- A pier address of a bank and row. -/
def pierAddr (b row : Nat) : Nat := b * 65536 + row

/-- The region table of the image in the pier of field `f` (R151). -/
def State.regionTable (s : State) (f : Nat) : List Byte := ((s.field f).seq.image.map (·.regions)).getD []

/-- The region of a region table that holds a row (R151). -/
def rowRegion (t : List Byte) (b row : Nat) : Option Nat :=
  (List.range 16).find? fun i =>
    leAt t (16 * i + 6) 1 != 0 && leAt t (16 * i) 1 ≤ b && b ≤ leAt t (16 * i + 1) 1 && leAt t (16 * i + 2) 2 ≤ row &&
      row ≤ leAt t (16 * i + 4) 2

/-- Where a RESIDENT or CARRY row is refilled from (R152). -/
def regionSource (t : List Byte) (i b row : Nat) : Nat :=
  let first := leAt t (16 * i + 2) 2
  leAt t (16 * i + 8) 8 + ((b - leAt t (16 * i) 1) * (leAt t (16 * i + 4) 2 - first + 1) + (row - first)) * 512

/-- The contents that a row is refilled with (R152): its tower copy, or zeros for STEP and a row of no region; none when the tower does
not deliver the copy. -/
def State.refill (s : State) (f b row : Nat) : Option (List Byte) :=
  let t := s.regionTable f
  match rowRegion t b row with
  | none => some (zeros 512)
  | some i => if leAt t (16 * i + 6) 1 = 3 then some (zeros 512) else s.peek (regionSource t i b row) 512

/-- The refill of a row reads its tower copy. -/
def State.noteRefill (s : State) (f b row : Nat) : State :=
  let t := s.regionTable f
  match rowRegion t b row with
  | none => s
  | some i => if leAt t (16 * i + 6) 1 = 3 then s else s.noteRead (regionSource t i b row) 512

/-! ### Digests (R382 to R384) -/

/-- The RESIDENT regions of a table with the banks of each. -/
def residentBanks (t : List Byte) : List (Nat × Nat) :=
  (((List.range 16).filter fun i => leAt t (16 * i + 6) 1 == 1).map fun i =>
    ((List.range 40).filter fun b => leAt t (16 * i) 1 ≤ b && b ≤ leAt t (16 * i + 1) 1).map fun b => (i, b)).flatten

/-- First row and number of rows of region `i` in each of its banks. -/
def regionRows (t : List Byte) (i : Nat) : Nat × Nat :=
  (leAt t (16 * i + 2) 2, leAt t (16 * i + 4) 2 - leAt t (16 * i + 2) 2 + 1)

/-- The bank digest of region `i` in bank `b` as its rows stand (R382). -/
def State.bankDigest (s : State) (f i b : Nat) : List Byte :=
  let r := regionRows (s.regionTable f) i
  sha3 (s.read (scratchKey f b r.1) (512 * r.2))

/-- The 16 region digests that a table of bank digests gives (R382). -/
def regionDigests (t : List Byte) (tab : List ((Nat × Nat) × List Byte)) : List Byte :=
  ((List.range 16).map fun i =>
    if leAt t (16 * i + 6) 1 = 1 then sha3 ((tab.filter (·.1.1 == i)).map (·.2)).flatten else zeros 32).flatten

/-- The table of bank digests with those of some banks taken anew (R384). -/
def State.digestTable (s : State) (f : Nat) (fresh : Nat → Bool) : List ((Nat × Nat) × List Byte) :=
  (residentBanks (s.regionTable f)).map fun x =>
    (x, if fresh x.2 then s.bankDigest f x.1 x.2 else ((s.field f).lastDigests.lookup x).getD (zeros 32))

/-- The digests of some banks are taken. -/
def State.keepDigests (s : State) (f : Nat) (fresh : Nat → Bool) : State :=
  s.modField f fun x => { x with lastDigests := s.digestTable f fresh }

/-- A pass ends: 0x3000+f.92, .93 and .95 (R384). -/
def State.showDigests (s : State) (f : Nat) : State :=
  let l := regionDigests (s.regionTable f) (s.field f).lastDigests
  ((s.setReg regWeightDigest f (ofLe (sha3 l))).setReg regRegionDigests f (ofLe l)).setReg regDigestPassTime f (s.fieldTime f)

/-- The end of loading, or of a checked reload (R383): the landing digests, and a full pass that equals them. -/
def State.landDigests (s : State) (f : Nat) : State :=
  let s1 := s.keepDigests f fun _ => true
  let s2 := s1.modField f fun x =>
    { x with homeDigests := x.lastDigests, banks := x.banks.map fun b => { b with cleanTime := s.fieldTime f } }
  (s2.setReg regHomeDigests f (ofLe (regionDigests (s2.regionTable f) (s2.field f).homeDigests))).showDigests f

/-- Region `i` of bank `b` is written again (R268, R385): from its tower copy, or, where the check that follows fails, with bytes that
the spec leaves open. -/
def State.reloadBank (s : State) (f i b : Nat) (good : Bool) : State :=
  let t := s.regionTable f
  let r := regionRows t i
  let n := 512 * r.2
  let s1 := s.dropAhead f fun a => a.row.any fun p => addrBank p == b && r.1 ≤ addrRow p && addrRow p < r.1 + r.2
  if good then
    let s2 := s1.noteRead (regionSource t i b r.1) n
    match s.peek (regionSource t i b r.1) n with
    | some l => s2.write (scratchKey f b r.1) l
    | none => s2
  else { s1.write (scratchKey f b r.1) ((List.range n).map fun j => Config.freeValue (s.freeCount + j) 8) with freeCount := s.freeCount + n }

/-- Every RESIDENT region of a pier is reloaded (R268). -/
def State.reloadRegions (s : State) (f : Nat) (good : Bool) : State :=
  (residentBanks (s.regionTable f)).foldl (fun t x => t.reloadBank f x.1 x.2 good) s

end Sys2Proof.Machine
end

