-- ==== Sys2Proof/Machine/CommitCmds.lean ====
section
/-! DEFINITION. The commands of the commit protocol: reports, keystones, timeouts, aborts, openings, epochs, requests and the notices of
paired spans (R25 to R56, R219 to R222, R312). -/

namespace Sys2Proof.Machine

/-- The step number and attempt of a packet are those of the span's open attempt. -/
def Span.isOpen (p : Span) (step attempt : Nat) : Bool := p.step.isSome && p.committed + 1 == step && p.attempt == attempt

/-! ### Reports -/

/-- The status of a pier's ready report (R32, R123): the failing bits it has met, and WINDOW. -/
def Sequencer.status (q : Sequencer) : Nat := q.failedBits + (if q.window ≠ 0 then 256 else 0)

/-- Is a pier's ready report due (R31, R46)? -/
def Sequencer.readyDue (q : Sequencer) : Bool := q.state == .committing && !q.reported && q.verdicts.isEmpty && q.writesOpen == 0

/-- Once every verdict has arrived and every write has completed, a pier that issued COMMIT sends its ready report (R31). -/
def execReadyReport (f : FieldId) (s : State) : Host.Outcome State Fault Refusal :=
  let q := (s.field f).seq
  .next (match s.openStep f with
    | some (k, n, a) =>
      if q.readyDue then
        (s.modSeq f fun x => { x with reported := true }).send (pierMaster f) tyReport k n a (s.anchorDst k) q.status
          [0, 1, q.window]
      else s
    | none => s)

/-- The anchor holds a clean report from every pier and has issued COMMIT (R35, R56): the keystone record writes begin. -/
def State.decide (s : State) (k : Nat) : State :=
  let p := s.span k
  if p.step = some .closing ∧ s.quorum k ≤ p.clean then
    let s1 := s.modSpan k fun q => { q with step := some .decided, writeTime := s.fieldTime q.anchor }
    let a := pierMaster p.anchor
    (s1.send a tyReadback k (p.committed + 1) p.attempt (.addr p.addrA) 0 [p.addrA]).send a tyReadback k (p.committed + 1) p.attempt
      (.addr p.addrB) 0 [p.addrB]
  else s

/-- Failing bits reach the anchor: they abort an attempt that is open, and the OR of all reports of an aborted one is kept (R32). -/
def State.reportFailed (s : State) (k status : Nat) : State :=
  if (s.span k).step = some .aborting then
    let all := (s.span k).status ||| status
    (s.modSpan k fun p => { p with status := all }).setReg regLastAbortCause k all
  else s.abortSpan k status

/-- A ready report reaches the anchor (R32, R33): one with failing bits, or one of an attempt that is aborting, counts as a failed one. -/
def State.reportReady (s : State) (k count status window : Nat) : State :=
  if status % 256 ≠ 0 ∨ (s.span k).step = some .aborting then s.reportFailed k status
  else (s.modSpan k fun p => { p with clean := p.clean + count, status := p.status ||| status, windowSum := p.windowSum + window }).decide k

/-- An abort-done report reaches the anchor (R40). -/
def State.reportAbortDone (s : State) (k count : Nat) : State :=
  if (s.span k).step = some .aborting then
    ((s.modSpan k fun p => { p with doneCount := p.doneCount + count }).abortQuorum k).settle
  else s

/-- A report reaches the anchor (R32 to R35, R40): stale ones are dropped, one for another step or attempt sets ORDER. -/
def execReport (p : Pkt) (kind : ReportKind) (count : BitVec 16) (status : BitVec 16) (window : BitVec 32) (s : State) :
    Host.Outcome State Fault Refusal :=
  let k := p.span.toNat
  .next (s.carried tyReport 1 p fun t =>
    if t.stale p then t.dropStale p
    else if (t.span k).step.isNone then t
    else if !(t.span k).isOpen p.step.toNat p.attempt.toNat then t.reportFailed k 1
    else match kind with
      | .ready => t.reportReady k count.toNat status.toNat window.toNat
      | .failed => t.reportFailed k status.toNat
      | .abortDone => t.reportAbortDone k count.toNat)

/-! ### The keystone -/

/-- What follows a keystone (R36, R54): PAUSED when a pause is set, the next step when work waits, else READY. -/
def State.afterKeystone (s : State) (k : Nat) : State :=
  if !(s.span k).lost.isEmpty ∨ s.pauseSet k then s.enterPaused k
  else if s.workWaiting k ∧ s.mayOpen k then s.stepOpens k
  else s.setSpanState k .ready

/-- Both read-backs have returned (R29, R33, R35): the copies hold the step, every mark moves, the advance goes out. -/
def State.keystoneDone (s : State) (k : Nat) : State :=
  let p := s.span k
  let s1 := s.writeKeystone k p.nextRecord
  let s2 := if p.status.testBit 8 then (s1.event (pierMaster p.anchor) 0x0A06 []).bump regWindowSteps k 1 else s1
  (((s2.closeStep k).afterKeystone k).sendAdvance k).sendNotice k

/-- Both keystone read-backs return (R29): while a copy cannot be written, they have not.  Outside RUNNING no keystone advance can follow,
and the event is recorded (R54). -/
def execKeystoneReadbackDone (k : SpanId) (s : State) : Host.Outcome State Fault Refusal :=
  .next (if (s.span k).state ≠ .running then s.ignored k 6
    else if (s.span k).step = some .decided ∧ s.copiesReachable k then (s.keystoneDone k).settle else s)

/-- The keystone advance reaches a pier (R36, R78, R198, R331): its marks move, and the next step starts at once if it is open. -/
def State.advancePier (s : State) (f k step : Nat) : State :=
  let s1 := if (s.field f).seq.state = .committing then s.seqWait f else s
  let s2 := (s1.modArray f ArrayS.clear).moverSeqEvent f 0 0
  let p := s2.span k
  if p.step = some .opened ∧ p.committed = step ∧ p.attempt = 0 ∧ (s2.field f).seq.state = .waiting then
    (s2.attemptStart f (step + 1) (s2.inForce k regStepVariant)).moverSeqEvent f 1 0
  else s2

/-- The variant that drafts a depth, if DRAFT_DEPTHS holds one (R222). -/
def State.draftVariant (s : State) (d depth : Nat) : Option Nat :=
  (List.range 8).find? fun v => depth != 0 && leAt (leBytes 8 (s.reg regDraftDepths d)) v 1 == depth

/-- The supervisor's write for the draft of a target (R222): the variant of the depth in the accept entries; the draft step then opens. -/
def State.draftWrite (s : State) (k : Nat) : State :=
  match s.pairIn k with
  | some (1, d) =>
    let s1 := match s.draftVariant d (s.span k).shape.1 with
      | some v => s.setReg regStepVariant d v
      | none => s
    (s1.modSpan d fun q => { q with variantFor := (s.span k).committed }).tryOpen d
  | _ => s

/-- The keystone advance reaches the supervisor (R22, R222): the dictionary's view, and the draft's variant for the next depth.  Without a
supervisor both wait for the takeover (R351). -/
def State.advanceSupervisor (s : State) (k : Nat) : State := if s.supervised then (s.showCommitted k).draftWrite k else s

/-- The window start that an OPEN or ADVANCE carries (R312). -/
def State.windowAt (s : State) (k w : Nat) : State :=
  if w ≠ 0 ∧ (s.span k).timetable.loaded then s.modSpan k fun q => { q with timetable := { q.timetable with window := some w } } else s

/-- The first advance from an anchor on another device (R360): the marks move here, and the span goes on as R54 says. -/
def State.advanceAway (s : State) (k step : Nat) : State :=
  if s.anchorAway k ∧ (s.span k).step.isSome ∧ (s.span k).committed + 1 = step then (s.closeStep k).afterKeystone k else s

/-- ADVANCE (R36): it reaches a pier, the data-port engine of the output queue (R545), or the supervisor. -/
def execAdvance (p : Pkt) (dest : AdvanceDest) (windowStart : Word64) (s : State) : Host.Outcome State Fault Refusal :=
  let k := p.span.toNat
  let n := p.step.toNat
  .next (s.carried tyAdvance 1 p fun t =>
    let t0 := t.advanceAway k n
    if t.stale p then t.dropStale p
    else if (t0.span k).committed ≠ n then (if (t.span k).state = .running then t else t.ignored k 6)
    else if (t.span k).state = .unused then t
    else match dest with
      | .pier f => if (t0.span k).here.contains f then ((t0.windowAt k windowStart.toNat).advancePier f k n).settle else t0.settle
      | .engine => (t0.engineAdvance k).settle
      | .supervisor => (t0.advanceSupervisor k).settle)

/-! ### Timeouts -/

/-- The anchor's commit timeout (R32, R38, R56). -/
def execCommitTimeout (k : SpanId) (s : State) : Host.Outcome State Fault Refusal :=
  .next (if (s.span k).step = some .closing then s.abortSpan k 0x80 else s)

/-- A pier that sent its ready report hears nothing (R39, R406): the span pauses, R30 decides the step, and the anchor counts as lost; a
supervisor probes it on the device where it stands. -/
def execPierCommitTimeout (f : FieldId) (s : State) : Host.Outcome State Fault Refusal :=
  let q := (s.field f).seq
  .next (match s.memberOf f with
    | some k =>
      if q.state = .committing ∧ q.reported then
        let a := (s.span k).anchor
        ((if s.anchorAway k then s else s.probe a).loseMember k (s.anchorDevice k) a).settle
      else s
    | none => s)

/-! ### Aborts and openings -/

/-- ABORT reaches a pier (R34, R40, R197). -/
def execAbort (p : Pkt) (f : FieldId) (s : State) : Host.Outcome State Fault Refusal :=
  let k := p.span.toNat
  .next (s.carried tyAbort 1 p fun t =>
    if t.stale p then t.dropStale p
    else if (t.span k).state ≠ .running then t.ignored k 7
    else if (t.span k).here.contains f ∧ (t.span k).committed + 1 = p.step.toNat then (t.abortAway k).pierAbort f k
    else t)

/-- A prologue that failed starts again once the cause is cleared (R198; notes/assumptions/68). -/
def State.prologueAgain (s : State) (f : Nat) : State :=
  let q := (s.field f).seq
  match s.spanOf f with
  | some k =>
    if q.state = .aborting ∧ q.prologueFailed ∧ !q.abortDue ∧ s.abortClear f k then s.prologueStart f (s.span k).committed else s
  | none => s

/-- A pier that got ABORT and whose writes have all completed sets the marks back and sends abort-done (R40), unless something keeps it
(R150, R168, R264, R343, R385).  A failed prologue has no attempt to report (R198). -/
def execAbortDone (f : FieldId) (s : State) : Host.Outcome State Fault Refusal :=
  let s1 := match s.openStep f with
    | some (k, n, a) =>
      if (s.span k).step = some StepState.aborting ∧ (s.field f).seq.abortDue ∧ s.abortClear f k then
        ((s.modSpan k Span.unmarked).modSeq f fun q => { q with abortDue := false, window := 0, failedBits := 0, reported := false }).send
          (pierMaster f) tyReport k n a (s.anchorDst k) 0 [2, 1, 0]
      else s
    | none => s
  .next (s1.prologueAgain f)

/-- OPEN reaches a pier after abort-done (R40, R198, R312): the attempt starts at the variant of the aborted one (R191). -/
def execOpenMsg (p : Pkt) (f : FieldId) (windowStart : Word64) (s : State) : Host.Outcome State Fault Refusal :=
  let k := p.span.toNat
  let w := windowStart.toNat
  .next (s.carried tyOpen 1 p fun t =>
    let t0 := t.openAway k p.attempt.toNat
    if t.stale p then t.dropStale p
    else if (t.span k).here.contains f ∧ (t0.span k).step = some .opened ∧ (t0.span k).isOpen p.step.toNat p.attempt.toNat then
      let t1 := t0.windowAt k w
      ((t1.dropSegment f).attemptStart f p.step.toNat (t1.inForce k regStepVariant)).moverSeqEvent f 1 0
    else t)

/-! ### Epochs and loading -/

/-- The 60 µs wait of R52 is over: the new epoch is installed, and both spans of a pair send their notices again (R221). -/
def execEpochWaitEnd (k : SpanId) (s : State) : Host.Outcome State Fault Refusal :=
  let p := s.span k
  .next (if p.state = .paused ∧ p.epochDue ≠ 0 ∧ p.recovery.isEmpty then
      (s.newEpoch k 0).settle
    else s)

/-- May a loaded span leave LOADING (R261, R273, R360, R485): its sets are tested, its peers are loaded, and the bring-up mode lets
it. -/
def State.mayServe (s : State) (k : Nat) : Bool :=
  let p := s.span k
  ((bitList 16 (namedSets (s.placement k))).all fun j => (s.set j).state != .untested) &&
  p.devices ≤ p.peersLoaded + 1 && (s.boot.fast || s.boot.full)

/-- A loaded span that may serve becomes READY (R54, R198): event 0x0A01, and its sequencers start their prologues. -/
def State.tryReady (s : State) (k : Nat) : State :=
  let p := s.span k
  if p.state = .loading ∧ p.weightsLoaded ∧ s.mayServe k then
    let s1 := (s.supEvent 0x0A01 []).setSpanState k .ready
    let s2 := p.piers.foldl (fun t f => if (t.field f).seq.state = .loaded then t.prologueStart f p.committed else t) s1
    if s.faults.pausedOn.any fun u => (s.unitSpans u).contains k then (s2.pauseFor k .retire).settle
    else if p.epochDue = 0 then s2.tryOpen k else s2.pauseFor k .epoch
  else s

/-- A device of a bridged span that is not the anchor's tells the anchor's supervisor that it is loaded (R360). -/
def State.sendLoaded (s : State) (k : Nat) : State :=
  let a := leAt (s.placement k) 34 1
  if 1 < (s.span k).devices ∧ a ≠ (s.span k).device then s.send s.supervisor tyControl k 0 0 (.device a) 0 [k, 0] else s

/-- The digest pass at the end of loading (R54, R383): a match gives the landing digests and lets the span become READY; a mismatch fails
the load. -/
def execWeightLoadDone (k : SpanId) (result : ReloadResult) (s : State) : Host.Outcome State Fault Refusal :=
  .next (if (s.span k).state ≠ .loading then s.ignored k (match result with | .matches => 2 | .mismatch => 3)
    else match result with
      | .matches =>
        let s1 := (s.span k).here.foldl State.landDigests s
        ((s1.modSpan k fun p => { p with weightsLoaded := true }).sendLoaded k).tryReady k
      | .mismatch => s.loadFailed k)

/-- The speculation counters of a span are cleared (R242). -/
def State.specClear (s : State) (k : Nat) : State :=
  let zero := [regTreesVerified, regTokensEmitted, regAltAccepts, regHoleSlots, regProposalsReplaced, regPredObservations]
  (zero.foldl (fun t o => t.setReg o k 0) s).setReg regPredShape k 0x0402

/-- Everything a span has computed is discarded (R54, R239, R242): step 0, marks 0, no sequence, a fresh predictor and counters. -/
def State.discardSpan (s : State) (k : Nat) : State :=
  let s1 := s.modSpan k fun p =>
    { p with committed := 0, step := none, attempt := 0, outTail := 0, reqHead := 0, select := false, keyTime := 0, writeTime := 0, provOutTail := 0
             provReqHead := 0, arrival := 0, arrivalAtOpen := 0, headTaken := none, unarrived := [], sent := 0, seqs := [], working := [], trees := []
             pred := .reset, predWork := .reset, shape := (4, 2), shapeWork := (4, 2), verified := [], shapeSeen := false
             moreChunks := false, noticeStep := 0, draftActed := 0, noticeOpen := 0, verifyAt := 0, variantFor := 0, proposalLate := false, lateSeen := false, draftGone := false
             failPauses := 0, charged := [], barriers := [], mcasts := [], weightsLoaded := false, recovery := [], pauses := [], suspects := [], testing := [], testHit := false, kvLost := []
             timetable := { p.timetable with window := none } }
  let s2 := match s.pairOf k with
    | some (_, d) => s1.modSpan d fun p => { p with noticeStep := 0, draftActed := 0, noticeOpen := 0, variantFor := 0 }
    | none => s1
  s2.specClear k

/-- All piers of a RESETTING span have drained (R54): a new epoch, step 0, both copies rewritten, LOADING. -/
def execSpanDrained (k : SpanId) (s : State) : Host.Outcome State Fault Refusal :=
  let p := s.span k
  .next (if p.state = .resetting then
      let s1 := (((s.discardSpan k).poke p.reqQueue (zeros 4)).poke p.outQueue (zeros 4)).newEpoch k 1
      ((s1.writeKeystone k (s1.span k).record).showCommitted k).setSpanState k .loading
    else s.ignored k 13)

/-- The engine raises ARRIVAL past the oldest request whose entries have completed (R48, R54, R544): a READY span opens a step, a request of a
RUNNING one waits for the next step, and a state of R54 that lists no request records it. -/
def execRequestArrival (k : SpanId) (s : State) : Host.Outcome State Fault Refusal :=
  let p := s.span k
  .next (match p.unarrived with
    | [] => s
    | n :: rest =>
      let s1 := s.modSpan k fun q => { q with unarrived := rest, arrival := (q.arrival + n) % 2 ^ 32 }
      let s2 := s1.poke p.reqQueue (leBytes 4 ((p.arrival + n) % 2 ^ 32))
      if p.state = .ready ∨ p.state = .running then s2.tryOpen k else s2.ignored k 4)

/-! ### Paired spans -/

/-- A pairing notice reaches the other span's anchor (R220, R221, R238): one whose step has been acted on is ignored; the return of a draft
that was gone is recorded, and the sequences that started before it stay root-only. -/
def execPairingNotice (dst : SpanId) (src : SpanId) (step : Word64) (s : State) : Host.Outcome State Fault Refusal :=
  let p := s.span dst
  let n := step.toNat
  .next (if (s.pairOf dst).map (·.2) = some src.val ∧ p.draftActed < n ∧ p.noticeStep ≤ n then
      let s1 := s.modSpan dst fun q =>
        { q with noticeStep := n, proposalLate := false, lateSeen := false, draftGone := false
                 seqs := if q.draftGone then q.seqs.map SeqEntry.disabled else q.seqs }
      (if p.draftGone then s1.event (pierMaster p.anchor) 0x0A0E [] else s1).tryOpen dst
    else s)

/-- Is a TARGET's draft away: none paired, or not READY or RUNNING (R238)? -/
def State.draftAway (s : State) (k : Nat) : Bool :=
  match s.pairOf k with
  | some (_, d) => (s.span d).state != .ready && (s.span d).state != .running
  | none => true

/-- No proposal has come within the timeout (R220, R238): the verify step opens with root-only trees; while the draft is gone, the
sequences that live now stay root-only. -/
def execProposalTimeout (k : SpanId) (s : State) : Host.Outcome State Fault Refusal :=
  let p := s.span k
  .next (if s.verifyNext k ∧ !s.turn k ∧ p.step.isNone then
      let gone := s.draftAway k
      let s1 := if p.lateSeen then s else s.event (pierMaster p.anchor) 0x0A0D []
      let s2 := s1.modSpan k fun q =>
        { q with proposalLate := true, lateSeen := true, draftGone := q.draftGone || gone
                 seqs := if gone then q.seqs.map SeqEntry.disabled else q.seqs }
      s2.tryOpen k
    else s)

end Sys2Proof.Machine
end

