-- ==== Sys2Proof/Machine/Clock.lean ====
section
/-! DEFINITION. References, drawbridges, adaptive stretch, the fields' timebases and PTP (R433 to R456). -/

namespace Sys2Proof.Machine

/-! ### References (R434 to R436, R440) -/

/-- The place of a reference copy in REF_STATUS (R457). -/
def copyPlace (c : RefCopy) : Nat := boolNat c.b + 2 * boolNat c.backup

/-- Is a reference good: has it a good copy (R435)? -/
def Clocks.refGood (c : Clocks) (b : Bool) : Bool := c.good.getD (boolNat b) false || c.good.getD (boolNat b + 2) false

/-- Does the selector take the copy of a reference at field 29? -/
def Clocks.strip (c : Clocks) (b : Bool) : Bool := if b then c.strips.2 else c.strips.1
/-- The selector takes the copy of a reference at field 0 or field 29. -/
def Clocks.setStrip (c : Clocks) (b v : Bool) : Clocks := { c with strips := if b then (c.strips.1, v) else (v, c.strips.2) }

/-- The field PLLs lock to a reference: event 0x0202, one switch more (R435). -/
def State.switchRef (s : State) (b : Bool) : State :=
  ((s.modClocks fun c => { c with refState := .locked b }).supEvent 0x0202 []).bump regRefSwitches 0 1

/-- A PLL that is relocking restores its previous setting as both references are lost (R443, R456). -/
def State.relocksLost (s : State) : State :=
  (List.range 30).foldl (fun t f => if (t.field f).clock.relocking then t.modClock f fun c => { c with toPoint := none, relocking := false } else t) s

/-- The selection after a copy has gone bad (R436). -/
def State.reselect (s : State) : State :=
  match s.clocks.refState with
  | .holdover => s
  | .locked b =>
    if s.clocks.refGood b then s
    else if s.clocks.refGood (!b) then s.switchRef (!b)
    else ((s.modClocks fun c => { c with refState := .holdover, timetableNoted := false }).relocksLost).supEvent 0x0203 []

/-- REF_COPY_BAD (R434): the selector takes the other copy if that is good, and selection follows. -/
def execRefCopyBad (c : RefCopy) (s : State) : Host.Outcome State Fault Refusal :=
  let i := copyPlace c
  .next (if !s.clocks.good.getD i false then s
    else
      let s1 := s.modClocks fun x => { x with good := x.good.set i false }
      let other := s1.clocks.good.getD (copyPlace ⟨c.b, !c.backup⟩) false
      let s2 :=
        if s1.clocks.strip c.b = c.backup ∧ other = true then
          let t := s1.modClocks fun x => x.setStrip c.b (!c.backup)
          if c.backup then t else t.supEvent 0x0201 (leBytes 1 (boolNat c.b) ++ leBytes 1 1)
        else s1
      s2.reselect)

/-- REF_COPY_GOOD (R434, R436): the copy is good again; holdover ends, on the preferred reference if both are good. -/
def execRefCopyGood (c : RefCopy) (s : State) : Host.Outcome State Fault Refusal :=
  let s1 := s.modClocks fun x => { x with good := x.good.set (copyPlace c) true }
  let s2 := if s1.clocks.good.getD (copyPlace ⟨c.b, !c.backup⟩) false then s1 else s1.modClocks fun x => x.setStrip c.b c.backup
  let pref := s.reg regRefPreferred 0 == 1
  .next (if s.clocks.refState = .holdover then
      let b := if s2.clocks.refGood pref then pref else !pref
      (s2.modClocks fun x => { x with refState := .locked b }).supEvent 0x0204 []
    else s2)

/-- REF_REVERT (R435). -/
def execRefRevert (s : State) : Host.Outcome State Fault Refusal :=
  let pref := s.reg regRefPreferred 0 == 1
  .next (if s.reg regRefRevert 0 = 1 ∧ s.clocks.refState = .locked (!pref) ∧ s.clocks.refGood pref = true then s.switchRef pref else s)

/-! ### Drawbridges (R441 to R444, R473, R586) -/

/-- Do two fields share a seam? -/
def seam (f g : Nat) : Bool := (f / 6 == g / 6 && (f == g + 1 || g == f + 1)) || f == g + 6 || g == f + 6

/-- Is the drawbridge that a field owes the one forced by ALERT (R444, R473)? -/
def State.drawForced (s : State) (f : Nat) : Bool := (s.supply.alert || s.supply.undervolt) && (s.field f).clock.da != 12

/-- The conditions of R444 on a change of a field to point `p`, but for the state of the field. -/
def State.drawAllowed (s : State) (f p : Nat) : Bool :=
  let c := (s.field f).clock
  let mhz := s.pointMhz f p
  let others := (List.range 30).filter fun g => (s.field g).state == .drawbridge
  !others.any (seam f) && others.length < 5 &&
  (match c.lastEnd with
    | none => true
    | some t => t + 100000 ≤ s.now) &&
  (match s.spanOf f with
    | none => true
    | some k => !(s.span k).timetable.opened) &&
  (s.clocks.refState != .holdover || daOf mhz * mhz * 1000 == c.vco)

/-- DRAWBRIDGE_START (R441): a READY or SERVING field whose pier waits for a change of frequency, or which ALERT forces, stops; its spin
passes stop with its clocks. -/
def execDrawbridgeStart (f : FieldId) (s : State) : Host.Outcome State Fault Refusal :=
  let x := s.field f
  let begin_ (forced : Bool) (p : Option Nat) (moves : Bool) : State :=
    let s1 := (s.modField f fun y => { y with saved := y.state }).modClock f fun c =>
      { c with forced := forced, toPoint := p, relocking := moves }
    (s1.spinTo f .rest).setFieldState f .drawbridge
  .next (if x.state ≠ .ready ∧ x.state ≠ .serving then s
    else if s.drawForced f then begin_ true none false
    else match x.power.drawTo with
      | none => s
      | some p =>
        let mhz := s.pointMhz f p
        if s.drawAllowed f p then begin_ false (some p) (daOf mhz * mhz * 1000 != x.clock.vco) else s)

/-- ALERT's drawbridge has set DA to 12 (R473): the pier is at OP0, or at OP1's set-point until a second drawbridge moves the VCO. -/
def State.forcedDone (s : State) (f : Nat) : State :=
  let s1 := s.modClock f fun c => { c with da := 12 }
  if (s.field f).power.state ≠ .on then s1
  else if (s1.field f).clock.aclk ≤ 400000 then s1.pointReached f 0
  else
    let mv := s1.pointMv f 1
    s1.modPower f fun x => { x with point := 1, drawTo := some 0, slewTo := if mv < x.millivolts then some mv else none }

/-- A drawbridge has moved the PLL to the frequency of point `p` (R467, R586). -/
def State.drawDone (s : State) (f p : Nat) : State :=
  let s1 := s.setAclk f (s.pointMhz f p)
  match (s.field f).power.state with
  | .on => s1.pointReached f p
  | _ => s1.modPower f fun x => { x with drawTo := none }

/-- DRAWBRIDGE_END: the field returns to the state it left; what waited for the end is done (R417, R441, R480). -/
def execDrawbridgeEnd (f : FieldId) (ns : BitVec 16) (s : State) : Host.Outcome State Fault Refusal :=
  let x := s.field f
  .next (if x.state ≠ .drawbridge then s
    else
      let s1 := if x.clock.forced then s.forcedDone f else match x.clock.toPoint with
        | some p => s.drawDone f p
        | none => s
      let s2 := s1.modClock f fun c => { c with forced := false, toPoint := none, relocking := false, lastEnd := some s.now }
      let s3 := ((s2.setFieldState f x.saved).bump regDrawbridges f 1).setReg regDrawbridgeMax f (max (s.reg regDrawbridgeMax f) ns.toNat)
      ((s3.arrayResumes f).powerUpdate f).settle)

/-- PLL_LOCK_TIMEOUT (R443): the previous VCO setting is restored; one occurrence of the FIELD. -/
def execPllLockTimeout (f : FieldId) (s : State) : Host.Outcome State Fault Refusal :=
  let x := s.field f
  .next (if x.state = .drawbridge ∧ x.clock.relocking then
      ((((s.modClock f fun c => { c with toPoint := none, relocking := false }).event (pierMaster f) 0x0205 []).charge (fieldUnit f)
        0x0205)).settle
    else s)

/-! ### Adaptive stretch (R445, R446) -/

/-- DROOP_DETECT. -/
def execDroopDetect (f : FieldId) (s : State) : Host.Outcome State Fault Refusal :=
  .next (if (s.field f).power.state = .on then s.modClock f fun c => { c with stretching := true } else s)

/-- STRETCH_END: the periods stretched, and whether more than 25 % of any 10 µs were. -/
def execStretchEnd (f : FieldId) (periods : Word32) (overQuarter : Bool) (s : State) : Host.Outcome State Fault Refusal :=
  .next (if (s.field f).clock.stretching then
      let s1 := (s.modClock f fun c => { c with stretching := false }).bump regStretchedPeriods f periods.toNat
      if overQuarter then s1.event (pierMaster f) 0x0207 [] else s1
    else s)

/-! ### The fields' timebases (R447 to R451) -/

/-- The TIMER channels of a field whose compare time has come start (R333, R450). -/
def State.timersTry (s : State) (f : Nat) : State := (List.range 16).foldl (fun t c =>
  if ((t.field f).mover c).active.trigger = 1 then t.moverTry f c else t) s

/-- A clock after a beacon with an error in ns (R449, R450): the first sets the offset; small errors are slewed by 1 ns in the 1 µs between
beacons; a clock behind is set forward; one ahead holds.  From the sixteenth on, the rate correction follows the mean error, by an amount
that the spec leaves open. -/
def FieldClock.beacon (c : FieldClock) (now : Nat) (e : Int) : FieldClock :=
  let l := (e :: c.errors).take 16
  let d := { c with errors := l, rate := if l.length < 16 then c.rate else Config.rateCorrection c.rate (l.foldl (· + ·) 0) }
  if c.errors = [] ∨ e ≤ -100 then { d with offset := 0 }
  else if 100 ≤ e then { d with offset := 0, heldAt := max c.heldAt ((now : Int) + e).toNat }
  else { d with offset := e - max (-1) (min 1 e) }

/-- Hops from the master's router to the nearest of a field. -/
def State.masterHops (s : State) (f : Nat) : Nat :=
  match nearest s.hops (s.attached s.supervisor).2 (fieldRouters f) with
  | some x => s.hops x.1 x.2
  | none => 0

/-- The error that a field corrects at a beacon: in holdover, that of the beacon with the smallest apparent delay among the last 16, less
2.5 ns for each hop (R451). -/
def State.beaconError (s : State) (f : Nat) (e : Int) : Int :=
  if s.clocks.refState = .holdover then
    ((s.field f).clock.delays.take 15).foldl (fun (m x : Int) => min m x) e - ((5 * s.masterHops f / 2 : Nat) : Int)
  else e

/-- BEACON: `error` is the field's time less the beacon's, in ns; in holdover, less the time at which the beacon was sent (R451). -/
def execBeacon (f : FieldId) (error : BitVec 64) (s : State) : Host.Outcome State Fault Refusal :=
  let c := (s.field f).clock
  let e := s.beaconError f error.toInt
  .next (if !s.clocks.running ∨ !s.reachable f then s
    else
      let s1 := s.modClock f fun x =>
        { x.beacon s.now e with delays := if s.clocks.refState = .holdover then (error.toInt :: c.delays).take 16 else [] }
      let s2 := if c.errors ≠ [] ∧ (e ≤ -100 ∨ 100 ≤ e) then s1.event (pierMaster f) 0x0208 [] else s1
      if c.errors = [] ∨ e ≤ -100 then s2.timersTry f else s2)

/-- BEACON_NOTICE (R448): the field learns the number of a beacon. -/
def execBeaconNotice (f : FieldId) (value : Word64) (s : State) : Host.Outcome State Fault Refusal :=
  .next (if s.clocks.running && s.reachable f then s.modClock f fun c => { c with beaconAt := value.toNat } else s)

/-! ### PTP (R453 to R455) -/

/-- Is device time disciplined to PTP? -/
def State.ptpOn (s : State) : Bool := s.reg regPtpEnable 0 == 1 && s.clocks.running

/-- Device time is stepped by `d` ns (R454): event 0x020A; TIMER triggers that it passes start. -/
def State.ptpStep (s : State) (d : Int) : State :=
  let s1 := s.modClocks fun c => { c with time := ((c.time : Int) + d).toNat, frac := 0, slew := 0, ptpOnce := true }
  (List.range 30).foldl State.timersTry (s1.supEvent 0x020A (leBytes 8 (toTwos 64 d)))

/-- PTP_SYNC: `offset` is device time less PTP time, in ns.  The first measurement after bring-up steps device time either way; later a clock
behind by more than PTP_STEP_LIMIT is stepped, any other offset slewed; 16 intervals below 100 ns lock the servo (R454;
notes/assumptions/23). -/
def execPtpSync (offset : BitVec 64) (s : State) : Host.Outcome State Fault Refusal :=
  let o := offset.toInt
  .next (if !s.ptpOn || s.clocks.ptpLost then s
    else
      let s1 := s.setReg regPtpOffset 0 (toTwos 32 (satInt 32 o))
      let s2 :=
        if !s.clocks.ptpOnce then s1.ptpStep (-o)
        else if o < -(1000 * s.reg regPtpStepLimit 0 : Nat) then s1.ptpStep (-o)
        else s1.modClocks fun c => { c with slew := -1000 * o }
      let n := if -100 < o ∧ o < 100 then s.clocks.ptpGood + 1 else 0
      let s3 := s2.modClocks fun c => { c with ptpGood := min n 16, ptpLocked := 16 ≤ n }
      if 16 ≤ n ∧ !s.clocks.ptpLocked then s3.supEvent 0x0209 [] else s3)

/-- PTP_DELAY_RESPONSE (R453): the path delay in ns. -/
def execPtpDelayResponse (delay : Word32) (s : State) : Host.Outcome State Fault Refusal :=
  .next (if s.ptpOn then s.modClocks fun c => { c with ptpDelay := delay.toNat } else s)

/-- PTP_ANNOUNCE (R455). -/
def execPtpAnnounce (identity : Word64) (s : State) : Host.Outcome State Fault Refusal :=
  .next (if s.ptpOn then (s.setReg regPtpTransmitter 0 identity.toNat).modClocks fun c => { c with ptpLost := false } else s)

/-- PTP_ANNOUNCE_TIMEOUT (R455): device time runs on. -/
def execPtpAnnounceTimeout (s : State) : Host.Outcome State Fault Refusal :=
  .next (if s.ptpOn && !s.clocks.ptpLost then
      (s.modClocks fun c => { c with ptpLost := true, ptpLocked := false, ptpGood := 0, slew := 0 }).supEvent 0x020B []
    else s)

end Sys2Proof.Machine
end

