-- ==== Sys2Proof/Machine/Recorder.lean ====
section
/-! DEFINITION. The event recorder: numbering, acceptance, the two rings and what a window read returns (R419 to R431). -/

namespace Sys2Proof.Machine

/-- The 32 bytes of a record (R419). -/
def EventRec.bytes (e : EventRec) : List Byte :=
  withCrc (leBytes 8 e.seq ++ leBytes 4 e.opTime ++ leBytes 4 e.cycles ++ leBytes 2 e.source ++ leBytes 2 e.code ++ padTo 8 e.data)

/-- The reservation ceiling is raised before a SEQ reaches it (R423). -/
def Recorder.reserve (r : Recorder) : Recorder :=
  match r.ceiling with
  | some c => if c ≤ r.nextSeq then { r with ceiling := some (c + 65536) } else r
  | none => r

/-- A record enters the on-die ring of 4,096 (R425); one that no page holds yet and is overwritten is lost to flash (R426). -/
def Recorder.push (r : Recorder) (e : EventRec) : Recorder :=
  let full := r.die.length == 4096
  let lost := full && r.pendingN == 4096
  ({ r with die := (if full then r.die.drop 1 else r.die) ++ [e], nextSeq := r.nextSeq + 1
            pendingN := if lost then r.pendingN else r.pendingN + 1, lostSince := r.lostSince + boolNat lost }).reserve

/-- The supervisor accepts an event (R422, R423): it takes the next SEQ; its class may raise vector 2 (R429).  No SEQ is given before the
recorder has its first ceiling. -/
def State.record (s : State) (source code : Nat) (data : List Byte) : State :=
  if s.recorder.ceiling.isNone then s else
  let lost := s.recorder.die.length == 4096 && s.recorder.pendingN == 4096
  let s1 := s.modRec fun r =>
    r.push { seq := r.nextSeq, opTime := s.opSeconds, cycles := s.reg regPowerCycles 0, source := source, code := code, data := padTo 8 data }
  let s2 := if lost then s1.bump regLostRecords 0 1 else s1
  if (s.reg regIrqClasses 0).testBit (code / 256) then s2.vector 2 else s2

/-- A unit with room again reports the notices that it could not hold (R424). -/
def State.unitReports (s : State) (unit : Nat) : State :=
  match s.recorder.unitLost.lookup unit with
  | none => s
  | some n =>
    let source := if unit < 0x1000 then unit else s.supervisor
    s.modRec fun r => { r with notices := r.notices ++ [⟨unit, source, 0x0B05, padTo 8 (leBytes 4 (n % 2 ^ 31))⟩]
                               unitLost := r.unitLost.filter (·.1 != unit) }

/-- The oldest notice of a source is accepted and acknowledged (R422, R424); a count of notices lost at a unit enters LOST_RECORDS.  Notices
wait until the recorder has started, so that 0x0B01 is the first record of the period (R431), and while no active supervisor runs (R416). -/
def State.acceptNotice (s : State) (source : Nat) : State :=
  if s.boot.step < 2 ∨ [FieldState.dark, .retired].contains (s.field s.supervisorField).state then s else
  match s.recorder.notices.find? (·.source == source) with
  | none => s
  | some n =>
    let s1 := (s.modRec fun r => { r with notices := r.notices.erase n }).record n.source n.code n.data
    let s2 := if n.code = 0x0B05 then s1.bump regLostRecords 0 (leAt n.data 0 4) else s1
    s2.unitReports n.unit

/-- EVENT_NOTICE (R422): the active supervisor accepts a notice of a unit. -/
def execEventNotice (src : BitVec 12) (s : State) : Host.Outcome State Fault Refusal := .next (s.acceptNotice src.toNat)

/-- FLASH_PAGE_WRITE (R426): up to 128 pending records, oldest first, become a page if the bucket allows; the 128 newest pages stay; losses
since the last report are reported. -/
def execFlashPageWrite (s : State) : Host.Outcome State Fault Refusal :=
  let r := s.recorder
  .next (if r.pendingN = 0 ∨ r.bucket = 0 ∨ !s.boot.powered then s
    else
      let page := (r.die.drop (r.die.length - r.pendingN)).take 128
      let s1 := s.modRec fun x =>
        { x with flash := (x.flash ++ [page]).drop (x.flash.length + 1 - 128), pendingN := x.pendingN - page.length, bucket := x.bucket - 1
                 lostSince := 0 }
      if r.lostSince = 0 then s1 else s1.record s.supervisor 0x0B05 (leBytes 4 (2 ^ 31 + r.lostSince % 2 ^ 31)))

/-- PAGE_BUCKET_REFILL (R426). -/
def execPageBucketRefill (s : State) : Host.Outcome State Fault Refusal :=
  .next (if s.boot.powered then s.modRec fun r => { r with bucket := min 32 (r.bucket + 1) } else s)

/-! ### Reading (R427, R432) -/

/-- Every record held, in SEQ order: those of flash older than the on-die ring, then the ring. -/
def Recorder.held (r : Recorder) : List EventRec :=
  match r.die with
  | [] => r.flash.flatten
  | e :: _ => r.flash.flatten.filter (·.seq < e.seq) ++ r.die

/-- LAST_SEQ. -/
def Recorder.lastSeq (r : Recorder) : Nat := r.nextSeq - 1
/-- FIRST_SEQ: LAST_SEQ + 1 when no record is held. -/
def Recorder.firstSeq (r : Recorder) : Nat := ((r.held.head?).map (·.seq)).getD r.nextSeq
/-- DIE_FIRST_SEQ. -/
def Recorder.dieFirstSeq (r : Recorder) : Nat := ((r.die.head?).map (·.seq)).getD r.nextSeq
/-- The records that a window read at a cursor returns. -/
def Recorder.window (r : Recorder) (cursor : Nat) : List EventRec := (r.held.filter fun e => cursor ≤ e.seq && e.seq ≤ r.lastSeq).take 32

/-! ### Clearing and start-up (R430, R431) -/

/-- Both rings are emptied; 0x0B04 begins the new history. -/
def State.clearHistory (s : State) : State :=
  let top := s.recorder.lastSeq
  (s.modRec fun r => { r with die := [], flash := [], pendingN := 0, lostSince := 0 }).record s.supervisor 0x0B04 (leBytes 8 top)

/-- The records of the flash ring at the places given, and the ring without them. -/
def Recorder.badRecords (r : Recorder) (bad : List (Nat × Nat)) : List EventRec :=
  (r.flash.mapIdx fun i page => (page.zipIdx.filter fun e => bad.contains (i, e.2)).map (·.1)).flatten

/-- The flash ring without the records at the places given. -/
def Recorder.soundFlash (r : Recorder) (bad : List (Nat × Nat)) : List (List EventRec) :=
  r.flash.mapIdx fun i page => (page.zipIdx.filter fun e => !bad.contains (i, e.2)).map (·.1)

/-- The recorder starts at bring-up (R423, R431).  A blank event area is formatted and SEQ starts at 1; otherwise the old ceiling is the
first SEQ.  Under a damaged ring header the ring is formatted and the ceiling comes from its copy; damaged records are discarded.  The highest
SEQ found is that of the sound records (notes/assumptions/78). -/
def State.recorderStarts (s : State) (header : Bool) (bad : List (Nat × Nat)) : State :=
  let r := s.recorder
  let lost := r.badRecords bad
  let sound := r.soundFlash bad
  let top := ((sound.flatten.getLast?).map (·.seq)).getD 0
  match r.ceiling with
  | none =>
    let s1 := s.modRec fun x => { x with nextSeq := 1, ceiling := some 65537, die := [], flash := [], pendingN := 0 }
    (s1.record s.supervisor 0x0B01 (leBytes 8 0)).record s.supervisor 0x0B02 []
  | some c =>
    let s1 := s.modRec fun x =>
      { x with nextSeq := c, ceiling := some (c + 65536), die := [], flash := if header then [] else sound, pendingN := 0 }
    let s2 := s1.record s.supervisor 0x0B01 (leBytes 8 top)
    let s3 := if header then s2.record s.supervisor 0x0B02 [] else s2
    match lost with
    | [] => s3
    | e :: _ => s3.record s.supervisor 0x0B03 (leBytes 4 lost.length ++ leBytes 4 e.seq)

/-- Power is lost: the on-die ring, notices and pending records go (R425, R426). -/
def Recorder.powerLost (r : Recorder) : Recorder := { r with die := [], pendingN := 0, lostSince := 0, notices := [], unitLost := [] }

end Sys2Proof.Machine
end

