-- ==== Sys2Proof/Machine/Speculate.lean ====
section
/-! DEFINITION. The accept handler of a verify step: the walk, the slot tables, the entries of the output queue and the depth predictor
(R230 to R241). -/

namespace Sys2Proof.Machine

/-! ### The walk (R230, R231) -/

/-- The lowest-numbered child of node `j` that carries a token; a pad node never matches (R225). -/
def Tree.childWith (t : Tree) (j token : Nat) : Option Nat :=
  (List.range t.parents.length).find? fun c =>
    c != 0 && t.parents.getD c 255 == j && t.tokens.getD c 0xFFFFFFFF == token && token != 0xFFFFFFFF

/-- The walk from node `j`: the path, and the node whose sample is the bonus. -/
def Tree.walk (t : Tree) (sampled : List Nat) (stopAt : Nat) : Nat → Nat → List Nat × Nat
  | 0, j => ([], j)
  | n + 1, j =>
    let s := sampled.getD j 0xFFFFFFFF
    if s = stopAt then ([], j)
    else match t.childWith j s with
      | none => ([], j)
      | some c => let r := t.walk sampled stopAt n c; (c :: r.1, r.2)

/-- What the handler finds for one tree: path, bonus, and the tree itself. -/
structure Accepted where
  tree  : Tree
  path  : List Nat
  bonus : Nat
  ended : Bool
deriving DecidableEq, Repr

/-- Is the tree a real one (R240)? -/
def Tree.real (t : Tree) : Bool := t.depth != 0
/-- Did the path end in an alternate (R224, R240)? -/
def Accepted.alternate (a : Accepted) : Bool := a.tree.real && a.path.any fun p => a.tree.depth < p
/-- Main-chain nodes accepted (R240). -/
def Accepted.chain (a : Accepted) : Nat := (a.path.filter fun p => p ≤ a.tree.depth).length

/-! ### The predictor (R239 to R241) -/

/-- Add one to the levels from 1 to `m`. -/
def addLevels (l : List Nat) (m : Nat) : List Nat := l.zipIdx.map fun x => if x.2 < m then x.1 + 1 else x.1

/-- The update for one real tree (R240). -/
def Predictor.update (p : Predictor) (a : Accepted) : Predictor :=
  if !a.tree.real then p else
    let m := a.chain
    let d := a.tree.depth
    let n1 := addLevels p.n (min (m + 1) d)
    let a1 := addLevels p.a m
    let full : List Bool := n1.map fun v => decide (65536 ≤ v)
    let halve (l : List Nat) : List Nat := (l.zip full).map fun x => if x.2 then x.1 / 2 else x.1
    let alt := m < d && 1 < a.tree.width
    let na := p.na + boolNat alt
    let aa := p.aa + boolNat (alt && a.alternate)
    { n := halve n1, a := halve a1, na := if 65536 ≤ na then na / 2 else na, aa := if 65536 ≤ na then aa / 2 else aa
      obs := min (p.obs + 1) (2 ^ 32 - 1) }

/-- (1 − β)^(W − 1) in binary64 (R241; notes/assumptions/8). -/
def alternatePower (x : FV) (w : Nat) : FV :=
  if w ≤ 1 then f64.nat 1 else if w = 2 then x else if w = 3 then f64.mul x x
  else f64.value (Config.cube64 (BitVec.ofNat 64 (f64.encode 0 x))).toNat

/-- E of a shape: the expected tokens of a turn (R241). -/
def Predictor.expected (p : Predictor) (d w : Nat) : FV :=
  let one := f64.nat 1
  let ratio (a n : Nat) : FV := f64.div (f64.nat (a + 1)) (f64.nat (n + 2))
  let q := f64.sub one (alternatePower (f64.sub one (ratio p.aa p.na)) w)
  ((List.range d).foldl (fun (s : FV × FV) k =>
    let a := ratio (p.a.getD k 0) (p.n.getD k 0)
    (f64.add s.1 (f64.mul s.2 (f64.add a (f64.mul (f64.sub one a) q))), f64.mul s.2 a)) (one, one)).1

/-- The best shape among the candidates, in evaluation order (R241). -/
def Predictor.best (p : Predictor) (present : List Nat) (c costD0 costDl costV : Nat) : Nat × Nat :=
  let shapes := (present.map fun d => ((List.range 4).map fun w => (d, w + 1))).flatten.filter fun x => 1 + x.1 * x.2 ≤ c
  let value (x : Nat × Nat) : FV := f64.div (p.expected x.1 x.2) (f64.nat (costD0 + x.1 * costDl + costV))
  match shapes with
  | [] => (0, 0)
  | x :: r => (r.foldl (fun (b : (Nat × Nat) × FV) y => if b.2.lt (value y) then (y, value y) else b) (x, value x)).1

/-- The next shape (R241). -/
def State.nextShape (s : State) (k : Nat) (p : Predictor) : Nat × Nat :=
  let v := s.inForce k regStepVariant
  let at' := s.depthsIn k
  if p.obs < 64 then startShape at'.1 at'.2
  else p.best at'.1 at'.2 (s.inForce k regCostD0) (s.inForce k regCostDl) (leAt (leBytes 32 (s.inForce k regCostV)) (4 * v) 4)

/-! ### What the handler writes (R232 to R236, R546) -/

/-- A length-table entry after its tree (R233). -/
def SeqEntry.after (e : SeqEntry) (a : Accepted) : SeqEntry :=
  let n := e.length.toNat
  let f := e.frontier.toNat
  { e with
    slots := e.slots ++ (n + 1, f + 1) :: (a.path.zipIdx.map fun x => (n + 2 + x.2, f + 1 + x.1))
    length := BitVec.ofNat 32 (n + a.path.length + 1)
    frontier := BitVec.ofNat 32 (f + 1 + a.path.getLastD 0)
    flags := if a.ended then e.flags ||| 2 else e.flags
    pendingToken := a.bonus }

/-- Slots of a step that the path does not name (R234). -/
def Accepted.holes (a : Accepted) : Nat := (a.path.getLastD 0) - a.path.length

/-- The accept entry of a sequence (R236). -/
def acceptEntry (step : Nat) (shape : Nat × Nat) (e : SeqEntry) (a : Accepted) : List Byte :=
  withCrc (leBytes 1 2 ++ leBytes 1 a.tree.parents.length ++ leBytes 1 a.path.length ++
    leBytes 1 (boolNat a.alternate + 2 * boolNat a.tree.replaced + 4 * boolNat a.tree.trimmed + 8 * boolNat a.ended) ++
    leBytes 4 e.seq ++ leBytes 8 step ++ leBytes 4 a.bonus ++ leBytes 4 e.length.toNat ++ leBytes 4 e.frontier.toNat ++
    leBytes 1 shape.1 ++ leBytes 1 shape.2 ++ zeros 2 ++
    (a.path.map (BitVec.ofNat 8) ++ List.replicate (16 - a.path.length) 0xFF) ++ zeros 12)

/-- A token entry (R546). -/
def tokenEntry (step flags seq token position tag : Nat) : List Byte :=
  let text := (Config.tokenText token).take 23
  withCrc (leBytes 1 1 ++ leBytes 1 flags ++ zeros 2 ++ leBytes 4 seq ++ leBytes 8 step ++ leBytes 4 token ++ leBytes 4 position ++
    leBytes 8 tag ++ leBytes 1 text.length ++ padTo 23 text ++ zeros 4)

/-- The entries of one sequence: the accept entry, then the d + 1 tokens (R236). -/
def acceptedEntries (step : Nat) (shape : Nat × Nat) (old new : SeqEntry) (a : Accepted) : List (List Byte) :=
  let tokens := a.path.map (fun c => a.tree.tokens.getD c 0) ++ [a.bonus]
  acceptEntry step shape new a :: (tokens.zipIdx.map fun t =>
    tokenEntry step (2 + boolNat (a.ended && t.2 + 1 == tokens.length)) old.seq t.1 (old.length.toNat + 1 + t.2) old.tag)

/-- Write one entry of a span's output queue (R545). -/
def State.putOutput (s : State) (k i : Nat) (l : List Byte) : State := s.poke ((s.span k).outQueue + 512 + 64 * (i % 65536)) l

/-- Write consecutive entries from the provisional tail, which moves past them. -/
def State.appendOutput (s : State) (k : Nat) (l : List (List Byte)) : State :=
  l.foldl (fun t e =>
    (t.putOutput k (t.span k).provOutTail e).modSpan k fun p => { p with provOutTail := (p.provOutTail + 1) % 2 ^ 32 }) s

/-- The accept handler (R230 to R241) on the tokens that the target sampled, sequence by sequence. -/
def State.accept (s : State) (k : Nat) (sampled : List (Nat × List Nat)) : State :=
  let p := s.span k
  if p.latched.verifyNodes k = 0 ∨ p.trees = [] ∨ p.verified ≠ [] ∨ sampled = [] then s else
    let stopAt := s.inForce k regEndToken
    let done := p.trees.map fun t =>
      let xs := (sampled.lookup t.seq).getD []
      let w := t.walk xs stopAt 16 0
      let bonus := xs.getD w.2 0xFFFFFFFF
      (⟨t, w.1, bonus, bonus == stopAt⟩ : Accepted)
    let pred := done.foldl Predictor.update p.predWork
    let shape := s.nextShape k pred
    let s1 := done.foldl (fun t a =>
      match p.seqs.find? fun e => e.seq == a.tree.seq with
      | none => t
      | some e =>
        let e' := e.after a
        (t.modSpan k fun q => { q with working := q.working.map fun x => if x.seq = e.seq then e' else x }).appendOutput k
          (acceptedEntries (p.committed + 1) shape e e' a)) s
    s1.modSpan k fun q =>
      { q with predWork := pred, shapeWork := shape
               verified := [(done.filter fun a => a.tree.real).length, (done.map fun a => a.path.length + 1).sum,
                            (done.filter Accepted.alternate).length, (done.map Accepted.holes).sum] }

end Sys2Proof.Machine
end

