-- ==== Sys2Proof/Machine/Transcend.lean ====
section
/-! DEFINITION. The transcendental functions of the vector unit (R205): exp by its method; 1/√x, σ, tanh, sine and cosine as values that lie
within the error that the rule's table allows them, where it leaves a table or the order of FP32 operations open
(notes/assumptions/7). -/

namespace Sys2Proof.Machine

/-! ### exp -/

/-- −0.0. -/
def negZero : FV := .fin true 0 f32.emin
/-- +0.0. -/
def posZero : FV := .fin false 0 f32.emin

/-- Take bit `i` of the significand of 2^(j/256) if the rounded value reaches it. -/
def expBits (j : Nat) : Nat → Nat → Nat
  | 0, q => q
  | i + 1, q => expBits j i (if (2 * (q + 2 ^ i) - 1) ^ 256 ≤ 2 ^ (j + 24 * 256) then q + 2 ^ i else q)

/-- T[j] = 2^(j/256) rounded to FP32. -/
def expTable (j : Nat) : FV := .fin false (expBits j 23 (2 ^ 23)) (-23)

/-- exp(x) by the method of R205. -/
def expF (x : FV) : FV :=
  match f32.mul x (f32.value 0x3FB8AA3B) with
  | .nan => .nan
  | .inf true => posZero
  | .inf false => .inf false
  | .fin neg m e =>
    let y := FV.fin neg m e
    let n := floorOf neg m (e + 8)
    let r := f32.sub y (f32.round (n < 0) n.natAbs 256 0)
    let p := f32.add (f32.mul (f32.add (f32.mul (f32.value 0x3E75FDF0) r) (f32.value 0x3F317218)) r) (f32.nat 1)
    match f32.mul (expTable (n % 256).toNat) p with
    | .fin qn qm qe => f32.round qn qm 1 (qe + max (-1000) (min 1000 (n / 256)))
    | v => v

/-! ### Values within an error in ulp -/

/-- Does a value lie within `ulps` units in the last place of num/den × 2^e > 0?  The unit is that of the exact value's binade. -/
def withinUlps (ulps num den : Nat) (e : Int) : FV → Bool
  | .fin false m x =>
    let unit := max (floorLog num den + e - f32.mant) f32.emin
    let low := min (min x e) unit
    let v : Int := shl (m * den) (x - low)
    let t : Int := shl num (e - low)
    (v - t).natAbs ≤ ulps * shl den (unit - low)
  | _ => false

/-- The value that `pick` chooses among those within `ulps` of num/den × 2^e > 0. -/
def nearUlps (ulps pick num den : Nat) (e : Int) : FV :=
  let c := f32.code (roundTo f32 num den e)
  let l := ((List.range (2 * ulps + 1)).map fun i => f32.value (c + i - ulps)).filter (withinUlps ulps num den e)
  l.getD (pick % l.length) (f32.round false num den e)

/-- The integer square root below 2^bits. -/
def isqrt (n : Nat) : Nat → Nat → Nat
  | 0, q => q
  | i + 1, q => isqrt n i (if (q + 2 ^ i) ^ 2 ≤ n then q + 2 ^ i else q)

/-- 1/√x within 1 ulp.  What the table and the two Newton steps make of it depends on the significand and the exponent's parity alone. -/
def rsqrtF : FV → FV
  | .nan => .nan
  | .inf neg => if neg then .nan else posZero
  | .fin neg m e =>
    if m = 0 then .inf neg else if neg then .nan else
    let up := (23 - (m.log2 : Int)).toNat
    let s := m * 2 ^ up
    let x := e - up
    let odd := x % 2 = 1
    let s2 := if odd then 2 * s else s
    let x2 := if odd then x - 1 else x
    nearUlps 1 (Config.rsqrtPick (BitVec.ofNat 25 s2)) (2 ^ 128) (isqrt (s2 * 2 ^ 256) 142 0) (-(x2 / 2))

/-! ### σ and tanh -/

/-- The terms of exp from term `k` on at 2^256 fixed point. -/
def expTerms (x : Nat) : Nat → Nat → Nat → Nat
  | 0, _, _ => 0
  | fuel + 1, k, t => t + expTerms x fuel (k + 1) (t * x / 2 ^ 256 / (k + 1))

/-- exp of x/2^256 at 2^256 fixed point, for x below 2^263. -/
def expFix (x : Nat) : Nat := expTerms x 800 0 (2 ^ 256)

/-- A magnitude at 2^256 fixed point, at most 128. -/
def fixed (m : Nat) (e : Int) : Nat := min (shl m (e + 256) / 2 ^ (-(e + 256)).toNat) (2 ^ 263)

/-- The pick of a function's value: by the operand's code. -/
def pickAt (g : BitVec 32 → Nat) (x : FV) : Nat := g (BitVec.ofNat 32 (f32.encode 0 x))

/-- σ(x) within 3 ulp. -/
def sigmoidF (x : FV) : FV :=
  match x with
  | .nan => .nan
  | .inf neg => if neg then posZero else f32.nat 1
  | .fin neg m e =>
    let y := expFix (fixed m e)
    nearUlps 3 (pickAt Config.sigmoidPick x) (if neg then 2 ^ 256 else y) (2 ^ 256 + y) 0

/-- tanh(x) within 3 ulp. -/
def tanhF (x : FV) : FV :=
  match x with
  | .nan => .nan
  | .inf neg => f32.int (if neg then -1 else 1)
  | .fin neg m e =>
    if m = 0 then x else
    let y := expFix (fixed m (e + 1))
    let v := nearUlps 3 (pickAt Config.tanhPick x) (y - 2 ^ 256) (y + 2 ^ 256) 0
    if neg then v.neg else v

/-! ### Sine and cosine of a turn fraction -/

/-- The terms of a sine or cosine from term `k` on at 2^160 fixed point: each is the one before times −a² / ((k+1)(k+2)). -/
def turnTerms (a : Nat) : Nat → Nat → Int → Int
  | 0, _, _ => 0
  | fuel + 1, k, t => t + turnTerms a fuel (k + 2) (-(t * (a : Int) * (a : Int) / (2 ^ 320 : Nat) / ((k + 1) * (k + 2) : Nat)))

/-- The angle of a turn fraction of 32 bits, at 2^160 fixed point. -/
def turnAngle (t : BitVec 32) : Nat := t.toNat * 9182885614096437842769610399486622256908310048836 / 2 ^ 32

/-- The FP32 value that `pick` chooses within 2 × 10⁻⁷ of v/2^160. -/
def nearAbs (pick : BitVec 64) (v : Int) : FV :=
  let room : Int := (2 ^ 161 / 10 ^ 7 : Nat)
  let w := v + (pick.toInt * room) / (2 ^ 63 : Nat)
  let near := f32.round (w < 0) w.natAbs 1 (-160)
  match near with
  | .fin n m e => if (signedAt n m e (-160) - v).natAbs ≤ room.natAbs then near else f32.round (v < 0) v.natAbs 1 (-160)
  | _ => near

/-- Cosine of a turn fraction. -/
def cosTurn (t : BitVec 32) : FV := nearAbs (Config.cosPick t) (turnTerms (turnAngle t) 40 0 (2 ^ 160 : Nat))
/-- Sine of a turn fraction. -/
def sinTurn (t : BitVec 32) : FV := nearAbs (Config.sinPick t) (turnTerms (turnAngle t) 40 1 (turnAngle t))

/-! ### GELU -/

/-- The argument of the tanh in GELU's tanh form, √(2/π) × (x + 0.044715 x³), in one of the orders in which FP32 operations form it
(R203; notes/assumptions/7). -/
def geluArg (x : FV) : FV :=
  let k := f32.value 0x3F4C422A
  let c := f32.value 0x3D372713
  let x2 := f32.mul x x
  match Config.geluOrder % 4 with
  | 0 => f32.mul k (f32.add x (f32.mul c (f32.mul x2 x)))
  | 1 => f32.mul k (f32.add x (f32.mul (f32.mul c x) x2))
  | 2 => f32.mul (f32.mul k x) (f32.add (f32.nat 1) (f32.mul c x2))
  | _ => f32.mul k (f32.mul x (f32.add (f32.nat 1) (f32.mul c x2)))

/-- GELU in its tanh form (R203): x/2 × (1 + tanh(…)). -/
def geluF (x : FV) : FV := f32.mul (f32.mul (f32.value 0x3F000000) x) (f32.add (f32.nat 1) (tanhF (geluArg x)))

end Sys2Proof.Machine
end

