-- ==== Sys2Proof/Machine/VecMath.lean ====
section
/-! DEFINITION. The arithmetic of the vector unit: reading and writing of elements, reductions, and each operation on lists of values
(R202 to R213). -/

namespace Sys2Proof.Machine

/-- A vector descriptor (R202). -/
structure VecDesc where
  ifmt     : Nat
  ofmt     : Nat
  rows     : Nat
  len      : Nat
  inScale  : Nat
  outScale : Nat
  params   : List Byte
deriving DecidableEq, Repr

/-- Read a vector descriptor (R202). -/
def VecDesc.ofBytes (l : List Byte) : VecDesc := ⟨leAt l 0 1, leAt l 1 1, leAt l 2 2, leAt l 4 4, leAt l 8 2, leAt l 10 2, slice 12 20 l⟩

/-- Bytes of an element of a format (R177, R202). -/
def elemBytes (fmt : Nat) : Nat := if fmt = 5 then 2 else if fmt = 6 then 16 else if fmt = 7 then 4 else 1
/-- Rows of one vector of `n` elements (R203). -/
def vecRows (fmt n : Nat) : Nat := (n * elemBytes fmt + 511) / 512

/-! ### Reading (R204) -/

/-- The largest finite value of FP32. -/
def f32Max (neg : Bool) : FV := .fin neg (2 ^ 24 - 1) 104

/-- Element `i` from byte `base` on as an FP32 value, and was its value beyond FP32's range (PARTIAL only)? -/
def VecSource.elem (x : VecSource) (fmt scale base i : Nat) : FV × Bool :=
  let at1 := leAt x.bytes (base + i) 1
  match fmt with
  | 2 => (f32.mul (f32.int (signed 8 at1)) (bf16.value scale), false)
  | 3 => (match elemE4M3 at1 with
    | .num m e => .fin (at1 ≥ 128) m.natAbs e
    | .nonfin => .nan, false)
  | 4 => (e5m2.value at1, false)
  | 5 => (bf16.value (leAt x.bytes (base + 2 * i) 2), false)
  | 6 =>
    let p := base + 16 * i
    match exactOf (ofPartial (slice p 16 x.bytes)) (x.scales.getD (p / 512) []) with
    | .nonfin => (.nan, false)
    | .val n num den e =>
      match f32.round n num den e with
      | .inf _ => (f32Max n, true)
      | v => (v, false)
  | _ => (f32.value (leAt x.bytes (base + 4 * i) 4), false)

/-- The elements of vector `r` of `n`. -/
def VecSource.vector (x : VecSource) (fmt scale n r : Nat) : List (FV × Bool) :=
  (List.range n).map (x.elem fmt scale (if x.fromRows then 512 * vecRows fmt n * r else n * elemBytes fmt * r))

/-- The vectors of an operation, with how many values fell outside FP32 (R204). -/
def VecSource.vectors (x : VecSource) (d : VecDesc) : List (List FV) × Nat :=
  let vs := (List.range d.rows).map (x.vector d.ifmt d.inScale d.len)
  (vs.map fun v => v.map (·.1), (vs.map fun v => (v.filter (·.2)).length).sum)

/-- The BF16 elements of a vector of `n` that starts at byte `base`. -/
def bfVector (l : List Byte) (base n : Nat) : List FV := (List.range n).map fun i => bf16.value (leAt l (base + 2 * i) 2)

/-! ### Writing (R204) -/

/-- An output: its bytes, was it saturated, is it non-finite? -/
def writeElem (fmt sigma : Nat) (tail : Nat) (v : FV) : List Byte × Bool × Bool :=
  if fmt = 7 then (leBytes 4 (f32.encode tail v), false, v.nonfinite)
  else match v with
    | .nan => (leBytes (elemBytes fmt) (drainCode fmt sigma .nonfin).1, false, true)
    | .inf n =>
      let top := if fmt = 2 then (if n then 0x80 else 0x7F) else if fmt = 3 then 0x7E else if fmt = 4 then 0x7B else 0x7F7F
      let sign := if n && fmt != 2 then (if fmt = 5 then 0x8000 else 0x80) else 0
      (leBytes (elemBytes fmt) (top + sign), true, false)
    | w =>
      let neg : Bool := match w with
        | .fin n _ _ => n
        | _ => false
      let c := drainCode fmt sigma w.exact
      (leBytes (elemBytes fmt) (if c.1 == 0 && neg && fmt != 2 then (if fmt = 5 then 0x8000 else 0x80) else c.1), c.2, false)

/-! ### Reductions (R205) -/

/-- One level of the pairwise tree in lane order. -/
def pairUp (g : FV → FV → FV) : List FV → List FV
  | a :: b :: r => g a b :: pairUp g r
  | l => l

/-- The tree over the 512 lanes of a cycle. -/
def laneTree (g : FV → FV → FV) : Nat → List FV → List FV
  | 0, l => l
  | n + 1, l => laneTree g n (pairUp g l)

/-- A reduction: each cycle's 512 lanes in the tree, identities beyond the vector's end, then the cycle results in cycle order. -/
def reduce (g : FV → FV → FV) (unit : FV) (l : List FV) : FV :=
  let cycles := (chunks 512 l).map fun c => (laneTree g 9 (c ++ List.replicate (512 - c.length) unit)).headD unit
  match cycles with
  | [] => unit
  | c :: r => r.foldl g c

/-- Sum of a vector. -/
def sumOf (l : List FV) : FV := reduce f32.add negZero l
/-- Maximum of a vector. -/
def maxOf (l : List FV) : FV := reduce FV.max (.inf true) l

/-! ### Normalisation, activations, softmax -/

/-- Mean of a vector. -/
def meanOf (l : List FV) : FV := f32.div (sumOf l) (f32.nat l.length)

/-- RMSNORM of a vector (R203; notes/assumptions/7). -/
def rmsnorm (eps : FV) (g x : List FV) : List FV :=
  let r := rsqrtF (f32.add (meanOf (x.map fun v => f32.mul v v)) eps)
  (x.zip g).map fun p => f32.mul (f32.mul p.1 p.2) r

/-- LAYERNORM of a vector (R203; notes/assumptions/7). -/
def layernorm (eps : FV) (g b x : List FV) : List FV :=
  let m := meanOf x
  let d := x.map fun v => f32.sub v m
  let r := rsqrtF (f32.add (meanOf (d.map fun v => f32.mul v v)) eps)
  (d.zip (g.zip b)).map fun p => f32.add (f32.mul (f32.mul p.1 p.2.1) r) p.2.2

/-- SOFTMAX of a vector under a mask (R203, R209): a key that is not allowed adds 0 and has output 0. -/
def softmax (scale : FV) (allowed : Nat → Bool) (x : List FV) : List FV :=
  let y := x.map fun v => f32.mul v scale
  let ok := (List.range x.length).map allowed
  let m := maxOf ((y.zip ok).map fun p => if p.2 then p.1 else .inf true)
  let e := (y.zip ok).map fun p => if p.2 then expF (f32.sub p.1 m) else posZero
  let z := sumOf e
  (e.zip ok).map fun p => if p.2 then f32.div p.1 z else posZero

/-- SWIGLU of a vector (R203). -/
def swiglu (x : List FV) : List FV :=
  let n := x.length / 2
  ((x.take n).zip (x.drop n)).map fun p => f32.mul (f32.mul p.1 (sigmoidF p.1)) p.2

/-! ### Rotary positions (R207) -/

/-- The rotation of a pair by the angle of frequency `freq` at position `p`. -/
def rotate (p freq : Nat) (a b : FV) : FV × FV :=
  let t := BitVec.ofNat 32 (p * freq % 2 ^ 64 / 2 ^ 32)
  let c := cosTurn t
  let s := sinTurn t
  (f32.sub (f32.mul a c) (f32.mul b s), f32.add (f32.mul a s) (f32.mul b c))

/-- ROTARY of a vector (R207): pairs (2i, 2i+1) or (i, i + HEAD_DIM/2) of each head. -/
def rotary (pairing : Bool) (dim p : Nat) (freq : Nat → Nat) (x : List FV) : List FV :=
  (List.range x.length).map fun k =>
    let head := k / dim * dim
    let i := k % dim
    let half := dim / 2
    let pair := if pairing then i % half else i / 2
    let lo := head + (if pairing then pair else 2 * pair)
    let hi := head + (if pairing then pair + half else 2 * pair + 1)
    let r := rotate p (freq pair) (x.getD lo posZero) (x.getD hi posZero)
    if dim = 0 ∨ x.length ≤ hi then x.getD k posZero else if k = lo then r.1 else r.2

/-! ### Tree masks (R208) -/

/-- Mask words and depths of a parent list, or the first node that breaks R208. -/
def treemask (n : Nat) (parents : List Nat) : Except Nat (List Nat × List Nat) :=
  (List.range n).foldl (fun acc j =>
    match acc with
    | .error e => .error e
    | .ok (m, d) =>
      let p := parents.getD j 0
      if p = 0xFF then .ok (m ++ [2 ^ j], d ++ [0])
      else if j ≤ p ∨ 15 ≤ d.getD p 0 then .error j
      else .ok (m ++ [m.getD p 0 ||| 2 ^ j], d ++ [d.getD p 0 + 1])) (.ok ([], []))

/-- Is key `k` allowed for the query of a node (R209)? -/
def keyAllowed (pre word k : Nat) : Bool := k < pre || (k < pre + 64 && word.testBit (k - pre))

/-! ### The sampler (R210 to R213) -/

/-- A NaN logit ranks as −∞. -/
def rankOf (v : FV) : FV := if v = .nan then .inf true else v

/-- Insert into a list in descending order; the newcomer goes after its equals. -/
def insertDown {α : Type} (gt : α → α → Bool) (x : α) : List α → List α
  | [] => [x]
  | y :: r => if gt x y then x :: y :: r else y :: insertDown gt x r

/-- Sort in descending order, stable. -/
def sortDown {α : Type} (gt : α → α → Bool) (l : List α) : List α := l.foldl (fun acc x => insertDown gt x acc) []

/-- Sort keeping the first 64 only. -/
def top64 {α : Type} (gt : α → α → Bool) (l : List α) : List α := l.foldl (fun acc x => (insertDown gt x acc).take 64) []

/-- TOPK of a vector (R210): its 64 entries (logit, identifier), m, s, and its non-finite outputs. -/
def topk (temp : FV) (idBase : Nat) (x : List FV) : List (FV × Nat) × FV × FV × Nat :=
  let y := x.map rankOf
  let best := top64 (fun a b => b.1.lt a.1) y.zipIdx
  let m := maxOf y
  let s := if m = .inf true then posZero else if temp.isZero then f32.nat 1
    else sumOf (x.map fun v => if v = .nan then posZero else expF (f32.div (f32.sub v m) temp))
  let bad := (x.filter (· == .nan)).length + (best.filter fun b => x.getD b.2 .nan != .nan && b.1.nonfinite).length +
    boolNat m.nonfinite + boolNat s.nonfinite
  (best.map (fun b => (b.1, (idBase + b.2) % 2 ^ 32)) ++ List.replicate (64 - best.length) (.inf true, 0xFFFFFFFF), m, s, bad)

/-- The two rows of a TOPK result (R210). -/
def topkRows (r : List (FV × Nat) × FV × FV × Nat) : List Byte :=
  (r.1.map fun e => leBytes 4 (f32.encode 0 e.1) ++ leBytes 4 e.2).flatten ++
  padTo 512 (leBytes 4 (f32.encode 0 r.2.1) ++ leBytes 4 (f32.encode 0 r.2.2.1))

/-- Running sums, each addition rounded, in order. -/
def runningSums : FV → List FV → List FV
  | _, [] => []
  | a, x :: r => f32.add a x :: runningSums (f32.add a x) r

/-- SAMPLE over the entries and (m, s) of the shards (R211, R213): the token, and was the draw limited?  `u` is the draw. -/
def sampleToken (temp topP : FV) (topK : Nat) (shards : List (List (FV × Nat) × FV × FV)) (u : Nat) : Nat × Bool :=
  let ms := shards.map fun x => rankOf x.2.1
  let big := maxOf ms
  let cand := sortDown (fun (a b : FV × Nat) => b.1.lt a.1 || (!a.1.lt b.1 && a.2 < b.2))
    ((shards.map (·.1)).flatten.map fun e => (rankOf e.1, e.2))
  let first := (cand.headD (.inf true, 0xFFFFFFFF)).2
  if temp.isZero ∨ big = .inf true then (first, false)
  else
    let w (l : FV) : FV := expF (f32.div (f32.sub l big) temp)
    let z := sumOf (shards.map fun x => if rankOf x.2.1 = .inf true then posZero else f32.mul x.2.2 (w (rankOf x.2.1)))
    let keep := cand.take topK
    let ps := keep.map fun e => if e.1 = .inf true then posZero else f32.div (w e.1) z
    let sums := runningSums posZero ps
    let cut := match sums.findIdx? fun c => !c.lt topP with
      | some i => i + 1
      | none => sums.length
    let kept := sums.take cut
    let total := kept.getLastD posZero
    let t := f32.mul (f32.round false (u / 2 ^ 40) 1 (-24)) total
    let pick := (kept.findIdx? fun c => t.lt c).getD (kept.length - 1)
    ((keep.getD pick (.inf true, first)).2, topK == 64 && total.lt topP)

/-- The message of the draw (R212). -/
def drawMessage (seed span step seq draw : Nat) : List Byte :=
  leBytes 8 seed ++ leBytes 8 span ++ leBytes 8 step ++ leBytes 4 seq ++ leBytes 4 draw

end Sys2Proof.Machine
end

