-- ==== Sys2Proof/Machine/Vector.lean ====
section
/-! DEFINITION. The vector unit: the VEC operations and the verdicts of its check lanes (R200 to R218, R373, R375). -/

namespace Sys2Proof.Machine

/-! ### Operands -/

/-- A parameter of 4 bytes. -/
def VecDesc.p32 (d : VecDesc) (off : Nat) : Nat := leAt d.params off 4
/-- A parameter of 1 byte. -/
def VecDesc.p8 (d : VecDesc) (off : Nat) : Nat := leAt d.params off 1
/-- The address that an operand parameter of 26 bits names (R175, R203). -/
def State.paramOperand (s : State) (f v : Nat) : Nat := wordOperand (s.field f).seq.idx v 0
/-- The rows of SRC1 or DST vectors of `n` elements in a format from a pier address. -/
def vectorRows (p fmt n rows : Nat) : List Nat := rowsFrom p (rows * vecRows fmt n)

/-- The array's results that stand in for SRC1: the oldest of a pass whose token the instruction's WAIT names (R73, R200;
notes/assumptions/18). -/
def State.forwarded (s : State) (f : Nat) (h : Hdr) : Option (Nat × List Byte × List Nat) :=
  (s.field f).seq.forward.find? fun x => h.wait.toNat.testBit x.1

/-- What a VEC operation takes and gives: SRC1's rows (none when the array delivers them), rows read beside them, rows written; the first
row of each operand. -/
structure VecPlan where
  operands : List Nat
  reads    : List Nat
  writes   : List Nat
deriving DecidableEq, Repr

/-- The rows of SRC1, none when the array delivers them. -/
def State.sourceRows (s : State) (f : Nat) (h : Hdr) (d : VecDesc) (src : Nat) : List Nat :=
  if (s.forwarded f h).isSome then [] else vectorRows src d.ifmt d.len d.rows

/-- SRC1 of an operation, from the array or from its rows, with the scales of PARTIAL entries (R125). -/
def State.vecSource (s : State) (f : Nat) (h : Hdr) (d : VecDesc) (src : Nat) : VecSource :=
  match s.forwarded f h with
  | some x => ⟨x.2.1, false, List.replicate ((x.2.1.length + 511) / 512) x.2.2⟩
  | none =>
    let ps := vectorRows src d.ifmt d.len d.rows
    ⟨s.rows f ps, true, ps.map (s.scalesAt f)⟩

/-- The input bits of an operation on which an open value may depend (R206): the descriptor and SRC1. -/
def State.vecKey (s : State) (h : Hdr) (o : VecOp) (d : VecDesc) : List Byte :=
  s.descriptor h.field o.vdesc.toNat ++ (s.vecSource h.field h d (s.opnd h.field o.src1)).bytes

/-! ### The end of every operation -/

/-- Non-finite outputs and saturated values are counted; the first non-finite output of a step records 0x0306 (R204). -/
def State.vecCount (s : State) (f nonfinite saturated : Nat) : State :=
  let s1 := (s.bump regVecNonfinite f nonfinite).bump regVecSaturations f saturated
  if nonfinite ≠ 0 ∧ !(s.field f).seq.vecNonfin then
    (s1.event (pierMaster f) 0x0306 (s.stepAndPc f)).modSeq f fun q => { q with vecNonfin := true }
  else s1

/-- Is VEC operation q of step n checked (R373)? -/
def vecChecked (profile q n : Nat) : Bool := profile == 0 || (profile == 1 && (n + q) % 8 == 0)

/-- The lane group that the check of operation q of step n recomputes (R373). -/
def laneGroup (profile q n : Nat) : Nat := if profile = 0 then (n + q) % 32 else (n + q) / 8 % 32

/-- Do the check lanes of group `g` see a fault: that of a lane of the group, or of a node of the reduction tree that they feed; of an
operation recomputed whole, any (R373)? -/
def LaneFault.seen (whole : Bool) (g : Nat) (e : LaneFault) : Bool :=
  e.bits != 0 && (whole || overlaps (e.index * 2 ^ e.level.val) (2 ^ e.level.val) (16 * g) 16)

/-- How many of the rows of an operation share a bank with another of its rows. -/
def sharedRows (rows : List Nat) : Nat := rows.length - (rows.map addrBank).eraseDups.length

/-- The cycles that an operation is stalled by rows of one bank (R200): none when its rows lie in different banks; else timing leaves open
which of them meet in a cycle of its one or two passes. -/
def State.vecStalls (s : State) (f : Nat) (rows : List Nat) : State :=
  if sharedRows rows = 0 then s else (s.bump regVecStalls f ((s.free 32).toNat % (2 * sharedRows rows + 1))).nextFree

/-- How a VEC operation is checked (R373): NOTIFY not at all, TREEMASK, SAMPLE and GATHER whole, the others by one group of lanes. -/
inductive VecCheck where
  | none | lanes | whole
deriving DecidableEq, Repr

/-- The operation enters the unit: its index, its verdict if it is checked, the results of the array that it takes, and its token. -/
def State.vecLaunch (s : State) (h : Hdr) (check : VecCheck) : State :=
  let f := h.field.val
  let q := (s.field f).seq
  let used := (s.forwarded f h).toList
  let checked := check != .none && vecChecked (s.profileOf f) q.vecIndex (q.reg 0)
  let s1 := s.modSeq f fun x =>
    { x with vecIndex := x.vecIndex + 1, forward := used.foldl List.erase x.forward
             verdicts := if checked then x.verdicts ++ [(true, q.vecIndex)] else x.verdicts
             wholeChecks := if checked && check == .whole then x.wholeChecks ++ [q.vecIndex] else x.wholeChecks }
  s1.launch h .vector 2 0 []

/-- Sign and payload of a NaN that an operation writes as FP32: open once arithmetic has propagated it; a PARTIAL entry converted alone is
0x7FC0_0000 (R204). -/
def nanTails (bare : Bool) (key : List Byte) (i : Nat) : Nat := if bare then 0 else (Config.nanTail key i).toNat

/-- Write the result vectors, each from a row boundary (R203), and count (R204). -/
def State.putVectors (s : State) (f dst : Nat) (fmt sigma : Nat) (tail : Nat → Nat) (vs : List (List FV)) : State :=
  let done := vs.zipIdx.map fun v => (v.1.zipIdx.map fun x => writeElem fmt sigma (tail (v.2 * 262144 + x.2)) x.1)
  let s1 := done.zipIdx.foldl (fun t v =>
    t.putRows f (rowAfter dst (v.2 * ((v.1.length * elemBytes fmt + 511) / 512))) (v.1.map (·.1)).flatten) s
  s1.vecCount f ((done.map fun v => (v.filter (·.2.2)).length).sum) ((done.map fun v => (v.filter (·.2.1)).length).sum)

/-- One VEC operation: issue, operand and bank checks, then `act` and the unit's queue. -/
def State.vecIssue (s : State) (op : Nat) (h : Hdr) (o : VecOp) (check : VecCheck) (plan : State → VecDesc → VecPlan) (act : VecDesc → State → State) :
    State :=
  s.issue h (vecWord op h o) (some .vector) fun t =>
    let d := VecDesc.ofBytes (t.descriptor h.field o.vdesc.toNat)
    let p := plan t d
    t.withRows h.field p.operands (p.reads ++ p.writes) fun u => ((act d u).vecStalls h.field (p.reads ++ p.writes)).vecLaunch h check

/-- The plan of an operation on vectors: SRC1, further operands with their rows, and DST with `n` elements to the vector. -/
def vecPlan (h : Hdr) (o : VecOp) (outLen : VecDesc → Nat) (extra : State → VecDesc → List (List Nat)) (s : State) (d : VecDesc) : VecPlan :=
  let f := h.field.val
  let src := s.sourceRows f h d (s.opnd f o.src1)
  let dst := vectorRows (s.opnd f o.dst) d.ofmt (outLen d) d.rows
  let more := extra s d
  ⟨(more ++ [src, dst]).filterMap List.head?, src ++ more.flatten, dst⟩

/-- An operation that maps each source vector to a result vector. -/
def State.vecMap (s : State) (op : Nat) (h : Hdr) (o : VecOp) (outLen : VecDesc → Nat) (extra : State → VecDesc → List (List Nat))
    (g : State → VecDesc → Nat → List FV → List FV) : State :=
  s.vecIssue op h o .lanes (vecPlan h o outLen extra) fun d t =>
    let f := h.field.val
    let src := (t.vecSource f h d (t.opnd f o.src1)).vectors d
    let tail := nanTails (op == 1 && d.ifmt == 6) (t.vecKey h o d)
    (t.putVectors f (t.opnd f o.dst) d.ofmt d.outScale tail (src.1.zipIdx.map fun v => g t d v.2 v.1)).vecCount f 0 src.2

/-- Results as long as the sources. -/
def sameLen (d : VecDesc) : Nat := d.len
/-- No further operand. -/
def noExtra (_ : State) (_ : VecDesc) : List (List Nat) := []
/-- SRC2 as `rows` vectors of BF16 (R203). -/
def src2Vectors (h : Hdr) (o : VecOp) (s : State) (d : VecDesc) : List (List Nat) := [vectorRows (s.opnd h.field o.src2) 5 d.len d.rows]
/-- SRC2 as one vector of BF16. -/
def src2Vector (h : Hdr) (o : VecOp) (s : State) (d : VecDesc) : List (List Nat) := [vectorRows (s.opnd h.field o.src2) 5 d.len 1]
/-- BF16 vector `r` at a pier address. -/
def State.bfAt (s : State) (f p n r : Nat) : List FV := bfVector (s.rows f (vectorRows (rowAfter p (r * vecRows 5 n)) 5 n 1)) 0 n

/-! ### Element-wise operations and normalisation (R203) -/

/-- CONVERT. -/
def execVecConvert (h : Hdr) (o : VecOp) (s : State) : Host.Outcome State Fault Refusal :=
  .next (s.vecMap 0x01 h o sameLen noExtra fun _ _ _ x => x)

/-- ADD. -/
def execVecAdd (h : Hdr) (o : VecOp) (s : State) : Host.Outcome State Fault Refusal :=
  .next (s.vecMap 0x02 h o sameLen (src2Vectors h o) fun t d r x =>
    (x.zip (t.bfAt h.field (t.opnd h.field o.src2) d.len r)).map fun p => f32.add p.1 p.2)

/-- MUL. -/
def execVecMul (h : Hdr) (o : VecOp) (s : State) : Host.Outcome State Fault Refusal :=
  .next (s.vecMap 0x03 h o sameLen (src2Vectors h o) fun t d r x =>
    (x.zip (t.bfAt h.field (t.opnd h.field o.src2) d.len r)).map fun p => f32.mul p.1 p.2)

/-- RMSNORM. -/
def execVecRmsnorm (h : Hdr) (o : VecOp) (s : State) : Host.Outcome State Fault Refusal :=
  .next (s.vecMap 0x10 h o sameLen (src2Vector h o) fun t d _ x =>
    rmsnorm (f32.value (d.p32 0)) (t.bfAt h.field (t.opnd h.field o.src2) d.len 0) x)

/-- The rows of h at RESID. -/
def residRows (h : Hdr) (s : State) (d : VecDesc) : List Nat := vectorRows (s.paramOperand h.field (d.p32 4)) 7 d.len d.rows

/-- h + x of vector `r` (R203). -/
def residSum (h : Hdr) (t : State) (d : VecDesc) (r : Nat) (x : List FV) : List FV :=
  ((VecSource.vector ⟨t.rows h.field (residRows h t d), true, []⟩ 7 0 d.len r).zip x).map fun p => f32.add p.1.1 p.2

/-- ADDNORM: h ← h + x at RESID, then RMSNORM of h. -/
def execVecAddnorm (h : Hdr) (o : VecOp) (s : State) : Host.Outcome State Fault Refusal :=
  .next (s.vecIssue 0x11 h o .lanes (vecPlan h o sameLen fun t d => src2Vector h o t d ++ [residRows h t d]) fun d t =>
    let f := h.field.val
    let src := (t.vecSource f h d (t.opnd f o.src1)).vectors d
    let key := t.vecKey h o d ++ t.rows f (residRows h t d)
    let sums := src.1.zipIdx.map fun v => residSum h t d v.2 v.1
    let g := t.bfAt f (t.opnd f o.src2) d.len 0
    ((t.putVectors f (t.paramOperand f (d.p32 4)) 7 0 (nanTails false (0#8 :: key)) sums).putVectors f (t.opnd f o.dst) d.ofmt d.outScale
      (nanTails false key)
      (sums.map fun v => rmsnorm (f32.value (d.p32 0)) g v)).vecCount f 0 src.2)

/-- LAYERNORM. -/
def execVecLayernorm (h : Hdr) (o : VecOp) (s : State) : Host.Outcome State Fault Refusal :=
  .next (s.vecMap 0x12 h o sameLen (fun t d => src2Vector h o t d ++ [vectorRows (t.paramOperand h.field (d.p32 4)) 5 d.len 1]) fun t d _ x =>
    layernorm (f32.value (d.p32 0)) (t.bfAt h.field (t.opnd h.field o.src2) d.len 0)
      (t.bfAt h.field (t.paramOperand h.field (d.p32 4)) d.len 0) x)

/-! ### SOFTMAX, SWIGLU, GELU, ROTARY -/

/-- Is MASKED set? -/
def VecDesc.masked (d : VecDesc) : Bool := (d.p8 9).testBit 0

/-- PREFIX_REG: PREFIX comes from an index register. -/
def VecDesc.prefixReg (d : VecDesc) : Bool := (d.p8 9).testBit 1

/-- PREFIX at the moment the operation starts (R209). -/
def State.keyPrefix (s : State) (f : Nat) (d : VecDesc) : Nat :=
  if d.prefixReg then (s.field f).seq.reg (d.p8 10 % 16) % 2 ^ 32 else d.p32 4

/-- A SOFTMAX starts (R203, R209): its results are written. -/
def State.softmaxRun (s : State) (f : Nat) (x : SoftHeld) : State :=
  let d := VecDesc.ofBytes x.desc
  let src := x.source.vectors d
  let word (r : Nat) : Nat := leAt x.mask (8 * (r % d.p8 8)) 8
  let res := src.1.zipIdx.map fun v =>
    softmax (f32.value (d.p32 0)) (fun k => !d.masked || keyAllowed (s.keyPrefix f d) (word v.2) k) v.1
  (s.putVectors f x.dst d.ofmt d.outScale (nanTails false (x.desc ++ x.source.bytes)) res).vecCount f 0 src.2

/-- Does an earlier operation hold the vector unit (R172)? -/
def State.vectorBusy (s : State) (f : Nat) : Bool := (s.field f).seq.inFlight.any (·.unit == .vector)

/-- The vector unit takes its next operation (R172): a SOFTMAX that was held starts. -/
def State.vectorNext (s : State) (f : Nat) : State :=
  match (s.field f).seq.inFlight.find? (·.unit == .vector) with
  | none => s
  | some x => match (s.field f).seq.held.find? (·.serial == x.serial) with
    | none => s
    | some y => (s.modSeq f fun q => { q with held := q.held.erase y }).softmaxRun f y

/-- SOFTMAX (R203, R209): under PREFIX_REG it starts when the unit is free. -/
def execVecSoftmax (h : Hdr) (o : VecOp) (s : State) : Host.Outcome State Fault Refusal :=
  .next (s.vecIssue 0x18 h o .lanes (vecPlan h o sameLen fun t d => if d.masked then [[t.opnd h.field o.src2]] else []) fun d t =>
    let f := h.field.val
    let x : SoftHeld := ⟨(t.field f).seq.serial, t.descriptor f o.vdesc.toNat, t.vecSource f h d (t.opnd f o.src1),
      if d.masked then t.row f (t.opnd f o.src2) else [], t.opnd f o.dst⟩
    if d.masked && d.prefixReg && t.vectorBusy f then t.modSeq f fun q => { q with held := q.held ++ [x] } else t.softmaxRun f x)

/-- SWIGLU: half as many results as elements. -/
def execVecSwiglu (h : Hdr) (o : VecOp) (s : State) : Host.Outcome State Fault Refusal :=
  .next (s.vecMap 0x1A h o (fun d => d.len / 2) noExtra fun _ _ _ x => swiglu x)

/-- GELU. -/
def execVecGelu (h : Hdr) (o : VecOp) (s : State) : Host.Outcome State Fault Refusal :=
  .next (s.vecMap 0x1B h o sameLen noExtra fun _ _ _ x => x.map geluF)

/-- HEAD_DIM. -/
def VecDesc.headDim (d : VecDesc) : Nat := leAt d.params 2 2
/-- The rows of the frequency table: HEAD_DIM / 2 values of 8 bytes. -/
def tableRows (h : Hdr) (s : State) (d : VecDesc) : List Nat := rowsFrom (s.paramOperand h.field (d.p32 4)) ((d.headDim * 4 + 511) / 512)

/-- ROTARY (R207). -/
def execVecRotary (h : Hdr) (o : VecOp) (s : State) : Host.Outcome State Fault Refusal :=
  .next (s.vecMap 0x20 h o sameLen
    (fun t d => [tableRows h t d] ++ if d.p32 8 = 0 then [] else [[t.paramOperand h.field (d.p32 8)]]) fun t d r x =>
      let f := h.field.val
      let table := t.rows f (tableRows h t d)
      let depth := if d.p32 8 = 0 then 0 else leAt (t.row f (t.paramOperand f (d.p32 8))) (r % 64) 1
      rotary ((d.p8 1).testBit 0) d.headDim ((t.field f).seq.reg (d.p8 0 % 16) + depth) (fun i => leAt table (8 * i) 8) x)

/-! ### TREEMASK, TOPK, SAMPLE, GATHER, NOTIFY -/

/-- TREEMASK (R208): two rows, or ACCESS and event 0x0A0A.  What follows the nodes in the rows is not stated. -/
def execVecTreemask (h : Hdr) (o : VecOp) (s : State) : Host.Outcome State Fault Refusal :=
  .next (s.issue h (vecWord 0x28 h o) (some .vector) fun t =>
    let f := h.field.val
    let d := VecDesc.ofBytes (t.descriptor f o.vdesc.toNat)
    let src := t.opnd f o.src1
    let dst := t.opnd f o.dst
    t.withRows f [src, dst] [src, dst, rowAfter dst 1] fun u =>
      let l := u.row f src
      match treemask d.len ((List.range d.len).map fun j => leAt l j 1) with
      | .error j =>
        ((u.event (pierMaster f) 0x0A0A (u.stepAndPc f ++ leBytes 1 j)).setReg regLastFault f
          (0x0A0A * 65536 + ((u.field f).seq.pc - 1) % 16384)).failed f 0x40
      | .ok (m, ds) =>
        let rest := leBytes 1024 (Config.treeRest (u.descriptor f o.vdesc.toNat ++ l)).toNat
        let row1 := ((m.map (leBytes 8)).flatten ++ rest).take 512
        let row2 := (ds.map (BitVec.ofNat 8) ++ rest.drop 512).take 512
        ((u.putRows f dst (row1 ++ row2)).vecStalls f [src, dst, rowAfter dst 1]).vecLaunch h .whole)

/-- TOPK (R210). -/
def execVecTopk (h : Hdr) (o : VecOp) (s : State) : Host.Outcome State Fault Refusal :=
  .next (s.vecIssue 0x30 h o .lanes
    (fun t d =>
      let f := h.field.val
      let src := t.sourceRows f h d (t.opnd f o.src1)
      let dst := rowsFrom (t.opnd f o.dst) (2 * d.rows)
      ⟨[src, dst].filterMap List.head?, src, dst⟩) fun d t =>
    let f := h.field.val
    let src := (t.vecSource f h d (t.opnd f o.src1)).vectors d
    let res := src.1.map (topk (f32.value (d.p32 0)) (d.p32 4))
    (t.putRows f (t.opnd f o.dst) (res.map topkRows).flatten).vecCount f ((res.map fun r => r.2.2.2).sum) src.2)

/-- One pair of TOPK rows (R210). -/
def shardOf (l : List Byte) : List (FV × Nat) × FV × FV :=
  ((List.range 64).map fun i => (f32.value (leAt l (8 * i) 4), leAt l (8 * i + 4) 4), f32.value (leAt l 512 4), f32.value (leAt l 516 4))

/-- SAMPLE (R211 to R213). -/
def execVecSample (h : Hdr) (o : VecOp) (s : State) : Host.Outcome State Fault Refusal :=
  .next (s.vecIssue 0x31 h o .whole
    (fun t d =>
      let f := h.field.val
      let src := rowsFrom (t.opnd f o.src1) (2 * d.p8 9)
      let dst := [t.opnd f o.dst]
      ⟨[src, dst].filterMap List.head?, src, dst⟩) fun d t =>
    let f := h.field.val
    let k := (t.memberOf f).getD 0
    let l := t.rows f (rowsFrom (t.opnd f o.src1) (2 * d.p8 9))
    let shards := (List.range (d.p8 9)).map fun i => shardOf (slice (1024 * i) 1024 l)
    let seed := if (t.span k).step.isSome then t.inForce k regSamplerSeed else t.reg regSamplerSeed k
    let u := shake64 (drawMessage seed k ((t.field f).seq.reg 0) (d.p32 12) (leAt d.params 10 2))
    let r := sampleToken (f32.value (d.p32 0)) (f32.value (d.p32 4)) (d.p8 8) shards u
    let t1 := if r.2 then t.bump regToppTruncations f 1 else t
    t1.putRows f (t.opnd f o.dst) (padTo 512 (leBytes 4 r.1)))

/-- The pier addresses that a GATHER's indices name (R214). -/
def State.gatherRows (s : State) (f : Nat) (d : VecDesc) : List Nat :=
  let l := s.rows f (rowsFrom (s.paramOperand f (d.p32 0)) ((4 * d.rows + 511) / 512))
  (List.range d.rows).map fun i => leAt l (4 * i) 4 % 2 ^ 22

/-- GATHER (R214): the elements taken are packed into DST, converted when the formats differ (notes/assumptions/18); non-finite outputs
are counted either way (R204). -/
def execVecGather (h : Hdr) (o : VecOp) (s : State) : Host.Outcome State Fault Refusal :=
  .next (s.vecIssue 0x38 h o .whole
    (fun t d =>
      let f := h.field.val
      let index := rowsFrom (t.paramOperand f (d.p32 0)) ((4 * d.rows + 511) / 512)
      let dst := rowsFrom (t.opnd f o.dst) ((d.rows * d.len * elemBytes d.ofmt + 511) / 512)
      ⟨[index, dst].filterMap List.head?, index ++ t.gatherRows f d, dst⟩) fun d t =>
    let f := h.field.val
    let off := leAt d.params 4 2
    let rows := t.gatherRows f d
    let bytes := (rows.map fun p => slice off (d.len * elemBytes d.ifmt) (t.row f p)).flatten
    let v := (rows.map fun p => (List.range d.len).map (VecSource.elem ⟨t.row f p, true, [t.scalesAt f p]⟩ d.ifmt d.inScale off)).flatten
    let t1 := t.bump regGatherElements f (d.rows * d.len)
    if d.ifmt = d.ofmt then (t1.putRows f (t.opnd f o.dst) bytes).vecCount f (v.filter (·.1.nonfinite)).length 0
    else
      (t1.putVectors f (t.opnd f o.dst) d.ofmt d.outScale (nanTails (d.ifmt == 6) (t.descriptor f o.vdesc.toNat ++ bytes))
        [v.map (·.1)]).vecCount f 0 (v.filter (·.2)).length)

/-- NOTIFY (R216, R230, R331): an interrupt to the field's cluster with the code, span, step and attempt; the movers that wait for it; and
at the anchor of a verify step the accept handler. -/
def execVecNotify (h : Hdr) (o : VecOp) (sampled : List SampledSeq) (s : State) : Host.Outcome State Fault Refusal :=
  .next (s.issue h (vecWord 0x40 h o) (some .vector) fun t =>
    let f := h.field.val
    let d := VecDesc.ofBytes (t.descriptor f o.vdesc.toNat)
    let code := d.p8 0
    let at' := (t.openStep f).getD ((t.spanOf f).getD 0xFF, 0, 0)
    let t1 := ((t.bump regNotifies f 1).interrupt f 2 [code, at'.1, at'.2.1, at'.2.2]).moverSeqEvent f 2 code
    let t2 := if (t.span at'.1).anchor = f ∧ (t.openStep f).isSome then
        t1.accept at'.1 (sampled.map fun x => (x.seq.toNat, x.tokens.map BitVec.toNat))
      else t1
    t2.vecLaunch h .none)

/-- The verdict of a checked VEC operation (R373, R375): the check lanes compare, given what the main lanes got wrong. -/
def execVectorVerdict (f : FieldId) (q : BitVec 16) (faults : List LaneFault) (s : State) : Host.Outcome State Fault Refusal :=
  let x := (s.field f).seq
  .next (match x.verdicts.find? fun v => v.1 && v.2 % 65536 == q.toNat with
    | none => s
    | some v =>
      let s1 := s.modSeq f fun y => { y with verdicts := y.verdicts.erase v, wholeChecks := y.wholeChecks.erase v.2 }
      let g := laneGroup (s.profileOf f) v.2 (x.reg 0)
      if faults.any (LaneFault.seen (x.wholeChecks.contains v.2) g) then
        ((((s1.event (pierMaster f) 0x0302 (s.stepLow f ++ leBytes 2 q.toNat ++ leBytes 1 g)).bump regVecCheckFails f 1).failed f
          2).chargePier f (pierUnit f) 0x0302).settle
      else s1)

end Sys2Proof.Machine
end

