-- ==== Sys2Proof/Machine/ProgramLoad.lean ====
section
/-! DEFINITION. Program images: their layout, the checks of a load, the load itself, and the scrub of program memory (R164 to R168). -/

namespace Sys2Proof.Machine

/-! ### Layout (R165, R166) -/

/-- DESC_COUNT of a header. -/
def headDescs (h : List Byte) : Nat := leAt h 6 2
/-- CODE_COUNT of a header. -/
def headCode (h : List Byte) : Nat := leAt h 8 4
/-- C0, the index of the first instruction. -/
def firstIndex (descs : Nat) : Nat := (512 + 32 * descs) / 16
/-- Bytes of an image. -/
def imageBytes (h : List Byte) : Nat := 512 + 32 * headDescs h + 16 * headCode h

/-- Check 1 of R167: MAGIC, FORMAT, CRC and DIGEST.  DESIGN CHOICE: a size that program memory does not hold
(R164), a DESC_COUNT above 1,024 and reserved header bytes that are not 0 (R166) count as this check too (notes/assumptions/80). -/
def headOk (l : List Byte) : Bool :=
  leAt l 0 4 == 0x5043594F && leAt l 4 2 == 1 && headDescs l ≤ 1024 && imageBytes l ≤ 262144 && crcGood 256 (l.take 256) &&
  (slice 84 168 l).all (· == 0) && l.length == imageBytes l && sha3 (l.drop 256) == slice 52 32 l

/-- The image that the bytes of a good header hold. -/
def Image.ofBytes (addr : Nat) (l : List Byte) : Image :=
  let n := headDescs l
  let c := firstIndex n
  { addr := addr, build := leAt l 48 4, digest := slice 52 32 l, codeFirst := c, codeCount := headCode l, prologue := leAt l 12 4
    body := (List.range 8).map fun v => leAt l (16 + 4 * v) 4, regions := slice 256 256 l
    descs := (List.range n).map fun d => slice (512 + 32 * d) 32 l
    code := (List.range (headCode l)).map fun i => leAt l (16 * (c + i)) 16 }

/-! ### The region table (R151) -/

/-- A region used by a table: first and last bank, first and last row. -/
def regionOf (t : List Byte) (i : Nat) : Nat × Nat × Nat × Nat :=
  (leAt t (16 * i) 1, leAt t (16 * i + 1) 1, leAt t (16 * i + 2) 2, leAt t (16 * i + 4) 2)
/-- KIND of a region. -/
def regionKind (t : List Byte) (i : Nat) : Nat := leAt t (16 * i + 6) 1
/-- One descriptor keeps R151. -/
def regionOk (t : List Byte) (i : Nat) : Bool :=
  let r := regionOf t i
  let src := leAt t (16 * i + 8) 8
  regionKind t i ≤ 3 && leAt t (16 * i + 7) 1 == 0 && src < 2 ^ 48 &&
  (regionKind t i == 0 || (r.1 ≤ r.2.1 && r.2.1 ≤ 39 && r.2.2.1 ≤ r.2.2.2 && src % 512 == 0 && (regionKind t i != 3 || src == 0)))
/-- Two regions overlap. -/
def regionsMeet (t : List Byte) (i j : Nat) : Bool :=
  let a := regionOf t i
  let b := regionOf t j
  regionKind t i != 0 && regionKind t j != 0 && a.1 ≤ b.2.1 && b.1 ≤ a.2.1 && a.2.2.1 ≤ b.2.2.2 && b.2.2.1 ≤ a.2.2.2
/-- Check 2 of R167. -/
def regionsOk (t : List Byte) : Bool :=
  (List.range 16).all (regionOk t) && (List.range 16).all fun i => (List.range i).all fun j => !regionsMeet t i j

/-! ### Instructions (R169 to R190) -/

/-- The operand bits that an instruction of a class and sub-operation reserves, as first bit and count; none when the class or SUB is
reserved (R173, R176 to R189; bits that no rule names are reserved, notes/assumptions/20). -/
def reservedBits (cls sub : Nat) : Option (List (Nat × Nat)) :=
  match cls, sub with
  | 1, 0 => some [(78, 6)]
  | 2, 0 => some []
  | 3, 0 | 3, 1 | 3, 2 => some [(78, 4), (0, 26)]
  | 4, 0 => some [(59, 1), (0, 26)]
  | 4, 1 => some [(52, 12), (0, 26)]
  | 5, 0 | 5, 3 => some [(52, 20)]
  | 5, 1 => some [(0, 84)]
  | 5, 2 => some [(59, 1), (0, 26)]
  | 6, 0 | 6, 1 => some [(88, 8), (0, 72)]
  | 7, 0 | 7, 1 | 7, 2 | 7, 3 => some [(52, 24)]
  | 8, 1 => some [(0, 88)]
  | 8, 0 | 8, 2 | 9, 0 | 9, 1 | 11, 0 | 12, 0 => some [(0, 96)]
  | 9, 2 => some [(0, 92)]
  | 10, 0 => some [(0, 93)]
  | 12, 1 => some [(0, 4)]
  | 12, 2 => some [(0, 44)]
  | 12, 3 => some [(0, 78)]
  | 12, 4 => some [(0, 80)]
  | 12, 5 => some [(0, 82)]
  | 12, 6 => some [(0, 60)]
  | _, _ => none

/-- CLASS of an instruction word. -/
def wordClass (w : Nat) : Nat := bits w 124 4
/-- SUB of an instruction word. -/
def wordSub (w : Nat) : Nat := bits w 120 4
/-- Is the word an instruction of a class and sub-operation? -/
def isOp (w cls sub : Nat) : Bool := wordClass w == cls && wordSub w == sub

/-- The parameter bytes that a vector operation uses, as a mask of its 20 bytes, or none for a reserved code (R203). -/
def vecParamMask (op : Nat) : Option Nat :=
  match op with
  | 0x01 | 0x02 | 0x03 | 0x1A | 0x1B | 0x28 => some 0
  | 0x10 => some (2 ^ 32 - 1)
  | 0x11 | 0x12 => some (2 ^ 58 - 1)
  | 0x18 => some (2 ^ 64 - 1 + 255 * 2 ^ 64 + 3 * 2 ^ 72 + 15 * 2 ^ 80)
  | 0x20 => some (15 + 2 ^ 8 + 65535 * 2 ^ 16 + (2 ^ 26 - 1) * 2 ^ 32 + (2 ^ 26 - 1) * 2 ^ 64)
  | 0x30 => some (2 ^ 64 - 1)
  | 0x31 => some (2 ^ 128 - 1)
  | 0x38 => some (2 ^ 26 - 1 + 511 * 2 ^ 32)
  | 0x40 => some 255
  | _ => none

/-- Check 3 of R167 for one word: reserved fields of the instruction and of the descriptor that it names, reserved codes. -/
def wordShape (i : Image) (w : Nat) : Bool :=
  (match reservedBits (wordClass w) (wordSub w) with
    | none => false
    | some l => l.all fun r => bits w r.1 r.2 == 0) &&
  bits w 96 2 == 0 && (wordClass w == 4 || bits w 98 1 == 0) &&
  (wordClass w != 10 || bits w 93 3 ≤ 4) &&
  (if wordClass w = 1 then
    let d := i.descs.getD (bits w 86 10) []
    leAt d 7 1 < 2 && (d.drop 23).all (· == 0)
  else if wordClass w = 2 then
    match vecParamMask (bits w 88 8) with
    | none => false
    | some m => let p := leAt (i.descs.getD (bits w 78 10) []) 12 20; p &&& m == p
  else true)

/-- The target of a jump. -/
def jumpTarget (w : Nat) : Option Nat :=
  if isOp w 12 4 then some (bits w 80 14) else if isOp w 12 5 then some (bits w 82 14) else none

/-- The pass-descriptor limits (R71, R81, R83, R84, R128, R177): BATCH is at most the "largest B" of R81's table, and every entry that the pass
reaches lies in its part (notes/assumptions/69). -/
def passLimits (d : PassDesc) : Bool :=
  let stream := d.mode != 3 && d.flow == 1
  let most := if d.wfmt = 5 then 8 else if d.wfmt = 1 then 3 else 4
  let groups := if d.mode = 2 then 4 else if d.mode = 1 then 2 else 0
  d.mode ≤ 3 && (d.mode == 3 || d.flow ≤ 1) && d.wfmt ≤ 5 && d.afmt ≤ 5 && d.ofmt ≤ 6 && d.beats != 0 && d.accFirst < d.part &&
  (d.ranges.head?.any fun r => r.2 ≤ d.part) &&
  (if stream then d.group ≤ groups && 1 ≤ d.batch && d.batch ≤ most && 1 ≤ d.inner && d.inner ≤ 16384 && d.bankFirst ≤ 8
    else d.mode == 3 || (d.group == 0 && d.batch == 1 && d.inner == 0)) &&
  (d.afmt == 2 || d.aScale == 0) && (d.wfmt == 2 || d.wScale == 0) &&
  (if d.ofmt = 2 then !scaleBad d.outScale else d.outScale == 0)

/-- The vector-descriptor limits (R202, R214). -/
def vecLimits (op src1 : Nat) (d : VecDesc) : Bool :=
  2 ≤ d.ifmt && d.ifmt ≤ 7 && ((2 ≤ d.ofmt && d.ofmt ≤ 5) || d.ofmt == 7) && 1 ≤ d.rows && d.rows ≤ 4096 && 1 ≤ d.len && d.len ≤ 262144 &&
  (d.ifmt == 2 || d.inScale == 0) && (if d.ofmt = 2 then !scaleBad d.outScale else d.outScale == 0) &&
  (op != 0x38 || (leAt d.params 4 2 + d.len * elemBytes d.ifmt ≤ 512 && src1 == 0))

/-- Check 6 of R167 for one word. -/
def wordLimits (i : Image) (w : Nat) : Bool :=
  if wordClass w = 1 then passLimits (PassDesc.ofBytes (i.descs.getD (bits w 86 10) []))
  else if wordClass w = 2 then vecLimits (bits w 88 8) (bits w 52 26) (VecDesc.ofBytes (i.descs.getD (bits w 78 10) []))
  else true

/-- The index of the first word, from index `n` on, that fails a check. -/
def firstBad (ok : Nat → Bool) : Nat → List Nat → Option Nat
  | _, [] => none
  | n, w :: r => if ok w then firstBad ok (n + 1) r else some n

/-! ### Chains (R122) -/

/-- Ranges of accumulation entries, first and one past the last, with the products that the chain at each has received. -/
abbrev Chains := List (Nat × Nat × Nat)

/-- The chains outside a range. -/
def Chains.outside (c : Chains) (lo hi : Nat) : Chains :=
  (c.map fun x => [(x.1, min x.2.1 lo, x.2.2), (max x.1 hi, x.2.1, x.2.2)]).flatten.filter fun x => x.1 < x.2.1

/-- The chains inside a range. -/
def Chains.inside (c : Chains) (lo hi : Nat) : Chains :=
  (c.map fun x => (max x.1 lo, min x.2.1 hi, x.2.2)).filter fun x => x.1 < x.2.1

/-- A pass delivers `n` products to each entry of a range: with CHAIN on top of what the chain there has received. -/
def Chains.pass (c : Chains) (chain : Bool) (n : Nat) (r : Nat × Nat) : Chains :=
  let held := c.inside r.1 r.2
  let fresh := held.foldl (fun (l : Chains) x => l.outside x.1 x.2.1) [(r.1, r.2, 0)]
  c.outside r.1 r.2 ++ if chain then (held ++ fresh).map (fun x => (x.1, x.2.1, x.2.2 + n)) else [(r.1, r.2, n)]

/-- The walk through a body that the instructions fix in advance: index, loop counters, and the chains; it ends at a NEXT or outside the
code, with the index of a PASS that exceeds the limit.  `fuel` exceeds the places that a walk can pass before it repeats itself. -/
def chainWalk (i : Image) : Nat → Nat → List Nat → Chains → Option Nat
  | 0, _, _, _ => none
  | fuel + 1, pc, loops, chains =>
    if !i.inside pc then none else
    let w := i.word pc
    if isOp w 12 0 then none
    else if wordClass w = 1 then
      let d := PassDesc.ofBytes (i.descs.getD (bits w 86 10) [])
      let c := d.ranges.foldl (fun (c : Chains) r => c.pass (w.testBit 85) d.perEntry r) chains
      if c.any (fun x => 32768 < x.2.2) then some pc
      else chainWalk i fuel (pc + 1) loops (if w.testBit 84 then d.ranges.foldl (fun (c : Chains) r => c.outside r.1 r.2) c else c)
    else if isOp w 12 3 then chainWalk i fuel (pc + 1) (loops.set (bits w 94 2) (bits w 78 16)) chains
    else if isOp w 12 4 then
      let c := bits w 94 2
      let v := (loops.getD c 0 + 65535) % 65536
      chainWalk i fuel (if v = 0 then pc + 1 else bits w 80 14) (loops.set c v) chains
    else if isOp w 12 5 then chainWalk i fuel (bits w 82 14) loops chains
    else chainWalk i fuel (pc + 1) loops chains

/-- Instructions of a walk: 2^14 indices, 2^64 values of the loop counters, and 2^15 totals that a chain can stand at before it is
refused. -/
def walkFuel : Nat := 2 ^ 93

/-! ### Bodies (R188, R190) -/

/-- The entries of an image's bodies. -/
def Image.entries (i : Image) : List Nat := (i.body.filter (· != 0xFFFFFFFF)).eraseDups
/-- The words of the body or prologue that starts at an entry: up to the next entry or the end of the code. -/
def Image.segment (i : Image) (e : Nat) : List Nat :=
  let next := ((i.prologue :: i.entries).filter (e < ·)).foldl min (i.codeFirst + i.codeCount)
  (i.code.drop (e - i.codeFirst)).take (next - e)
/-- Does a body keep R188 and R190: PHASE first, one COMMIT, just before its last NEXT? -/
def bodyOk (l : List Nat) : Bool :=
  let r := l.reverse.dropWhile fun w => !isOp w 12 0
  (l.head?.any fun w => wordClass w == 10) && (l.filter fun w => wordClass w == 11).length == 1 &&
  match r with
  | _ :: c :: _ => wordClass c == 11
  | _ => false
/-- Does the prologue keep R190: no COMMIT, a NEXT at its end? -/
def prologueOk (l : List Nat) : Bool :=
  !l.any (fun w => wordClass w == 11) && l.getLast?.any fun w => isOp w 12 0
/-- Do the jumps of a segment that starts at `e` stay inside it (R190)? -/
def jumpsInside (e : Nat) (l : List Nat) : Bool :=
  l.all fun w => match jumpTarget w with
    | some t => e ≤ t && t < e + l.length
    | none => true

/-! ### The checks in order (R167) -/

/-- The first check of R167 that an image fails, and the instruction index (0 where no instruction fails it). -/
def imageRefusal (l : List Byte) : Option (Nat × Nat) :=
  if !headOk l then some (1, 0)
  else
    let i := Image.ofBytes 0 l
    let bad (ok : Nat → Bool) : Option Nat := firstBad ok i.codeFirst i.code
    if !regionsOk i.regions then some (2, 0)
    else match bad (wordShape i) with
    | some n => some (3, n)
    | none =>
      if !i.inside i.prologue || !i.inside (i.entry 0) || i.entries.any (fun e => !i.inside e) then some (4, 0)
      else match bad fun w => (jumpTarget w).all i.inside with
      | some n => some (4, n)
      | none => match bad fun w => (wordClass w != 1 || bits w 86 10 < i.descs.length) && (wordClass w != 2 || bits w 78 10 < i.descs.length) with
        | some n => some (5, n)
        | none => match bad (wordLimits i) with
          | some n => some (6, n)
          | none => match (i.prologue :: i.entries).findSome? fun e => chainWalk i walkFuel e (List.replicate 4 0) [] with
            | some n => some (7, n)
            | none => match bad fun w => !(isOp w 12 1 && bits w 92 4 == 0) with
              | some n => some (8, n)
              | none =>
                if !prologueOk (i.segment i.prologue) then some (8, i.prologue)
                else match (i.prologue :: i.entries).find? fun e =>
                    !jumpsInside e (i.segment e) || (e != i.prologue && !bodyOk (i.segment e)) with
                  | some e => some (8, e)
                  | none => none

/-! ### The load -/

/-- May the supervisor load an image into the pier of field `f` (R167)? -/
def State.mayLoad (s : State) (f : Nat) : Bool :=
  let st := (s.field f).power.state
  s.reachable f && st != .retired && st != .fused &&
  match s.spanOf f with
  | none => true
  | some k => match (s.span k).state with
    | .loading => true
    | .paused => (s.field f).seq.state == .empty || (s.field f).seq.state == .loaded || (s.field f).seq.state == .waiting
    | _ => false

/-- A checked image is loaded into both twins (R167, R198); a test segment on the pier stops (R388). -/
def State.loadImage (s : State) (f : Nat) (i : Image) : State :=
  let s1 := ((s.dropSegment f).aheadClear f).modSeq f fun _ => { Sequencer.reset with state := .loaded, image := some i }
  (((s1.setReg regProgramBuild f i.build).setReg regProgramDigest f (ofLe i.digest)).setReg regRegionTable f (ofLe i.regions)).supEvent 0x0A09
    (leBytes 4 i.build)

/-- How many bytes the supervisor reads of an image: those of its header, or as many as the header gives. -/
def State.imageSize (s : State) (a : Nat) : Nat :=
  let n := imageBytes ((s.peek a 256).getD [])
  if n ≤ 262144 then max 256 n else 256

/-- The supervisor reads an image from tower memory. -/
def State.noteImage (s : State) (a : Nat) : State := s.noteRead a (s.imageSize a)

/-- PROGRAM_LOAD. -/
def execProgramLoad (f : FieldId) (image : BitVec 48) (s : State) : Host.Outcome State Fault Refusal :=
  let head := (s.peek image.toNat 256).getD []
  let size := if imageBytes head ≤ 262144 then imageBytes head else 256
  let l := if imageBytes head ≤ 262144 then (s.peek image.toNat size).getD [] else []
  .next (if !s.mayLoad f then s
    else
      let s1 := s.noteImage image.toNat
      match imageRefusal l with
      | some (n, pc) => ((s1.noteOutside image.toNat size).supEvent 0x0A08 (leBytes 1 n ++ leBytes 2 pc)).settle
      | none => (s1.loadImage f (Image.ofBytes image.toNat l)).settle)

/-! ### Program memory (R168) -/

/-- The 100 ms scrub meets a word of program memory. -/
def execProgmemScrub (f : FieldId) (found : EccResult) (s : State) : Host.Outcome State Fault Refusal :=
  .next (if (s.field f).seq.image.isNone then s
    else match found with
      | .clean => s
      | .corrected => s.bump regProgEccCorrected f 1
      | .uncorrectable => s.wordFault f)

/-- The supervisor has rewritten the damaged word in both twins (R168, R198): issue may go on, abort-done is released, and a failed
prologue may start again. -/
def execProgmemRewriteDone (f : FieldId) (s : State) : Host.Outcome State Fault Refusal :=
  .next (if (s.field f).seq.damagedWord then s.modSeq f fun x => { x with damagedWord := false } else s)

end Sys2Proof.Machine
end

