-- ==== Sys2Proof/Machine/Spans.lean ====
section
/-! DEFINITION. Creating, resetting and deleting spans, the two supervisors, mailboxes, and the messages of other devices of a bridged
span (R347 to R361). -/

namespace Sys2Proof.Machine

/-! ### Placements (R354, R355) -/

/-- PIERS of a placement, as fields. -/
def placePiers (l : List Byte) : List Nat := bitList 30 (leAt l 0 4)
/-- The pier named by SPARE. -/
def placeSpare (l : List Byte) : Option Nat := if leAt l 5 1 = 0xFF then none else some (leAt l 5 1)
/-- COUNTS of a placement for device `d`. -/
def placeCount (l : List Byte) (d : Nat) : Nat := leAt l (36 + d) 1

/-- A placement keeps R13: its reserved bits are 0. -/
def placementShape (l : List Byte) : Bool :=
  leAt l 0 4 < 2 ^ 30 && leAt l 6 1 ≤ 1 && leAt l 7 1 ≤ 1 && leAt l 14 2 == 0 && (l.drop 40).all (· == 0)

/-- Member numbers of a span in order (R353).  A placement does not name the fields of another device's members, so the model names
them by their place (notes/assumptions/21). -/
def placeMembers (l : List Byte) : List (Nat × Nat) :=
  ((List.range (leAt l 32 1)).map fun d =>
    if d = leAt l 33 1 then (placePiers l).map fun f => (d, f) else (List.range (placeCount l d)).map fun i => (d, i)).flatten

/-- Every set of a mask whose descriptor is VALID. -/
def State.validSets (s : State) (m : Nat) : List Nat := (bitList 16 m).filter fun j => (s.setDesc j).valid

/-- The field of the channel that holds an address's first copy (R254, R269). -/
def State.addrFieldOf (s : State) (k a : Nat) : Nat :=
  let d := s.setDesc k
  channelField (d.atPos (d.posRow a).1 (d.posRow a).2 a).1

/-- The units of the first row of a mask's sets: set, address. -/
def State.unitsOf (s : State) (m : Nat) : List (Nat × Nat) :=
  ((s.validSets m).map fun k => (List.range (s.setDesc k).spread).map fun p => (k, (s.setDesc k).base + p * (s.setDesc k).unit)).flatten

/-- The choice of the supervisor among `n` possibilities. -/
def choose (which : Nat) (l : List Byte) (n : Nat) : Nat := (Config.spanAddress which (ofLe l)).toNat % n

/-- Keystone addresses A and B for a placement: any units of the RECORD sets in two different fields (R269). -/
def State.keystoneAddrs (s : State) (l : List Byte) : Option (Nat × Nat) :=
  let us := s.unitsOf (leAt l 12 2)
  let a := us.getD (choose 0 l us.length) (0, 0)
  match us.filter fun x => s.addrFieldOf x.1 x.2 != s.addrFieldOf a.1 a.2 with
  | [] => none
  | bs => some (a.2, (bs.getD (choose 1 l bs.length) (0, 0)).2)

/-- An address of `n` bytes in a RECORD set, 512-byte aligned. -/
def State.queueAddr (s : State) (which : Nat) (l : List Byte) (n : Nat) : Nat :=
  let sets := (s.validSets (leAt l 12 2)).filter fun k => n ≤ (s.setDesc k).size
  let d := s.setDesc (sets.getD (choose which l sets.length) 0)
  d.base + 512 * choose which l ((d.size - n) / 512 + 1)

/-- A host entry that R355 and R366 refuse: any right, under another tag, at a scratchpad or tower of the span. -/
def State.foreignEntry (s : State) (k : Nat) (l : List Byte) : Bool :=
  let piers := placePiers l ++ (placeSpare l).toList
  let sets := namedSets l
  let bad (n e : Nat) (covers : Entry → Bool) : Bool :=
    match s.entry n e with
    | some x => x.rights % 16 != 0 && x.tag != k && covers x
    | none => false
  ((List.range 64).filter (9 ≤ ·)).any fun e =>
    piers.any (fun f => bad (targetScratch f) e fun _ => true) ||
    (List.range 24).any fun t => bad (targetTower t) e fun x =>
      (bitList 16 (sets &&& x.scope)).any fun j => bits (s.setChannels j) (8 * t) 8 != 0

/-- The set that holds the image of a placement, when it serves. -/
def State.imageServes (s : State) (l : List Byte) : Bool := (s.setOf (leAt l 16 8)).any s.setServes

/-- The bytes of the image of a placement. -/
def State.imageAt (s : State) (a : Nat) : List Byte :=
  let head := (s.peek a 256).getD []
  if imageBytes head ≤ 262144 then (s.peek a (imageBytes head)).getD [] else []

/-- The first condition of R355 that a CREATE of span `k` fails, 0 for none. -/
def State.createRefusal (s : State) (k : Nat) : Nat :=
  let l := s.placement k
  let piers := placePiers l
  let all := piers ++ (placeSpare l).toList
  let devs := leAt l 32 1
  let me := leAt l 33 1
  let sets := bitList 16 (namedSets l)
  if all.any (fun f => 30 ≤ f || (s.spanOf f).isSome || s.pierFused f || (s.field f).power.state == .retired || (s.field f).power.state == .fused) ||
    (placeSpare l).any piers.contains then 1
  else if me == leAt l 34 1 && !piers.contains (leAt l 4 1) then 2
  else if (bitList 16 (leAt l 8 2)).any (fun j => !(s.setDesc j).home) ||
    sets.any (fun j => !(s.setDesc j).valid || !(s.setUsers j).isEmpty) then 3
  else if leAt l 10 2 == 0 || leAt l 12 2 == 0 || (s.keystoneAddrs l).isNone then 4
  else if devs == 0 || 4 < devs || devs ≤ me || devs ≤ leAt l 34 1 || (leAt l 7 1 == 1) != (1 < devs) ||
    (bitList 8 (leAt l 35 1)).any (fun p => (s.link p).state == .retired || (s.link p).state == .fused || s.portFused p) then 5
  else if 120 < ((List.range 4).map (placeCount l)).sum then 6
  else if s.imageServes l && (imageRefusal (s.imageAt (leAt l 16 8))).isSome then 7
  else if s.foreignEntry k l then 8
  else 0

/-- Steps 4 and 5 of R356: both keystone copies, and the image into the members and the spare; a refused image stops the span. -/
def State.spanPrepare (s : State) (k : Nat) : State :=
  let p := s.span k
  let l := s.placement k
  if p.state ≠ .loading ∨ p.prepared ∨ !(bitList 16 (leAt l 12 2)).all s.setServes ∨ !s.imageServes l then s
  else
    let bytes := s.imageAt (leAt l 16 8)
    let s1 := (s.noteImage (leAt l 16 8)).modSpan k fun q => { q with prepared := true }
    let s2 := s1.writeKeystone k p.record
    match imageRefusal bytes with
    | some _ => (s2.supEvent 0x0A14 (leBytes 1 7)).setSpanState k .stopped
    | none => p.piers.foldl (fun t f => t.loadImage f (Image.ofBytes (leAt l 16 8) bytes)) s2

/-- Every LOADING span whose sets have come to serve is prepared (R356). -/
def State.preparePending (s : State) : State := (List.range 8).foldl State.spanPrepare s

/-- CREATE (R53, R54, R356, R474): the span exists in LOADING with epoch 0 and step 0; the piers that it names wake. -/
def State.createSpan (s : State) (k : Nat) : State :=
  let l := s.placement k
  let ks := (s.keystoneAddrs l).getD (0, 0)
  let new : Span :=
    { Span.reset with members := placeMembers l, spare := placeSpare l, devices := leAt l 32 1, device := leAt l 33 1, anchor := leAt l 4 1
                      addrA := ks.1, addrB := ks.2, reqQueue := s.queueAddr 2 l 1049088, outQueue := s.queueAddr 3 l 4194816 }
  let s1 := (((s.modSpan k fun _ => new).specClear k).setReg regAbortCount k 0).setReg regSpanClass k (leAt l 6 1)
  let s2 := (s1.setSpanState k .loading).showCommitted k
  (new.piers.foldl (fun t f => (((t.dropSegment f).fieldServes f true).pierWake f).requestPoint f) s2).spanPrepare k

/-- RESET (R54, R358, R564): committed entries are sent and the bindings end; the span enters RESETTING, its piers stop, and its cores receive the reset interrupt. -/
def State.resetSpan (s : State) (k : Nat) : State :=
  let p := s.span k
  let stop (t : State) (f : Nat) : State :=
    match (t.field f).seq.state with
    | .running | .prologue | .committing | .aborting => (t.pierStop f).seqWait f
    | _ => t
  let s0 := (s.engineAdvance k).modSpan k fun q => { q with step := none, pauses := [], recovery := [], bindings := [] }
  let s1 := p.piers.foldl stop s0
  let s2 := (List.range 30).foldl (fun t f => if t.spanCores f k = 0 then t else t.interrupt f 4 [k]) s1
  s2.setSpanState k .resetting

/-- A table of span numbers with every byte of span `k` made 0xFF. -/
def freeBytes (n k v : Nat) : Nat := ofLe ((leBytes n v).map fun b => if b.toNat = k then 0xFF else b)

/-- DELETE (R198, R358).  DESIGN CHOICE: the record of an UNUSED span shows epoch 0, no anchor and no pier, and keeps what else it last showed
(notes/assumptions/77). -/
def State.deleteSpan (s : State) (k : Nat) : State :=
  let p := s.span k
  let s1 := p.piers.foldl (fun t f => (t.seqEmpty f).fieldServes f false) s
  let s2 := (List.range 30).foldl (fun t f =>
    ((t.setReg regMoverSpan f (freeBytes 16 k (t.reg regMoverSpan f))).moverEpochs f).setReg regCoreSpan f
      (freeBytes 4 k (t.reg regCoreSpan f))) s1
  let s3 := (List.range 48).foldl (fun t j => t.setRegAt regGroup k j 0) s2
  p.piers.foldl State.requestPoint (((s3.setSpanState k .unused).modSpan k fun _ => Span.reset).supEvent 0x0A15 [])

/-! ### Supervisors (R350, R351) -/

/-- Transactions of some masters end (R519): each master's next request is answered EXPIRED; event 0x0805. -/
def State.expireTx (s : State) (who : Nat → Bool) : State :=
  (s.control.txs.filter fun t => who t.master).foldl (fun u t =>
    let u1 := u.modCtl fun c => { c with txs := c.txs.erase t, expired := t.master :: c.expired.filter (· != t.master) }
    let u2 := (u1.bump regTxExpired 0 1).supEvent 0x0805 (leBytes 2 t.master ++ leBytes 1 t.staged.length)
    if t.master = 0x300 then u2.vector 7 else u2) s

/-- The timebase of field `f` becomes the master without changing its time (R452): what the other fields differ from it is slewed. -/
def State.masterMoves (s : State) (f : Nat) : State :=
  let d : Int := (s.fieldTime f : Int) - s.now
  (List.range 30).foldl (fun t g => t.modClock g fun c => { c with offset := c.offset - d }) (s.modClocks fun c => { c with time := s.fieldTime f })

/-- The other supervisor is active: entry 0 of every table is its own (R351), and its field is the master of device time (R452). -/
def State.switchSupervisor (s : State) : State :=
  let s1 := s.modCtl fun c => { c with activeB := !c.activeB }
  ((s1.masterMoves s1.supervisorField).supEvent 0x0720 []).vector 6

/-- The active supervisor's heartbeat with its journal (R350). -/
def execHeartbeat (s : State) : Host.Outcome State Fault Refusal :=
  .next (if s.boot.powered ∧ s.control.standby then s.emit .heartbeat else s)

/-- The new supervisor reads both keystone copies of a span under R30 (R351): it takes the higher valid STEP and rewrites the other copy,
but for a step whose record the anchor is writing; a span whose record has been written and has no valid copy stops. -/
def State.rereadKeystone (s : State) (k : Nat) : State :=
  let p := s.span k
  if p.state = .unused ∨ (p.state = .loading ∧ !p.prepared) then s
  else if p.step = some .decided ∨ s.anchorAway k then s.showCommitted k
  else
    let s := (s.noteRead p.addrA 64).noteRead p.addrB 64
    match s.governing k with
    | none => (((s.modSpan k Span.closed).membersRest k).setSpanState k .stopped).supEvent 0x0A05 []
    | some l => ((s.writeKeystone k l).modSpan k fun q => q.adopt l).showCommitted k

/-- The standby takes over (R351, R519): it reads what is committed, and makes the writes of R222 that waited. -/
def State.takeover (s : State) : State :=
  let s1 := (s.switchSupervisor.bump regTakeovers 0 1).expireTx fun _ => true
  let s2 := (s1.modCtl fun c => { c with standby := false }).capacityChanged
  (List.range 8).foldl (fun t k => (t.rereadKeystone k).draftWrite k) s2

/-- Supervisor A is not running within 1 s of bring-up (R484): B becomes active. -/
def execSupervisorStartTimeout (s : State) : Host.Outcome State Fault Refusal :=
  .next (if s.boot.powered ∧ !s.control.activeB ∧ s.control.standby ∧ s.boot.step = 1 then
      (s.modCtl fun c => { c with activeB := true, standby := false }).capacityChanged
    else s)

/-! ### Mailboxes (R347) -/

/-- The memory key of a byte of a mailbox (R521). -/
def mailboxKey (f off : Nat) : Nat := controlKey (0x200000 + 0x1000 * f + off)

/-- MAILBOX_WRITE. -/
def State.mailboxWrite (s : State) (p : Pkt) (stream : Bool) (f off : Nat) (bytes : List Byte) : State :=
  if s.stale p then s.dropStale p
  else if !s.reachable f then s.answer p tyNack nackUnreachable []
  else if 4096 < off + bytes.length then s.answer p tyNack nackAbsent []
  else if !s.granted (targetCluster f) p.master.toNat p.span.toNat .w [] then
    (s.violation (targetCluster f) p.master.toNat p.span.toNat .w off).answer p tyNack nackAccess []
  else ((s.write (mailboxKey f off) bytes).interrupt f 3 [off]).performed p stream

/-- MAILBOX_WRITE (R347). -/
def execMailboxWrite (p : Pkt) (f : FieldId) (offset : BitVec 12) (bytes : List Byte) (s : State) : Host.Outcome State Fault Refusal :=
  .next (s.carried tySmallWrite 1 p fun t => t.mailboxWrite p false f offset.toNat bytes)

/-! ### Bridged spans (R360, R361, R371, R377) -/

/-- A checking profile is written (R371, R584): event 0x0308 with the first step that opens under it. -/
def State.setProfile (s : State) (k v : Nat) : State :=
  let p := s.span k
  (s.setReg regCheckProfile k v).supEvent 0x0308
    (leBytes 1 k ++ leBytes 1 v ++ leBytes 1 (s.reg regCheckProfile k) ++ zeros 1 ++ leBytes 4 (p.committed + if p.step.isSome then 2 else 1))

/-- SUPERVISOR_CONTROL_PACKET: LOADED counts the devices that are loaded; an epoch is installed while the span is PAUSED or RESETTING; a
profile or a digest seed takes the value of the anchor device. -/
def execSupervisorControlPacket (sp : SpanId) (device : Fin 4) (c : PeerControl) (s : State) : Host.Outcome State Fault Refusal :=
  let p := s.span sp
  .next (if p.state = .unused ∨ p.devices ≤ 1 ∨ device = p.device then s
    else match c with
      | .loaded => (s.modSpan sp fun q => { q with peersLoaded := q.peersLoaded + 1 }).tryReady sp
      | .epoch e => if p.state = .paused ∨ p.state = .resetting then (s.installEpoch sp e.toNat).settle else s
      | .profile v => if v.toNat ≤ 2 then s.setProfile sp v.toNat else s
      | .seed v => s.setReg regDigestSeed sp v.toNat)

/-- A takeover on another device has not been answered in 2 ms (R361): its members are lost. -/
def execBridgedTakeoverTimeout (sp : SpanId) (device : Fin 4) (s : State) : Host.Outcome State Fault Refusal :=
  let p := s.span sp
  .next (if p.state = .unused ∨ device = p.device then s
    else ((p.members.filter (·.1 == device.val)).foldl (fun t m => t.loseMember sp m.1 m.2) s).settle)

end Sys2Proof.Machine
end

