-- ==== Sys2Proof/Machine/BootOps.lean ====
section
/-! DEFINITION. What power-off leaves, the counts that persist, the pins of the module, and when spans may begin to serve (R479, R482 to
R491, R571, R572). -/

namespace Sys2Proof.Machine

/-- The code of BRINGUP_STATE (R482, R483). -/
def Boot.code (b : Boot) : Nat :=
  if b.fuseFault && 5 ≤ b.step then 12 else if b.recovery then 13 else if b.full then 11 else if b.fast then 10 else b.step

/-- Is the dictionary served (R482, R515): has step 4 ended? -/
def State.dictReady (s : State) : Bool := s.boot.powered && 5 ≤ s.boot.step

/-! ### Pins (R572) -/

/-- The level of MOD_READY_N. -/
def State.readyPin (s : State) : Bool := !(s.boot.code == 10 || s.boot.code == 11)
/-- The level of MOD_FAULT_N; without power nothing drives it (R479). -/
def State.faultPin (s : State) : Bool := !s.boot.powered || !(s.boot.code == 12 || s.boot.code == 13 || s.reg regLeak 0 == 1 || s.supply.starved)

/-- The output pins follow the state: a level that differs from that of `old` is shown. -/
def State.showPins (s old : State) : State :=
  let s1 := if s.readyPin = old.readyPin then s else s.emit (.pin .modReadyN s.readyPin)
  if s.faultPin = old.faultPin then s1 else s1.emit (.pin .modFaultN s.faultPin)

/-! ### Power off (R459, R479) -/

/-- Does an object that persists hold key `k`? -/
def nvKey (k : Nat) : Bool :=
  catalogue.any fun o => o.nv && o.index ≤ k / 256 && k / 256 < o.index + o.count && o.sub ≤ k % 256 && k % 256 < o.sub + o.subs

/-- A firmware bank at power loss: an upload under way has failed (R506). -/
def BankImg.powerLost (b : BankImg) : BankImg := if b.state = .staging then { b with state := .failed } else b

/-- The module with its power stage off: what stands in module flash and fuses stays, everything else is as at reset. -/
def State.powerOff (s : State) : State :=
  let old := s
  let field (x : Field) : Field := { Field.reset with power := { PowerS.reset with ageCeiling := x.power.ageCeiling } }
  ({ State.reset with
      pending := s.pending, outbox := s.outbox, freeCount := s.freeCount
      regs := s.regs.filter fun e => nvKey e.1
      mem := s.mem.filter fun c => 2 ^ 48 ≤ c.1
      fields := s.fields.map field
      towers := s.towers.map fun t => { Tower.reset with repaired := t.repaired }
      recorder := { s.recorder.powerLost with bucket := s.supply.saved.2.2 }
      faults := { s.faults with probes := [], pausedOn := [], located := [] }
      control := { Control.reset with keys := s.control.keys, nvWrites := s.control.nvWrites }
      boot := { Boot.reset with bankA := s.boot.bankA.powerLost, bankB := s.boot.bankB.powerLost, bootB := s.boot.bootB, mapA := s.boot.mapA
                                mapB := s.boot.mapB, mapLost := s.boot.mapLost, pack := s.boot.pack, leafNext := s.boot.leafEnd, leafEnd := s.boot.leafEnd
                                saved := s.boot.saved }
      clocks := { Clocks.reset with good := s.clocks.good }
      supply := { Supply.reset with opNanos := s.supply.saved.1 * 1000000000, saved := s.supply.saved, calibrated := s.supply.calibrated
                                    models := s.supply.models } : State }.setReg regPowerCycles 0 s.supply.saved.2.1).showPins old

/-- Operating time, the power-cycle count and the page bucket are written to flash (R479). -/
def State.persist (s : State) : State :=
  s.modSupply fun p => { p with saved := (s.opSeconds, s.reg regPowerCycles 0, s.recorder.bucket) }

/-! ### Serving (R261, R273, R360, R485) -/

/-- Loaded spans that may serve become READY, and spans whose sets have come to serve are prepared. -/
def State.serveAll (s : State) : State := (List.range 8).foldl State.tryReady s.preparePending

/-- FAST service begins once the towers of every saved HOME set have passed (R273, R485). -/
def State.fastCheck (s : State) : State :=
  let waits := (List.range 16).any fun k => (s.setDesc k).valid && (s.setDesc k).home && (s.set k).state == .untested
  if s.boot.fastMode ∧ s.boot.step = 9 ∧ !s.boot.fast ∧ !waits then
    (((s.modBoot fun b => { b with fast := true }).supEvent 0x0B11 []).setReg regServiceTime 0 s.now).showPins s
  else s

end Sys2Proof.Machine
end

