-- ==== Sys2Proof/Machine/FwOps.lean ====
section
/-! DEFINITION. Firmware banks, the rules an image verifies under, staging, test packs, the retirement map and attestation (R391, R392,
R490 to R505, R514). -/

namespace Sys2Proof.Machine

/-! ### Status codes (R514) -/

/-- OK. -/
def stOk : Nat := 0
/-- NOT_PRESENT. -/
def stNotPresent : Nat := 1
/-- ACCESS. -/
def stAccess : Nat := 2
/-- BUSY. -/
def stBusy : Nat := 3
/-- NOT_READY. -/
def stNotReady : Nat := 4
/-- VALUE. -/
def stValue : Nat := 5
/-- TYPE. -/
def stType : Nat := 6
/-- TX. -/
def stTx : Nat := 7
/-- EXPIRED. -/
def stExpired : Nat := 8
/-- CHANGED. -/
def stChanged : Nat := 9
/-- AUTH. -/
def stAuth : Nat := 10

/-! ### Banks (R497) -/

/-- Bank B when `b`, else bank A. -/
def Boot.bank (x : Boot) (b : Bool) : BankImg := if b then x.bankB else x.bankA
/-- Change a bank. -/
def State.modBankImg (s : State) (b : Bool) (g : BankImg → BankImg) : State :=
  s.modBoot fun x => if b then { x with bankB := g x.bankB } else { x with bankA := g x.bankA }
/-- The boot bank. -/
def State.bootBank (s : State) : BankImg := s.boot.bank s.boot.bootB
/-- The other bank. -/
def State.otherBank (s : State) : BankImg := s.boot.bank !s.boot.bootB
/-- The key of the first byte of the test-pack slots and of an upload in RECOVERY. -/
def uploadKey : Nat := 2 ^ 48 + 2 * 2 ^ 25
/-- The fused security version: the number of bits set (R487). -/
def State.securityVersion (s : State) : Nat := popCount 64 (leAt s.fuses 944 8)
/-- Is key slot `k` revoked (R487)? -/
def State.keyRevoked (s : State) (k : Nat) : Bool := (leAt s.fuses 940 1).testBit k
/-- The fused digest of the key of slot `k` (R487). -/
def State.keyDigest (s : State) (k : Nat) : List Byte := slice (684 + 32 * k) 32 s.fuses
/-- Put bytes into the fuse map: fuses are blown (R500). -/
def State.blowFuses (s : State) (off : Nat) (l : List Byte) : State := s.setReg regFuseMap 0 (ofLe (splice s.fuses off l))

/-! ### Images (R494 to R496) -/

/-- The longest component of each kind in bytes (R494). -/
def componentLimit (kind : Nat) : Nat := [0, 6 * 2 ^ 20, 2 * 2 ^ 20, 2 ^ 16, 2 ^ 16, 2 ^ 20].getD kind 0

/-- The component entries of an image. -/
def components (l : List Byte) : List (List Byte) := (List.range (leAt l 6 1)).map fun i => slice (64 + 24 * i) 24 l

/-- SIGNED_LENGTH. -/
def signedLength (l : List Byte) : Nat := leAt l 20 4

/-- Item 1 of R496. -/
def imageShape (l : List Byte) : Bool :=
  let cs := components l
  let kinds := cs.map fun c => leAt c 0 1
  leAt l 0 4 == 0x4657594F && leAt l 4 2 == 1 && 1 ≤ cs.length && cs.length ≤ 8 && leAt l 16 4 ≤ 64 && signedLength l % 256 == 0 &&
  l.length == signedLength l + 2024 && l.length ≤ 2 ^ 25 && [1, 2, 3, 4].all kinds.contains && kinds.eraseDups.length == kinds.length &&
  cs.all fun c => 1 ≤ leAt c 0 1 && leAt c 0 1 ≤ 5 && leAt c 4 4 % 256 == 0 && leAt c 8 4 ≤ componentLimit (leAt c 0 1) &&
    leAt c 4 4 + leAt c 8 4 ≤ signedLength l

/-- Items 3 to 6 of R496 for a file whose signature block stands at `n`, signed with ECDSA slot `e` and LMS slot `m`: the first item
that fails.  LMS_SHA256_M32_H20 has type code 8 and LM-OTS_SHA256_N32_W8 type code 4 in RFC 8554 (notes/assumptions/9). -/
def State.signatureFail (s : State) (l : List Byte) (n e m : Nat) : Option Nat :=
  let b := l.drop n
  let ecdsa := slice 0 97 b
  let lms := slice 196 56 b
  if 4 ≤ e ∨ 4 ≤ m ∨ sha3 ecdsa ≠ s.keyDigest e ∨ sha3 lms ≠ s.keyDigest (4 + m) ∨ s.keyRevoked e ∨ s.keyRevoked (4 + m) then some 3
  else if slice 0 8 lms ≠ zeros 3 ++ leBytes 1 8 ++ zeros 3 ++ leBytes 1 4 then some 4
  else if !Config.ecdsaVerify ecdsa (slice 100 96 b) (l.take n) then some 5
  else if !Config.lmsVerify lms (slice 252 1772 b) (l.take n) then some 6
  else none

/-- The first item of R496 that an image fails. -/
def State.imageFail (s : State) (l : List Byte) : Option Nat :=
  let e := leAt l 56 1
  let m := leAt l 57 1
  if !imageShape l then some 1
  else if sha3 (slice 256 (signedLength l - 256) l) ≠ slice 24 32 l then some 2
  else match s.signatureFail l (signedLength l) e m with
    | some i => some i
    | none =>
      if leAt l 16 4 < s.securityVersion then some 7
      else if (leAt l 7 1).testBit e || (leAt l 7 1).testBit (4 + m) then some 8
      else none

/-- The facts of an image's header. -/
def BankImg.ofBytes (x : FwBank) (l : List Byte) : BankImg :=
  { state := x, build := leAt l 8 4, compat := leAt l 12 4, security := leAt l 16 4, revoke := leAt l 7 1, digest := slice 24 32 l
    length := l.length }

/-- Are two builds compatible (R498)? -/
def compatible (a b : BankImg) : Bool := b.compat ≤ a.build && a.compat ≤ b.build

/-! ### Staging (R497, R507) -/

/-- The update state when nothing is under way: STAGED while the other bank is (R501, R506). -/
def State.updateRest (s : State) : State := s.setUpdate (if s.otherBank.state = .staged then .staged else .idle)

/-- OPEN: the status; the other bank is erased, or a test-pack upload begins. -/
def State.stageOpen (s : State) : State × Nat :=
  match s.boot.update with
  | .activating | .swapping | .rollingBack => (s, stBusy)
  | _ =>
    if s.reg regStageTarget 0 = 1 then
      (((s.wipe uploadKey (uploadKey + 2 ^ 25)).modBoot fun b => { b with target := 1, packLen := 0 }).setUpdate .staging, stOk)
    else
      let b := !s.boot.bootB
      ((((s.wipe (bankKey b) (bankKey b + 2 ^ 25)).modBankImg b fun _ => { BankImg.empty with state := .staging }).modBoot fun x =>
        { x with target := 0 }).setUpdate .staging, stOk)

/-- Bytes of the image at an offset (R497): into the bank in STAGING, or the test-pack upload. -/
def State.stageWrite (s : State) (x : Nat) (l : List Byte) : State :=
  if s.boot.target = 1 ∨ s.boot.recovery then
    (s.write (uploadKey + x) l).modBoot fun b => { b with packLen := max b.packLen (x + l.length) }
  else
    (s.write (bankKey (!s.boot.bootB) + x) l).modBankImg (!s.boot.bootB) fun b => { b with length := max b.length (x + l.length) }

/-- The first check of R392 that a test pack fails, if any: is there one?  The pack names no signer's slots, so each key must be one of
its kind that is fused and not revoked (notes/assumptions/26). -/
def State.packBad (s : State) (l : List Byte) : Bool :=
  let n := leAt l 12 4
  let slots := (List.range 4).flatMap fun e => (List.range 4).map fun m => (e, m)
  leAt l 0 4 != 0x4B50594F || leAt l 4 2 != 1 || l.length != n + 2024 || slots.all (fun x => (s.signatureFail l n x.1 x.2).isSome) ||
  sha3 (slice 64 (n - 64) l) != slice 24 32 l || leAt l 8 4 ≤ s.reg regTestPackVersion 0 || s.bootBank.build < leAt l 16 4

/-- VERIFY of a test pack (R392): installed with event 0x0332, or 0x0333 with the failing check, whose number the spec does not give. -/
def State.packVerify (s : State) : State :=
  let l := s.read uploadKey s.boot.packLen
  let s1 := s.modBoot fun b => { b with target := 0 }
  (if s.packBad l then (s1.supEvent 0x0333 (leBytes 1 (s.free 8).toNat)).nextFree
   else
     ((((s1.modBoot fun b => { b with pack := l }).setReg regTestPackVersion 0 (leAt l 8 4)).setReg regTestPackDigest 0
       (ofLe (slice 24 32 l))).modTests fun t => { t with covered := [] }).supEvent 0x0332 []).updateRest

/-- VERIFY (R497): STAGED with event 0x0701, or FAILED with 0x0702 and the failing item; for a build that is not compatible, which has
no item number, a free byte. -/
def State.stageVerify (s : State) : State × Nat :=
  if s.boot.update ≠ .staging then (s, stAccess)
  else if s.boot.target = 1 then (s.packVerify, stOk)
  else
    let b := !s.boot.bootB
    let l := s.read (bankKey b) s.otherBank.length
    let img := BankImg.ofBytes .staged l
    match s.imageFail l with
    | some i => (((s.modBankImg b fun x => { x with state := .failed }).supEvent 0x0702 (leBytes 1 i)).setUpdate .idle, stOk)
    | none =>
      if compatible img s.bootBank then (((s.modBankImg b fun _ => img).supEvent 0x0701 []).setUpdate .staged, stOk)
      else
        ((((s.modBankImg b fun x => { x with state := .failed }).supEvent 0x0702 (leBytes 1 (s.free 8).toNat)).nextFree).setUpdate .idle,
          stOk)

/-- ABORT (R507): staging ends; a bank in STAGING has failed, as at a power loss (notes/assumptions/26). -/
def State.stageAbort (s : State) : State × Nat :=
  if s.boot.update ≠ .staging then (s, stAccess)
  else
    let s1 := if s.boot.target = 1 then s else s.modBankImg (!s.boot.bootB) fun x => { x with state := .failed }
    ((s1.modBoot fun b => { b with target := 0 }).updateRest, stOk)

/-- STAGE_CHUNK: an offset, then up to 1,024 bytes. -/
def State.stageChunk (s : State) (v : List Byte) : State × Nat :=
  if v.length < 4 ∨ 1028 < v.length then (s, stType)
  else if s.boot.update ≠ .staging then (s, stAccess)
  else if 2 ^ 25 < leAt v 0 4 + (v.length - 4) then (s, stValue)
  else (s.stageWrite (leAt v 0 4) (v.drop 4), stOk)

/-- A write of the staging window is dropped (R530): counted, and event 0x0707 once per second. -/
def State.stageDrop (s : State) : State :=
  let s1 := s.bump regStageDrops 0 1
  let due := match s.boot.dropNoted with
    | none => true
    | some t => t + 1000000000 ≤ s.now
  if due then (s1.modBoot fun b => { b with dropNoted := some s.now }).supEvent 0x0707 [] else s1

/-- A write of the staging window by the PCIe function (R497, R530, R484). -/
def State.stageWindow (s : State) (x : Nat) (l : List Byte) : State :=
  let ok := s.granted targetDict 0x300 0xFF .w [0x8100] && s.granted targetDict 0x300 0xFF .c [0x8100]
  if s.boot.recovery then if x + l.length ≤ 2 ^ 25 then s.stageWrite x l else s
  else if s.boot.update = .staging ∧ ok ∧ x + l.length ≤ 2 ^ 25 then s.stageWrite x l
  else s.stageDrop

/-! ### The retirement map (R19, R490) -/

/-- The spare that a map entry names. -/
def mapSpare (e : Nat × Nat) : Nat := if unitKind e.1 = 1 ∨ unitKind e.1 = 2 then 0 else if unitKind e.1 = 4 then e.2 else 0xFFFF

/-- The units listed: those fused off, then those retired. -/
def State.mapUnits (s : State) : List (Nat × Nat) :=
  let fused := ((List.range 30).filter s.pierFused).map pierUnit ++ ((List.range 24).filter s.towerFused).map towerUnit ++
    ((List.range 8).filter s.portFused).map fun p => unitId 12 (portField p) p
  fused.map (fun u => (u, 0)) ++ s.faults.retired

/-- The governing copy. -/
def State.mapBytes (s : State) : List Byte :=
  let es := s.mapUnits
  let body := (es.map fun e => leBytes 4 e.1 ++ leBytes 2 (mapSpare e) ++ zeros 2).flatten
  let head := leBytes 4 0x4D52594F ++ leBytes 2 1 ++ zeros 2 ++ leBytes 8 s.faults.mapGen ++ leBytes 4 es.length
  head ++ leBytes 4 (crc32 (head ++ body)) ++ body

/-! ### Attestation (R503 to R505) -/

/-- The leaves not yet reserved. -/
def State.leavesLeft (s : State) : Nat := 2 ^ 20 - s.boot.leafEnd

/-- A block of 1,024 leaves is reserved (R504): event 0x0709 when 65,536 remain. -/
def State.reserveLeaves (s : State) : State :=
  let s1 := s.modBoot fun b => { b with leafEnd := min (b.leafEnd + 1024) (2 ^ 20) }
  if 65536 < s.leavesLeft ∧ s1.leavesLeft ≤ 65536 then s1.supEvent 0x0709 [] else s1

/-- A new block from the reserved end on, at bring-up and after a takeover (R504); event 0x070A when no leaf remains (R505). -/
def State.newLeaves (s : State) : State :=
  let s1 := s.modBoot fun b => { b with leafNext := b.leafEnd }
  if s.boot.leafEnd = 2 ^ 20 then s1.supEvent 0x070A [] else s1.reserveLeaves

/-- The 256 signed bytes of a report (R503). -/
def State.reportBytes (s : State) (nonce : List Byte) (q : Nat) : List Byte :=
  leBytes 4 0x5441594F ++ leBytes 2 1 ++ zeros 2 ++ padTo 32 nonce ++ leBytes 8 (leAt s.fuses 0 8) ++ leBytes 4 (leAt s.fuses 8 4) ++
  leBytes 4 s.securityVersion ++ leBytes 4 s.bootBank.build ++ leBytes 4 (s.reg regTestPackVersion 0) ++ padTo 32 s.bootBank.digest ++
  sha3 s.fuses ++ sha3 s.mapBytes ++ leBytes 8 (s.reg regGeneration 0) ++ leBytes 8 s.now ++ leBytes 4 q ++
  leBytes 4 (s.reg regPowerCycles 0) ++ leBytes 4 s.opSeconds ++ zeros 68

/-- May a nonce be written (R505)?  The status. -/
def State.attestStatus (s : State) : Nat :=
  if 2 ^ 20 ≤ s.boot.leafNext then stAccess else if s.reg regAttestTokens 0 = 0 then stBusy else stOk

/-- The report of a nonce (R503 to R505): one token, one leaf; event 0x070A when no leaf remains. -/
def State.attest (s : State) (nonce : List Byte) : State :=
  let s1 := if s.boot.leafEnd ≤ s.boot.leafNext then s.reserveLeaves else s
  let q := s1.boot.leafNext
  let body := s1.reportBytes nonce q
  let report := body ++ padTo 96 (Config.ecdsaSign body) ++ padTo 1772 (Config.lmsSign q body)
  let s2 := ((s1.modBoot fun b => { b with leafNext := q + 1 }).setReg regAttestReport 0 (ofLe report)).setReg regAttestTokens 0
    (s1.reg regAttestTokens 0 - 1)
  (if q + 1 = 2 ^ 20 then s2.supEvent 0x070A [] else s2).vector 5

end Sys2Proof.Machine
end

