-- ==== Sys2Proof/Machine/Checking.lean ====
section
/-! DEFINITION. Weight digests, idle-slot tests, located tests, probes, and the reloads that bring a span back (R382 to R392, R403 to
R413, R587). -/

namespace Sys2Proof.Machine

/-! ### The background digest pass (R384, R385) -/

/-- Is every RESIDENT row of the ACTIVE banks unlocked, so that a pass can end (R384)? -/
def State.passMayEnd (s : State) (f : Nat) : Bool :=
  let t := s.regionTable f
  (residentBanks t).all fun x =>
    let b := (s.field f).bank x.2
    let r := regionRows t x.1
    b.state != .active || !b.locked.any fun q => r.1 ≤ q && q < r.1 + r.2

/-- Does the last digest of region and bank differ from its home digest? -/
def Field.digestDiffers (x : Field) (i : Nat × Nat) : Bool := x.lastDigests.lookup i != x.homeDigests.lookup i

/-- A bank digest differs from its home digest (R385, R584): the event, the count, UNCORR in an open step, a rewrite, and a detection
charged to the pier. -/
def State.digestFails (s : State) (f i b : Nat) : State :=
  let y := (s.field f).bank b
  let s1 := (s.event (pierMaster f) 0x0320
    (leBytes 1 f ++ leBytes 1 i ++ leBytes 1 b ++ zeros 1 ++ leBytes 4 (y.cleanTime / 1000000000))).bump regWeightDigestFails f 1
  ((s1.modBank f b fun z => { z with rewriting := 1 }).reportFail f 0x10).chargePier f (pierUnit f) 0x0320

/-- DIGEST_PASS_END (R384): the banks that are ACTIVE have been digested; every digest is compared with its home digest. -/
def execDigestPassEnd (f : FieldId) (s : State) : Host.Outcome State Fault Refusal :=
  .next (if !s.passMayEnd f then s
    else
      let s1 := (s.keepDigests f fun b => ((s.field f).bank b).state == .active).showDigests f
      let clean (b : Nat) : Bool :=
        let mine := (residentBanks (s.regionTable f)).filter (·.2 == b)
        !mine.isEmpty && mine.all fun x => !(s1.field f).digestDiffers x
      let mark (t : State) (b : Nat) : State := if clean b then t.modBank f b fun y => { y with cleanTime := s.fieldTime f } else t
      let s2 := (residentBanks (s.regionTable f)).foldl (fun t x =>
        if (s1.field f).digestDiffers x && (s1.field f).homeDigests.any (·.1 == x) then t.digestFails f x.1 x.2 else t) s1
      ((List.range 40).foldl mark s2).settle)

/-- The regions of a bank that its rewrite is for. -/
def State.badRegions (s : State) (f b : Nat) : List Nat :=
  (((residentBanks (s.regionTable f)).filter fun x => x.2 == b && (s.field f).digestDiffers x)).map (·.1)

/-- A span stops for good (R54, R385): its open step ends, and its members rest. -/
def State.stopSpan (s : State) (k : Nat) : State :=
  ((s.modSpan k fun p => { p.closed with recovery := [] }).membersRest k).setSpanState k .stopped

/-- WEIGHT_REWRITE_DONE (R385): a rewrite that matches releases the span; one that does not is made again from the mirror half of the HOME
set, and then stops the span. -/
def execWeightRewriteDone (f : FieldId) (b : BankId) (result : ReloadResult) (s : State) : Host.Outcome State Fault Refusal :=
  let y := (s.field f).bank b
  let regions := s.badRegions f b
  .next (if y.rewriting = 0 then s
    else match result with
      | .matches =>
        let s1 := regions.foldl (fun t i => t.reloadBank f i b true) s
        let s2 := s1.modBank f b fun z => { z with rewriting := 0 }
        match s.memberOf f with
        | some k => (s2.tryOpen k).settle
        | none => s2.settle
      | .mismatch =>
        let s1 := regions.foldl (fun t i => t.reloadBank f i b false) s
        if y.rewriting = 1 then s1.modBank f b fun z => { z with rewriting := 2 }
        else
          let s2 := (s1.modBank f b fun z => { z with rewriting := 0 }).event (pierMaster f) 0x0322 []
          match s.memberOf f with
          | some k => (s2.stopSpan k).settle
          | none => s2)

/-! ### Test packs (R391, R392) -/

/-- The PATTERN_IDs of a pack. -/
def packPatterns (pack : List Byte) : List Nat := (List.range (leAt pack 6 2)).map fun i => leAt pack (64 + 32 * i + 12) 4

/-! ### Segments (R388 to R390) -/

/-- May a segment start on a pier by R388?  A pier whose domain is not ON runs no pattern. -/
def State.segmentAllowed (s : State) (f : Nat) : Bool :=
  let x := s.field f
  (x.state == .serving || x.state == .ready) && x.power.state == .on &&
  (x.seq.state == .empty || x.seq.state == .loaded || x.seq.state == .waiting) &&
  match s.spanOf f with
  | none => true
  | some k => (s.span k).state == .ready || ((s.span k).state == .paused && (s.span k).recovery.isEmpty)

/-- Is it the next rerun of a failed pattern, on a pier whose span is held (R390, R395)? -/
def State.rerunAllowed (s : State) (f unit pattern : Nat) : Bool :=
  (s.tests.confirm.any fun c => c.1 == f && c.2.1 < 3) && s.reg regLastTestFail f == unit * 2 ^ 32 + pattern &&
  match s.memberOf f with
  | none => true
  | some k => (s.span k).state != .running

/-- SEGMENT_START (R388): one segment at a time; array and vector patterns count as real work of the array (R102). -/
def execSegmentStart (f : FieldId) (unit : BitVec 8) (pattern : Word32) (s : State) : Host.Outcome State Fault Refusal :=
  let rerun := s.rerunAllowed f unit.toNat pattern.toNat
  .next (if s.tests.segment.isSome ∨ s.reg regTestsEnable 0 = 0 then s
    else if rerun ∨ (s.tests.confirm.isNone ∧ s.segmentAllowed f) then
      let s1 := if rerun then s.fieldTesting f else s
      let s2 := if unit.toNat ≤ 1 then s1.arrayEnter f else s1
      s2.modTests fun t => { t with segment := some (f, unit.toNat, pattern.toNat) }
    else s)

/-- A pattern has run on a pier (R389): when every pattern of the pack has, the coverage ends, clean if every one passed. -/
def State.cover (s : State) (f pattern : Nat) (passed : Bool) : State :=
  let old := (s.tests.covered.lookup f).getD ([], true)
  let now := (if old.1.contains pattern then old.1 else old.1 ++ [pattern], old.2 && passed)
  let all := packPatterns s.boot.pack
  let rest := s.tests.covered.filter (·.1 != f)
  if all ≠ [] ∧ all.all now.1.contains then
    let s1 := s.modTests fun t => { t with covered := rest }
    if now.2 then s1.setReg regTestLastClean f (s.fieldTime f) else s1
  else s.modTests fun t => { t with covered := rest ++ [(f, now)] }

/-- The pauses that a test made on the span of a pier end. -/
def State.testPauseEnds (s : State) (f : Nat) : State :=
  match s.memberOf f with
  | none => s
  | some k => s.modSpan k fun p => { p with pauses := p.pauses.filter (· != .test) }

/-- A segment fails (R390): event, counts, and an occurrence of the unit that the pattern names. -/
def State.segmentFails (s : State) (f unit pattern charged : Nat) : State :=
  let s1 := (((s.supEvent 0x0330 (leBytes 4 pattern ++ leBytes 1 unit ++ leBytes 8 (s.reg regTestLastClean f))).bump regTestFails f 1).setReg regLastTestFail f
    (unit * 2 ^ 32 + pattern))
  if unitExists charged then s1.charge charged 0x0330 else s1

/-- SEGMENT_END (R390). -/
def execSegmentEnd (f : FieldId) (passed : Bool) (charged : Word32) (s : State) : Host.Outcome State Fault Refusal :=
  .next (match s.tests.segment with
    | none => s
    | some (g, unit, pattern) =>
      if g ≠ f then s else
        let s1 := ((s.modTests fun t => { t with segment := none }).bump regTestRuns f 1).cover f pattern passed
        let s2 := if unit ≤ 1 then s1.arrayIdle f else s1
        let s3 := if passed then s2 else s2.segmentFails f unit pattern charged.toNat
        match s.tests.confirm with
        | none =>
          if passed then (s3.testPauseEnds f).settle
          else
            let s4 := s3.modTests fun t => { t with confirm := some (f, 1, 1) }
            let s5 := match s.memberOf f with
              | some k => s4.pauseFor k .test
              | none => s4
            (if (s.memberOf f).any fun k => (s.span k).state == .running then s5 else s5.fieldTesting f).settle
        | some (_, runs, fails) =>
          let n := fails + boolNat (!passed)
          if runs < 2 then s3.modTests fun t => { t with confirm := some (f, runs + 1, n) }
          else
            let s4 := (s3.modTests fun t => { t with confirm := none }).fieldTested f
            let s5 := if n = 1 then s4.supEvent 0x0334 [] else s4
            (s5.testPauseEnds f).settle)

/-- COVERAGE_OVERDUE (R389). -/
def execCoverageOverdue (f : FieldId) (s : State) : Host.Outcome State Fault Refusal :=
  let s1 := (s.supEvent 0x0331 []).bump regCoverageOverdue 0 1
  .next (match s.memberOf f with
    | none => s1
    | some k =>
      let due := match s.tests.lastPause.lookup k with
        | none => true
        | some t => t + 1000000000 ≤ s.now
      if s.reg regTestPause k = 1 ∧ s.reg regTestsEnable 0 = 1 ∧ due = true ∧ ((s.span k).state = .running ∨ (s.span k).state = .ready) then
        (s1.modTests fun t => { t with lastPause := (k, s.now) :: t.lastPause.filter (·.1 != k) }).pauseFor k .test
      else s1)

/-! ### Located tests (R403, R404, R413) -/

/-- Does a located test of R403 or R404, or a test of R413, hold field `f` in TESTING? -/
def State.underTest (s : State) (f : Nat) : Bool :=
  s.faults.located.any (fun u => (testedFields u).contains f) ||
  (List.range 8).any fun k => (s.span k).testing.any fun u => (testedFields u).contains f

/-- The fields that no test holds any more return to the states they left. -/
def State.testsOver (s : State) (u : Nat) : State :=
  (testedFields u).foldl (fun t f => if t.underTest f then t else t.fieldTested f) s

/-- A span waits for no test any more when none of its units is under one. -/
def State.testWaitOver (s : State) (k : Nat) : State :=
  if (s.span k).testing.isEmpty && !s.faults.located.any (fun u => (s.unitSpans u).contains k) then
    s.modSpan k fun p => { p with recovery := p.recovery.filter (· != .test) }
  else s

/-- A located test of an ARRAY_BLOCK or a PATH finds nothing (R403, R404): a block's second time within 24 hours, and a path always, retires
the pier. -/
def State.foundNothing (s : State) (u : Nat) : State :=
  if unitKind u = 3 then
    match s.faults.blocks.lookup u with
    | some t =>
      if s.opSeconds - t ≤ 86400 then s.retireDue (pierUnit (unitField u))
      else s.modFaults fun x => { x with blocks := (u, s.opSeconds) :: x.blocks.filter (·.1 != u) }
    | none => s.modFaults fun x => { x with blocks := (u, s.opSeconds) :: x.blocks }
  else s.retireDue (pierUnit (unitField u))

/-- The located test of a permanent ARRAY_BLOCK or PATH ends (R403, R404). -/
def State.locatedDone (s : State) (u : Nat) (hits : List Nat) : State :=
  let s1 := (s.modFaults fun x => { x with located := x.located.erase u }).testsOver u
  let s2 := (s1.unitSpans u).foldl State.testWaitOver s1
  if hits.isEmpty then s2.foundNothing u
  else hits.foldl State.retireDue (s2.modFaults fun x => { x with blocks := x.blocks.filter (·.1 != u) })

/-- The test of a unit charged in a step of span `k` that failed three times ends (R413): units that fail are retired; once every unit has been
tested and none has failed, the span takes a new epoch. -/
def State.suspectDone (s : State) (u : Nat) (hits : List Nat) (k : Nat) : State :=
  let s1 := s.modSpan k fun p => { p with testing := p.testing.erase u, testHit := p.testHit || !hits.isEmpty }
  let s2 := hits.foldl State.retireDue ((s1.testsOver u).testWaitOver k)
  if (s1.span k).testing.isEmpty && !(s1.span k).testHit then s2.needEpoch k else s2

/-- DIAGNOSTIC_TEST_DONE. -/
def execDiagnosticTestDone (unit : Word32) (found : Findings) (s : State) : Host.Outcome State Fault Refusal :=
  let u := unit.toNat
  let hits := (found.map (·.toNat)).filter unitExists
  .next (if s.faults.located.contains u then (s.locatedDone u hits).settle
    else (((List.range 8).filter fun k => (s.span k).testing.contains u).foldl (fun t k => t.suspectDone u hits k) s).settle)

/-- PROBE_TIMEOUT (R406): the pier is declared permanent at once. -/
def execProbeTimeout (f : FieldId) (s : State) : Host.Outcome State Fault Refusal :=
  .next (if s.faults.probes.contains f.val then
      ((s.modFaults fun x => { x with probes := x.probes.filter (· != f.val) }).declare (pierUnit f) 2 true).settle
    else s)

/-! ### Recoveries (R409, R412, R587) -/

/-- A recovery ends (R50, R52, R409, R412): the epoch counts the migration and the retirements met meanwhile; READY follows once nothing else
holds the span. -/
def State.recoveryDone (s : State) (k : Nat) : State :=
  (((s.newEpoch k 1).bump regRecoveries k 1).recover k).settle

/-- The spare takes the member number of a lost pier (R409). -/
def State.spareTakes (s : State) (k l g : Nat) : State :=
  let p := s.span k
  let no := p.members.findIdx (· == (l / 32, l % 32))
  let x := s.field (l % 32)
  let home := if l / 32 = p.device then x.homeDigests else []
  let s1 := s.modSpan k fun q =>
    { q with members := q.members.map (fun m => if m = (l / 32, l % 32) then (p.device, g) else m), spare := none
             anchor := if l / 32 = p.device ∧ l % 32 = p.anchor then g else p.anchor, lost := q.lost.filter (· != l), recovery := [] }
  let s1 := if l / 32 = p.device then (s1.seqEmpty (l % 32)).fieldServes (l % 32) false else s1
  let s2 := (s1.modField g fun y => { y with homeDigests := home, lastDigests := home }).setReg regHomeDigests g
    (s.reg regHomeDigests (l % 32))
  (s2.setPlacementByte k 5 0xFF).supEvent 0x040B (leBytes 1 k ++ leBytes 1 (l % 32) ++ leBytes 1 g ++ leBytes 1 no)

/-- SPARE_RELOAD_DONE (R409, R587): the spare replaces the lost pier, or a pier that was DARK for heat returns; a mismatch stops the
span. -/
def execSpareReloadDone (sp : SpanId) (result : ReloadResult) (s : State) : Host.Outcome State Fault Refusal :=
  let p := s.span sp
  .next (if !s.supervised then s else match p.state, p.recovery, p.spare, result with
    | .paused, [.spare l], some g, .matches => ((s.spareTakes sp l g).reloadRegions g true).recoveryDone sp
    | .paused, [.spare _], some g, .mismatch => ((s.reloadRegions g false).stopSpan sp).settle
    | .paused, [.field f], _, .matches =>
      ((s.modSpan sp fun q => { q with recovery := [], pauses := q.pauses.filter (· != .heat f) }).reloadRegions f true).landDigests f
        |>.recoveryDone sp
    | .paused, [.field f], _, .mismatch => ((s.reloadRegions f false).stopSpan sp).settle
    | .paused, _, _, _ => s
    | _, _, _, _ => s.ignored sp 9)

/-- The group records of a plan (R357, R412): 48 records from a device address, or none but group 0. -/
def State.planGroups (s : State) (k addr : Nat) : State :=
  let l := if addr = 0 then zeros 1536 else s.peekAny addr 1536
  let s := if addr = 0 then s else s.noteRead addr 1536
  (List.range 48).foldl (fun t j => t.setRegAt regGroup k j (leAt l (32 * j) 32)) s

/-- Plan `i` becomes the placement of span `k` (R412): piers, image, groups, home sets and anchor. -/
def State.installPlan (s : State) (k l i : Nat) (bytes : List Byte) : State :=
  let p := s.span k
  let r := s.plan k i
  let fs := bitList 30 (leAt r 4 4)
  let old := s.placement k
  let place := splice (splice (splice (splice (splice (splice old 0 (slice 4 4 r)) 4 (slice 26 1 r)) 5 (leBytes 1 0xFF)) 8
    (slice 24 2 r)) 16 (slice 8 8 r)) (36 + p.device) (leBytes 1 fs.length)
  let gone := p.piers.filter fun f => !fs.contains f
  let s1 := gone.foldl (fun t f => (t.seqEmpty f).fieldServes f false) s
  let s2 := s1.modSpan k fun q =>
    { q with members := fs.map fun f => (p.device, f), spare := none, anchor := leAt r 26 1, lost := [], recovery := [] }
  let s3 := (s2.setReg regPlacement k (ofLe place)).setReg regNminus1Plans k (ofLe (splice (leBytes 256 (s.reg regNminus1Plans k)) (32 * i)
    (zeros 32)))
  let s4 := fs.foldl (fun t f => (t.fieldServes f true).loadImage f (Image.ofBytes (leAt r 8 8) bytes)) s3
  ((gone ++ fs).foldl State.requestPoint (s4.planGroups k (leAt r 16 8))).supEvent 0x040C (leBytes 1 k ++ leBytes 1 (l % 32) ++ leBytes 1 i ++ leBytes 1 (leAt r 26 1))

/-- PLAN_RELOAD_DONE (R412): a plan whose image R167 refuses is skipped; a mismatch of the reload stops the span. -/
def execPlanReloadDone (sp : SpanId) (result : ReloadResult) (s : State) : Host.Outcome State Fault Refusal :=
  let p := s.span sp
  .next (if !s.supervised then s else match p.state, p.recovery with
    | .paused, [.plan l i] =>
      let a := leAt (s.plan sp i) 8 8
      let s := s.noteImage a
      let head := (s.peek a 256).getD []
      let bytes := if imageBytes head ≤ 262144 then (s.peek a (imageBytes head)).getD [] else []
      match imageRefusal bytes, result with
      | some (n, pc), _ => (((s.noteOutside a (if imageBytes head ≤ 262144 then imageBytes head else 256)).supEvent 0x0A08 (leBytes 1 n ++ leBytes 2 pc)).recoverFrom sp
          (i + 1)).settle
      | none, .matches =>
        let s1 := s.installPlan sp l i bytes
        ((s1.span sp).here.foldl (fun t f => (t.reloadRegions f true).landDigests f) s1).recoveryDone sp
      | none, .mismatch =>
        let s1 := s.installPlan sp l i bytes
        (((s1.span sp).here.foldl (fun t f => t.reloadRegions f false) s1).stopSpan sp).settle
    | .paused, _ => s
    | _, _ => s.ignored sp 9)

end Sys2Proof.Machine
end

