-- ==== Sys2Proof/Machine/Power.lean ====
section
/-! DEFINITION. The power commands: input, regulator cells, contacts, operating points, the cap controller, ALERT, wake-ups and heat
(R458 to R481, R586, R587). -/

namespace Sys2Proof.Machine

/-- The FP32 code of num/den, negative or not (R17). -/
def f32Ratio (neg : Bool) (num den : Nat) : Nat := f32.encode 0 (f32.round neg num den 0)
/-- The FP32 code of thousandths. -/
def f32Milli (v : Int) : Nat := f32Ratio (v < 0) v.natAbs 1000

/-! ### Input (R458, R459) and ALERT (R473) -/

/-- Every pier is driven to OP0 (R459, R473): the cap limit falls to OP0 and piers above it take bubbles until they reach it. -/
def State.alertActs (s : State) : State :=
  let s1 := (List.range 30).foldl (fun t f =>
    if (t.field f).power.state = .on ∧ (t.field f).power.point ≠ 0 then t.modPower f fun p => { p with ownBubble := setBit p.ownBubble 2 }
    else t) s
  s1.setCapLimit 0

/-- ALERT or undervoltage is released: OP0 holds for ALERT_HOLD. -/
def State.alertEnds (s : State) : State :=
  if s.supply.alert ∨ s.supply.undervolt then s
  else if s.reg regAlertHold 0 = 0 then s.powerAll
  else s.modSupply fun p => { p with holding := true }

/-- The data of event 0x010A (R584). -/
def voltageData (kind mv : Nat) : List Byte := leBytes 1 kind ++ zeros 3 ++ leBytes 4 (f32Milli mv)

/-- INPUT_UNDERVOLTAGE (R459). -/
def execInputUndervoltage (millivolts : Word16) (s : State) : Host.Outcome State Fault Refusal :=
  let mv := millivolts.toNat
  .next (if !s.boot.powered ∨ s.supply.undervolt then s
    else (((s.setReg regInputVoltage 0 (f32Milli mv)).modSupply fun p => { p with undervolt := true }).supEvent 0x010A (voltageData 0 mv)).alertActs)

/-- UNDERVOLTAGE_RELEASE (R459). -/
def execUndervoltageRelease (s : State) : Host.Outcome State Fault Refusal :=
  .next (if s.supply.undervolt then (s.modSupply fun p => { p with undervolt := false }).alertEnds else s)

/-- INPUT_OVERVOLTAGE (R459). -/
def execInputOvervoltage (millivolts : Word16) (s : State) : Host.Outcome State Fault Refusal :=
  let mv := millivolts.toNat
  .next (if s.boot.powered then (s.setReg regInputVoltage 0 (f32Milli mv)).supEvent 0x010A (voltageData 1 mv) else s)

/-- POWER_LOSS (R459, R479): the power stage turns off. -/
def execPowerLoss (s : State) : Host.Outcome State Fault Refusal := .next (if s.boot.powered then s.powerOff else s)

/-- ALERT_ASSERT (R473). -/
def execAlertAssert (s : State) : Host.Outcome State Fault Refusal :=
  .next (if !s.boot.powered ∨ s.supply.alert then s
    else (((s.modSupply fun p => { p with alert := true }).supEvent 0x0101 []).bump regAlertCount 0 1).alertActs)

/-- ALERT_RELEASE (R473). -/
def execAlertRelease (s : State) : Host.Outcome State Fault Refusal :=
  .next (if s.supply.alert then ((s.modSupply fun p => { p with alert := false }).supEvent 0x0102 []).alertEnds else s)

/-- ALERT_HOLD_EXPIRY (R473). -/
def execAlertHoldExpiry (s : State) : Host.Outcome State Fault Refusal :=
  .next (if s.supply.holding ∧ !s.supply.alert ∧ !s.supply.undervolt then
      (s.modSupply fun p => { p with holding := false }).powerAll
    else s)

/-! ### Cells, contacts, rails, ageing (R461 to R466) -/

/-- REG_CELL_TRIP (R461, R462). -/
def execRegCellTrip (f : FieldId) (cell : Idx16) (s : State) : Host.Outcome State Fault Refusal :=
  .next (if !s.boot.powered ∨ (s.field f).cellsOut.testBit cell ∨ !s.reachable f then s
    else
      let s1 := (s.modField f fun x => { x with cellsOut := setBit x.cellsOut cell }).supEvent 0x010B []
      let s2 := s1.charge (cellUnit f cell) 0x010B
      (if s2.isRetired (cellUnit f cell) then s2 else s2.cellsApply f cell).settle)

/-- A field is supplied again and starts WAKING (R477, R478). -/
def State.fieldWaking (s : State) (f : Nat) : State :=
  (s.modField f fun x => { x with clock := FieldClock.reset, wakeTries := 0 }).setFieldState f .waking

/-- REG_CELL_RESTART (R461, R478): a field DARK for its VDD_F cells wakes again. -/
def execRegCellRestart (f : FieldId) (cell : Idx16) (s : State) : Host.Outcome State Fault Refusal :=
  let x := s.field f
  .next (if !s.boot.powered ∨ !x.cellsOut.testBit cell ∨ s.isRetired (cellUnit f cell) then s
    else
      let s1 := s.modField f fun y => { y with cellsOut := clearBit y.cellsOut cell }
      if x.state = .dark then (if cell.val < 14 ∨ x.hot then s1 else s1.fieldWaking f)
      else if x.state = .retired then s1
      else (s1.cellsApply f cell).settle)

/-- CONTACT_CHECK (R463): the departure d in 0.1 %, averaged over a second. -/
def execContactCheck (f : FieldId) (g : Fin 24) (departure : BitVec 16) (s : State) : Host.Outcome State Fault Refusal :=
  let l := leBytes 48 (s.reg regContactDeparture f)
  .next (if !s.boot.powered ∨ !s.supply.calibrated then s
    else
      let s1 := s.setReg regContactDeparture f (ofLe (splice l (2 * g) (leBytes 2 departure.toNat)))
      if (s.reg regContactFlags f).testBit g ∨ departure.toInt < 10 * (s.reg regContactThreshold 0 : Int) then s1
      else (s1.setReg regContactFlags f (setBit (s.reg regContactFlags f) g)).event (pierMaster f) 0x0106 [])

/-- CONTACT_CALIBRATION (R463, R486). -/
def execContactCalibration (models : List Word32) (s : State) : Host.Outcome State Fault Refusal :=
  .next (if s.boot.powered ∧ !s.supply.calibrated then
      s.modSupply fun p => { p with calibrated := true, models := models.map (·.toNat) }
    else s)

/-- A rail's number in VMIN (R481). -/
def railNo : Rail → Nat
  | .p => 0 | .m => 1 | .f => 2
/-- The set-point of a rail in mV (R460). -/
def State.railMv (s : State) (f : Nat) : Rail → Nat
  | .p => (s.field f).power.millivolts
  | .m => 800
  | .f => 750

/-- VMIN_SAMPLE (R464): a new minimum is kept with its time; below the set-point less the guard band it records 0x0105, at most once per
minute per rail. -/
def execVminSample (f : FieldId) (rail : Rail) (millivolts : Word16) (s : State) : Host.Outcome State Fault Refusal :=
  let r := railNo rail
  let l := leBytes 48 (s.reg regVmin f)
  let old := leAt l (16 * r) 2
  let mv := millivolts.toNat
  .next (if !s.boot.powered ∨ (old ≠ 0 ∧ old ≤ mv) then s
    else
      let s1 := s.setReg regVmin f (ofLe (splice l (16 * r) (leBytes 2 mv ++ zeros 6 ++ leBytes 8 (s.fieldTime f))))
      let band := if s.reg regGuardBand 0 = 1 then 25 else 50
      let due := match s.supply.vminNoted.lookup (3 * f.val + r) with
        | none => true
        | some t => t + 60000000000 ≤ s.now
      if mv + band < s.railMv f rail ∧ due = true then
        (s1.modSupply fun p => { p with vminNoted := (3 * f.val + r, s.now) :: p.vminNoted.filter (·.1 != 3 * f.val + r) }).event (pierMaster f) 0x0105 []
      else s1)

/-- AGEING_CHECK (R466): the monitors call for a ceiling in MHz. -/
def execAgeingCheck (f : FieldId) (mhz : Word16) (s : State) : Host.Outcome State Fault Refusal :=
  let want := mhz.toNat / 5 * 5
  .next (if !s.boot.powered ∨ s.ceiling f ≤ want then s
    else if want < 760 then (s.retireDue (pierUnit f)).settle
    else ((((s.modPower f fun p => { p with ageCeiling := want }).event (pierMaster f) 0x0109 []).changed).powerUpdate f))

/-! ### Changes of point (R467, R469) -/

/-- VOLTAGE_SLEW_DONE (R467). -/
def execVoltageSlewDone (f : FieldId) (s : State) : Host.Outcome State Fault Refusal :=
  .next (match (s.field f).power.slewTo with
    | none => s
    | some mv => (s.modPower f fun p => { p with millivolts := mv, slewTo := none }).powerUpdate f)

/-- PHASE_HOLD_EXPIRY (R469). -/
def execPhaseHoldExpiry (f : FieldId) (s : State) : Host.Outcome State Fault Refusal :=
  let x := (s.field f).power
  .next (if x.phaseHeld ∧ x.state = .on then (s.modPower f fun p => { p with phaseHeld := false }).pointMove f (s.wantPoint f) else s)

/-! ### The cap controller (R471, R472, R576) -/

/-- A fraction in lowest terms. -/
def fraction (n d : Nat) : Nat × Nat := (n / Nat.gcd n d, d / Nat.gcd n d)

/-- b after an interval: b + GAIN × (P − CAP) / CAP, between 0 and 1/2; P in mW, CAP in W, GAIN in hundredths. -/
def nextBubble (b : Nat × Nat) (gain p cap : Nat) : Nat × Nat :=
  let den := b.2 * (100000 * cap)
  let num : Int := (b.1 : Int) * (100000 * cap : Nat) + (b.2 : Int) * gain * ((p : Int) - (1000 * cap : Nat))
  if num ≤ 0 then (0, 1) else if (den : Int) ≤ 2 * num then (1, 2) else fraction num.toNat den

/-- The cap that the controller works to (R471, R480, R576). -/
def State.capNow (s : State) : Nat :=
  if s.forcedLow then s.supply.capInForce
  else if s.reg regCoolantCap 0 = 1 then s.reg regEffectiveCap 0 else s.reg regPowerCap 0

/-- A pier's VDD_P share at the input at limit `p`, less its present one, in mW as a fraction (R471): point, measured mA, present b. -/
def State.shareChange (s : State) (f p ma : Nat) (b : Nat × Nat) : Int × Nat :=
  let x := (s.field f).power
  if x.state ≠ .on then (0, 1) else
    let q := min p (min (min x.phasePoint x.cellLimit) (min x.thermalLimit x.admissionLimit))
    let vq := s.pointMv f q
    let v := s.pointMv f x.point
    let fq := s.pointMhz f q
    let fp := s.pointMhz f x.point
    let own := x.bubbles b
    -- current at q in mA as num / den
    let amps : Nat × Nat := if s.now < x.onSince + 1000000000 then (1000 * s.pointAmps f q, 1)
      else (ma * fq * vq * own.2, fp * v * (own.2 - own.1))
    -- mA × mV = µW; / 1000 for mW; / 0.90
    ((amps.1 * vq : Nat) - (ma * v * amps.2 : Nat), amps.2 * 900)

/-- Sum of fractions. -/
def fracSum (l : List (Int × Nat)) : Int × Nat := l.foldl (fun a x => (a.1 * x.2 + x.1 * a.2, a.2 * x.2)) (0, 1)

/-- Is estimate(p) at most 0.95 × CAP (R471)? -/
def State.estimateFits (s : State) (p mw cap : Nat) (ma : List Nat) (b : Nat × Nat) : Bool :=
  let t := fracSum ((List.range 30).map fun f => s.shareChange f p (ma.getD f 0) b)
  100 * ((mw : Int) * t.2 + t.1) ≤ 95 * (1000 * cap : Nat) * t.2

/-- Bubbles of an interval of 10 µs at a pier (R472): the nearest whole number below or above. -/
def State.countBubbles (s : State) (f : Nat) (b : Nat × Nat) : State :=
  let x := s.field f
  let own := x.power.bubbles b
  let n := x.clock.aclk / 100 * own.1
  if x.power.state ≠ .on ∨ own.1 = 0 then s
  else if n % own.2 = 0 then s.bump regBubbleCycles f (n / own.2)
  else (s.bump regBubbleCycles f (n / own.2 + (s.free 1).toNat)).nextFree

/-- CAP_CONTROL_INTERVAL (R471): P_in of the interval in mW and the piers' measured VDD_P currents in mA. -/
def execCapControlInterval (milliwatts : Word32) (pierMilliamps : List Word32) (s : State) : Host.Outcome State Fault Refusal :=
  let p := milliwatts.toNat
  let ma := pierMilliamps.map (·.toNat)
  let cap := s.capNow
  let b := nextBubble s.supply.bubble (s.reg regCapGain 0) p cap
  .next (if !s.boot.powered then s
    else
      let above := if b.2 < 5 * b.1 then s.supply.above + 1 else 0
      let idle := if b.1 = 0 ∧ !s.forcedLow then s.supply.zero + 1 else 0
      let s1 := s.modSupply fun x =>
        { x with bubble := b, capInForce := cap, above := if above = 100 then 0 else above, zero := if idle = 1000 then 0 else idle
                 energy := x.energy + 10 * p }
      let s2 := (s1.setReg regInputPower 0 (f32Milli p)).setReg regBubbleFraction 0 (f32Ratio false b.1 b.2)
      let s3 := (List.range 30).foldl (fun t f =>
        (t.setReg regRailCurrent f (ofLe (splice (leBytes 12 (t.reg regRailCurrent f)) 0 (leBytes 4 (f32Milli (ma.getD f 0)))))).countBubbles f
          s.supply.bubble) s2
      let limit := s.reg regCapLimit 0
      if above = 100 ∧ 0 < limit then ((s3.supEvent 0x0104 []).bump regCapLowerings 0 1).setCapLimit (limit - 1)
      else if idle = 1000 ∧ limit < 7 ∧ s3.estimateFits (limit + 1) p cap ma b then s3.setCapLimit (limit + 1)
      else s3)

/-! ### Turning piers on (R474 to R476) -/

/-- The current of a zone is measured. -/
def State.zoneMeasured (s : State) (f ma : Nat) : State := s.modSupply fun p => { p with zones := p.zones.set (zoneOf f) ma }

/-- ADMISSION_CHECK (R476). -/
def execAdmissionCheck (f : FieldId) (zoneMilliamps : Word32) (s : State) : Host.Outcome State Fault Refusal :=
  let s1 := s.zoneMeasured f zoneMilliamps.toNat
  .next (if (s.field f).power.state = .deferred ∧ s1.admits f zoneMilliamps.toNat then s1.pierStaging f else s1)

/-- ADMISSION_TIMEOUT (R474, R476): the pier wakes limited to OP0. -/
def execAdmissionTimeout (f : FieldId) (s : State) : Host.Outcome State Fault Refusal :=
  .next (if (s.field f).power.state = .deferred then
      ((s.modPower f fun p => { p with admissionLimit := 0 }).event (pierMaster f) 0x0108 []).pierStaging f
    else s)

/-- ADMISSION_RECHECK (R476): the highest point above the limit that passes becomes the limit. -/
def execAdmissionRecheck (f : FieldId) (zoneMilliamps : Word32) (s : State) : Host.Outcome State Fault Refusal :=
  let s1 := s.zoneMeasured f zoneMilliamps.toNat
  let x := (s.field f).power
  let open7 := s1.modPower f fun p => { p with admissionLimit := 7 }
  let want := open7.wantPoint f
  let fits (p : Nat) : Bool :=
    x.admissionLimit < p && zoneMilliamps.toNat * 10800 + s1.zoneReserved f + s.wakeAt f p ≤ 90000 * 10800
  .next (if x.state ≠ .on ∨ 7 ≤ x.admissionLimit then s1
    else match ((List.range (want + 1)).reverse).find? fits with
      | none => s1
      | some p => (s1.modPower f fun y => { y with admissionLimit := if p = want then 7 else p }).powerUpdate f)

/-- A pier is ON (R160, R474): its requested bank states return, once BIST has put them there (R493); the array starts at the running level
1, and a span held for its heat goes on. -/
def State.pierOn (s : State) (f : Nat) : State :=
  let s1 := (s.setPierPower f .on).modPower f fun p =>
    { p with stage := 0, reserved := 0, onSince := s.now
             ownBubble := if s.forcedLow ∧ p.point ≠ 0 then setBit p.ownBubble 2 else p.ownBubble }
  let s2 := (s1.modArray f fun _ => ArrayS.reset).banksWake f
  let s2 := (if s.boot.step < 9 then s2 else s2.banksPending f (s.spanOf f).isSome).powerUpdate f
  match s2.memberOf f with
  | none => s2
  | some k =>
    if (s2.span k).recovery.contains (.field f) then s2
    else (s2.modSpan k fun p => { p with pauses := p.pauses.filter (· != .heat f) }).settle

/-- PIER_STAGE_DONE (R475): a stage of the turn-on ends; the drawbridge of R586 comes first. -/
def execPierStageDone (f : FieldId) (s : State) : Host.Outcome State Fault Refusal :=
  let x := (s.field f).power
  .next (if x.state ≠ .staging ∨ x.drawTo.isSome then s
    else if x.stage < 3 then s.modPower f fun p => { p with stage := p.stage + 1 }
    else s.pierOn f)

/-! ### Heat (R477, R587) -/

/-- A pier at PIER_OFF_TEMP (R477): bubbles, a pause of its span, and HEAT_OFF once no step is open. -/
def State.heatOff (s : State) (f : Nat) : State :=
  let s1 := s.modPower f fun p => { p with heatPending := true, ownBubble := setBit p.ownBubble 1 }
  match s.memberOf f with
  | none => s1.pierHeatOff f
  | some k => match (s.span k).state with
    | .running => s1.markPause k (.heat f)
    | .ready => s1.pauseNow k (.heat f)
    | .paused => (s1.pierHeatOff f).markPause k (.heat f)
    | _ => s1.pierHeatOff f

/-- The thermal limit falls by one point, at most once per ms (R477). -/
def State.throttle (s : State) (f : Nat) : State :=
  let x := (s.field f).power
  let due := match x.throttled with
    | none => true
    | some t => t + 1000000 ≤ s.now
  if due = true ∧ 0 < x.thermalLimit then
    ((s.modPower f fun p => { p with thermalLimit := p.thermalLimit - 1, throttled := some s.now }).event (pierMaster f) 0x0901 []).powerUpdate f
  else s

/-- JUNCTION_SAMPLE (R477): the hottest sensor of a field, in m°C. -/
def execJunctionSample (f : FieldId) (millidegrees : Word32) (s : State) : Host.Outcome State Fault Refusal :=
  let t := millidegrees.toInt
  .next (if !s.boot.powered ∨ (s.field f).state = .retired then s
    else
      let s1 := (s.setReg regJunctionTemp f (f32Milli t)).modPower f fun p => { p with junction := t }
      if !s.reachable f then s1
      else if 120000 ≤ t then
        ((((s1.event (pierMaster f) 0x0905 []).modField f fun x => { x with hot := true }).fieldDarkHeat f).rerouted).settle
      else
        let s2 := if (s.reg regThrottleTemp 0 : Int) * 1000 ≤ t then s1.throttle f else s1
        let x := (s2.field f).power
        if (s.reg regPierOffTemp 0 : Int) * 1000 ≤ t ∧ x.state = .on ∧ !x.heatPending then (s2.heatOff f).settle else s2)

/-- THERMAL_RELEASE (R477): a pier in HEAT_OFF wakes below 90 °C; otherwise the thermal limit rises by one point. -/
def execThermalRelease (f : FieldId) (s : State) : Host.Outcome State Fault Refusal :=
  let x := (s.field f).power
  .next (if x.state = .heatOff ∧ x.junction < 90000 then (s.event (pierMaster f) 0x0904 []).pierWake f
    else if x.thermalLimit < 7 ∧ x.junction < ((s.reg regThrottleTemp 0 : Int) - 5) * 1000 then
      (s.modPower f fun p => { p with thermalLimit := p.thermalLimit + 1, throttled := none }).powerUpdate f
    else s)

/-- Is a pause one for the heat of a pier? -/
def PauseReason.heatOf : PauseReason → Option Nat
  | .heat f => some f
  | _ => none

/-- HEAT_KEYSTONE_TIMEOUT (R477): the span pauses now, and the open attempt aborts. -/
def execHeatKeystoneTimeout (sp : SpanId) (s : State) : Host.Outcome State Fault Refusal :=
  let p := s.span sp
  .next (match p.state, p.pauses.filterMap PauseReason.heatOf with
    | .running, f :: _ => ((s.pauseNow sp (.heat f)).abortQuorum sp).settle
    | _, _ => s)

/-- HEAT_SWAP_EXPIRY (R477, R587): the span goes on without the pier, which is not retired. -/
def execHeatSwapExpiry (f : FieldId) (s : State) : Host.Outcome State Fault Refusal :=
  .next (match s.memberOf f with
    | none => s
    | some k =>
      let p := s.span k
      if s.reg regHeatSwap 0 ≠ 0 ∧ p.state = .paused ∧ p.pauses.contains (.heat f) ∧ !p.recovery.contains (.field f) ∧
          ((s.field f).power.state = .heatOff ∨ (s.field f).power.state = .off) then
        let s1 := (s.modSpan k fun q => { q with pauses := q.pauses.filter (· != .heat f), recovery := q.recovery.filter (· != .field f) })
        ((s1.event (pierMaster f) 0x0903 []).loseMember k p.device f).settle
      else s)

/-- FIELD_HEAT_RELEASE (R477). -/
def execFieldHeatRelease (f : FieldId) (s : State) : Host.Outcome State Fault Refusal :=
  let x := s.field f
  .next (if x.state = .dark ∧ x.hot ∧ s.boot.powered then
      let s1 := (s.modField f fun y => { y with hot := false }).event (pierMaster f) 0x0906 []
      if x.cellsGood 14 2 = 0 then s1 else s1.fieldWaking f
    else s)

/-- A field that its span waits for is up (R587): the pier wakes, its image is loaded, its RESIDENT regions are to be reloaded. -/
def State.fieldBack (s : State) (f k : Nat) : State :=
  let l := s.placement k
  let bytes := s.imageAt (leAt l 16 8)
  let s1 := s.pierWake f
  match imageRefusal bytes with
  | some (n, pc) => s1.supEvent 0x0A08 (leBytes 1 n ++ leBytes 2 pc)
  | none => (s1.loadImage f (Image.ofBytes (leAt l 16 8) bytes)).modSpan k fun p => { p with recovery := p.recovery ++ [.field f] }

/-- FIELD_UP (R478, R587): READY, or SERVING when a placement names the pier. -/
def execFieldUp (f : FieldId) (s : State) : Host.Outcome State Fault Refusal :=
  let x := s.field f
  .next (if x.state ≠ .waking ∨ x.restarting then s
    else
      let fresh := s.boot.update = .activating ∨ s.boot.update = .swapping
      let s1 := (s.modField f fun y => { y with wakeTries := 0, newBuild := fresh }).setFieldState f
        (if (s.spanOf f).isSome then .serving else .ready)
      let s2 := s1.rerouted
      if s.boot.step < 5 then s2
      else match s.memberOf f with
        | some k =>
          if (s.span k).pauses.contains (.heat f) ∧ (s.span k).state = .paused then s2.fieldBack f k
          else if s.reg regPierPowerRequest f = 0 then s2.pierWake f else s2
        | none => if s.reg regPierPowerRequest f = 0 then s2.pierWake f else s2)

/-- FIELD_WAKE_TIMEOUT (R478): an occurrence of the FIELD; one retry, then DARK. -/
def execFieldWakeTimeout (f : FieldId) (s : State) : Host.Outcome State Fault Refusal :=
  let x := s.field f
  .next (if x.state ≠ .waking ∨ x.restarting then s
    else
      let s1 := s.chargeOpen (fieldUnit f)
      if (s1.field f).state = .retired then s1.settle
      else if x.wakeTries = 0 then s1.modField f fun y => { y with wakeTries := 1 }
      else ((s1.modField f fun y => { y with wakeTries := 0 }).fieldDark f).settle)

/-- TOWER_DIE_TEMPERATURE_SAMPLE (R477). -/
def execTowerDieTemperatureSample (t : TowerId) (millidegrees : Word32) (s : State) : Host.Outcome State Fault Refusal :=
  let v := millidegrees.toInt
  let x := s.tower t
  .next (if !s.boot.powered then s
    else
      let s1 := (s.setReg regTemperature t (f32Milli v)).modTower t fun y =>
        { y with refresh2 := if 95000 ≤ v then true else if v < 90000 then false else y.refresh2
                 half := if 105000 ≤ v then true else if v < 100000 then false else y.half }
      let s2 := if 95000 ≤ v ∧ !x.refresh2 then s1.supEvent 0x0907 [] else s1
      if 105000 ≤ v ∧ !x.half then s2.supEvent 0x0908 [] else s2)

/-- PERSIST_COUNTS (R479). -/
def execPersistCounts (s : State) : Host.Outcome State Fault Refusal := .next (if s.boot.powered then s.persist else s)

end Sys2Proof.Machine
end

