-- ==== Sys2Proof/Machine/Bringup.lean ====
section
/-! DEFINITION. Bring-up from power-good to full readiness: fuses, the retirement map, piers, channels, ports, BIST and the rounds of the
memory test (R5, R19, R272, R273, R407, R482 to R493, R571). -/

namespace Sys2Proof.Machine

/-! ### Step 2: fuses and the retirement map (R5, R407, R484, R487, R488) -/

/-- Do the counts of the fuse map agree with PART (R488)? -/
def State.partAgrees (s : State) : Bool :=
  leAt s.fuses 8 1 == 30 - popCount 30 (leAt s.fuses 12 4) && leAt s.fuses 9 1 == 24 - popCount 24 (leAt s.fuses 16 4) &&
  leAt s.fuses 10 1 == 8 - popCount 8 (leAt s.fuses 20 1)

/-- Are the channels, links and lanes of the map trained and tested again (R407)? -/
def testedAgain (u : Nat) : Bool := unitKind u == 9 || unitKind u == 10 || unitKind u == 11

/-- The map is built from the fuses alone (R491): what it listed and the counts that come from it go. -/
def State.mapBlank (s : State) : State :=
  let s1 := (s.modFaults fun x => { x with retired := [] }).modBoot fun b => { b with mapLost := true }
  ((List.range 30).foldl (fun t f =>
    (((t.setReg regGirderSpares f 0).setReg regSpareRowsUsed f 0).setReg regRegCellsRetired f 0).setReg regPierStatus f 0) s1).supEvent
      0x0B14 []

/-- The map is read (R490, R491): a copy found bad is not valid, and the newer valid one governs. -/
def State.mapRead (s : State) (badA badB : Bool) : State :=
  let keep (bad : Bool) (c : Option MapCopy) : Option MapCopy := if bad then none else c
  let s1 := s.modBoot fun b => { b with mapA := keep badA b.mapA, mapB := keep badB b.mapB, mapLost := false }
  match (if s1.boot.olderA then s1.boot.mapB else s1.boot.mapA).orElse fun _ => s1.boot.mapA with
  | some c => s1.modFaults fun x => { x with retired := c.units, mapGen := c.gen }
  | none => s1.mapBlank

/-- Is the pier of a field graded good and not retired (R5)? -/
def State.pierGood (s : State) (f : Nat) : Bool := !s.pierFused f && !s.isRetired (fieldUnit f) && !s.isRetired (pierUnit f)

/-- What the fuses and the map say of a field. -/
def State.fieldLoad (s : State) (f : Nat) : State :=
  let gone := s.isRetired (fieldUnit f)
  let power : PierPower := if s.pierFused f then .fused else if s.pierGood f then .off else .retired
  let no := if s.pierGood f then ((List.range f).filter s.pierGood).length else 0xFF
  let s1 := s.modField f fun x =>
    { x with state := if gone then .retired else .dark, logical := no, power := { x.power with state := power }
             cellsOut := s.reg regRegCellsRetired f, coresReset := s.deadCores f }
  if s.pierFused f then s1.setReg regPierStatus f 3 else if s.pierGood f then s1 else s1.setReg regPierStatus f 2

/-- What they say of a channel. -/
def State.channelLoad (s : State) (c : Nat) : State :=
  let t := c / 8
  let st : ChannelState := if s.towerFused t then .fused
    else if s.isRetired (towerUnit t) || s.isRetired (fieldUnit (towerField t)) then .retired else .off
  s.modChannel c fun x => { x with state := st }

/-- What they say of a spanlink port. -/
def State.portLoad (s : State) (p : Nat) : State :=
  let st : PortState := if s.portFused p then .fused
    else if s.isRetired (unitId 12 (portField p) p) || s.isRetired (fieldUnit (portField p)) then .retired else .off
  s.modLink p fun x => { x with state := st }

/-- Links of the routers of retired fields stand retired (R405); a detour table is due for them. -/
def State.meshLoad (s : State) : State :=
  let dead (r : Nat) : Bool := s.isRetired (fieldUnit (routerField r))
  let link (r d : Nat) (x : LinkState) : LinkState :=
    if x = .absent then .absent else if dead r || dead (neighbour r d) then .retired else x
  let s1 := s.modMesh fun m => { m with routers := m.routers.mapIdx fun r x => { x with links := x.links.mapIdx (link r) } }
  if (List.range 30).any fun f => s.isRetired (fieldUnit f) then s1.rerouted else s1

/-- Supervisors of retired fields stop (R484). -/
def State.supervisorsLoad (s : State) : State :=
  let a := s.isRetired (fieldUnit 0)
  let b := s.isRetired (fieldUnit 29)
  s.modCtl fun c => { c with activeB := if a then true else if b then false else c.activeB, standby := c.standby && !a && !b }

/-- Step 2: the fuses are read and the map applied. -/
def State.mapLoad (s : State) : State :=
  let s1 := s.modFaults fun x => { x with retired := x.retired.filter fun e => !testedAgain e.1 }
  let s2 := (List.range 30).foldl State.fieldLoad s1
  let s3 := (List.range 8).foldl State.portLoad ((List.range 192).foldl State.channelLoad s2)
  let s4 := [12, 17].foldl (fun t f =>
    if t.isRetired (fieldUnit f) then
      (List.range 4).foldl (fun u i => u.modEth ((if f = 12 then 0 else 4) + i) fun x => { x with state := .fault }) t
    else t) s3
  let s5 := (List.range 16).foldl (fun t k =>
    if (t.setDesc k).valid then (t.modSet k fun _ => { state := .untested, filled := [] }).setTested k else t) s4
  (s5.meshLoad.supervisorsLoad).modBoot fun b => { b with fastMode := s.reg regStartMode 0 == 1 }

/-! ### The rounds of the memory test (R272, R273) -/

/-- Does a tower wait for its test? -/
def State.towerWaits (s : State) (t : Nat) : Bool :=
  (towerChannels t).any (fun c => (s.channel c).state == .testing) && (s.tower t).result == 0

/-- The towers that hold HOME sets of the saved map. -/
def State.homeTower (s : State) (t : Nat) : Bool :=
  (List.range 16).any fun k => (s.setDesc k).valid && (s.setDesc k).home && bits (s.setDesc k).chans (8 * t) 8 != 0

/-- The next round, once no tower is under test: at most four towers of each edge; in the first, those of HOME sets before others. -/
def State.nextRound (s : State) : State :=
  if (List.range 24).any fun t => (s.tower t).result == 3 then s else
    let wait := (List.range 24).filter s.towerWaits
    let first := (List.range 24).all fun t => (s.tower t).result == 0
    let order := if first then wait.filter s.homeTower ++ wait.filter (!s.homeTower ·) else wait
    let round := (order.filter (· < 12)).take 4 ++ (order.filter (12 ≤ ·)).take 4
    round.foldl (fun u t => u.modTower t fun x => { x with result := 3 }) s

/-! ### The ends of the steps (R482) -/

/-- Step `n` has ended: event 0x0B10, and the next step begins. -/
def State.stepEnded (s : State) (n : Nat) : State := (s.supEvent 0x0B10 (leBytes 1 n)).modBoot fun b => { b with step := n + 1 }

/-- Supervisor firmware runs (R431, R482, R504). -/
def State.firmwareRuns (s : State) (flash : FlashFinding) : State :=
  ((s.recorderStarts flash.header (flash.bad.map fun b => (b.1.toNat, b.2.toNat))).newLeaves).stepEnded 1

/-- The ROM boots the other bank (R484): it is ACTIVE, and the refused one has failed (notes/assumptions/26). -/
def State.bootOther (s : State) : State :=
  let b := s.boot.bootB
  ((s.modBankImg b fun x => { x with state := .failed }).modBankImg (!b) fun x => { x with state := .active }).modBoot fun x =>
    { x with bootB := !b }

/-- RECOVERY (R484): an uploaded image that verifies is written to bank A, which is the boot bank; event 0x0702. -/
def State.recovered (s : State) (flash : FlashFinding) : State :=
  let l := s.read uploadKey s.boot.packLen
  if (s.imageFail l).isSome then s
  else
    let s1 := (s.wipe (bankKey false) (bankKey false + 2 ^ 25)).write (bankKey false) l
    let s2 := (s1.modBankImg false fun _ => BankImg.ofBytes .active l).modBankImg true fun x =>
      if x.state = .active then { x with state := .failed } else x
    ((s2.modBoot fun b => { b with recovery := false, bootB := false, packLen := 0 }).firmwareRuns flash).supEvent 0x0702 []

/-- The fuses are read (R487, R488): a word that cannot be read, or counts that disagree with PART, is a fuse fault. -/
def State.fusesRead (s : State) (unreadable : Bool) : State :=
  if unreadable ∨ !s.partAgrees then (s.modBoot fun x => { x with fuseFault := true }).supEvent 0x0B13 [] else s

/-- Step 2 ends: the map is read and applied. -/
def State.mapsApplied (s : State) (badA badB : Bool) : State := ((s.mapRead badA badB).mapLoad).stepEnded 2

/-- Step 3: the timebase runs from 0, and every field leaves DARK (R447, R478). -/
def State.fieldsWake (s : State) : State :=
  let s1 := s.modClocks fun c => { c with time := 0, frac := 0, running := true }
  (List.range 30).foldl (fun t f => if (t.field f).state = .dark ∧ 0 < (t.field f).cellsGood 14 2 then t.fieldWaking f else t) s1

/-- Step 4 has ended: fields that are still WAKING are READY; then the piers turn on and the tower channels and the Ethernet ports train,
unless a fuse fault stops bring-up (R475, R482, R484, R541). -/
def State.piersWake (s : State) : State :=
  let s1 := (List.range 30).foldl (fun t f => if (t.field f).state = .waking then t.setFieldState f .ready else t) s
  if s.boot.fuseFault then s1
  else
    let wake (t : State) (f : Nat) : State :=
      if (t.field f).state = .ready ∧ t.reg regPierPowerRequest f = 0 then t.pierWake f else t
    let train (t : State) (c : Nat) : State :=
      let up := (t.field (channelField c)).state
      if (t.channel c).state = .off ∧ up ≠ .dark ∧ up ≠ .retired then t.setChannelState c .training else t
    let eth (t : State) (e : Nat) : State :=
      let up := (t.field (ethField e)).state
      if up ≠ .dark ∧ up ≠ .retired then t.modEth e fun x => { x with state := t.ethRest e } else t
    (List.range 8).foldl eth ((List.range 192).foldl train ((List.range 30).foldl wake s1))

/-- Step 7 begins: the spanlink ports train (R492). -/
def State.portsTrain (s : State) : State :=
  (List.range 8).foldl (fun t p =>
    let up := (t.field (portField p)).state
    if (t.link p).state = .off ∧ up ≠ .dark ∧ up ≠ .retired then t.setPortState p .training else t) s

/-- Step 7 ends: a port whose peer has not answered leaves it untrained (R492). -/
def State.portsLeft (s : State) : State :=
  (List.range 8).foldl (fun t p => if (t.link p).state = .training then t.setPortState p .off else t) s

/-- Step 8 ends: units that failed are retired, and a map built from the fuses is written to both copies; every row is unwritten, and each bank of a pier that is ON is in its
requested state (R491, R493). -/
def State.bistDone (s : State) (failed : List Nat) : State :=
  let s1 := (failed.filter unitExists).foldl State.retireUnit s
  let rest (t : State) (f : Nat) : State :=
    let p := (t.field f).power.state
    if p = .fused ∨ p = .retired then t
    else
      let t1 := t.wipe (scratchKey f 0 0) (scratchKey f 40 0)
      if p ≠ .on then t1
      else t1.modField f fun x => { x with banks := x.banks.mapIdx fun b y =>
        { y with state := bankStateOf (t.bankRequest f b), locked := [], queue := [], scrubbing := false, scrubRow := 0 } }
  let s2 := (List.range 30).foldl rest s1
  if s2.boot.mapLost then
    let s3 := s2.modFaults fun x => { x with mapGen := x.mapGen + 1 }
    let c : MapCopy := ⟨s3.faults.mapGen, s3.faults.retired⟩
    s3.modBoot fun b => { b with mapA := some c, mapB := some c, mapLost := false }
  else s2

/-- Step 9 ends: full readiness (R485). -/
def State.fullReady (s : State) : State :=
  (((s.modBoot fun b => { b with full := true }).supEvent 0x0B12 []).setReg regReadyTime 0 s.now).serveAll.settle

/-- BRINGUP_STEP_DONE. -/
def execBringupStepDone (report : StepReport) (s : State) : Host.Outcome State Fault Refusal :=
  let b := s.boot
  .next (if !b.powered ∨ (b.fuseFault ∧ 5 ≤ b.step) then s
    else (match b.step, report.found with
      | 1, .good => if b.recovery then s.recovered report.flash else s.firmwareRuns report.flash
      | 1, .otherBank => if b.recovery then s else s.bootOther.firmwareRuns report.flash
      | 1, .bothRefused => if b.recovery then s else s.modBoot fun x => { x with recovery := true, packLen := 0 }
      | 2, .good => (s.fusesRead false).mapsApplied false false
      | 2, .fuseUnreadable => (s.fusesRead true).mapsApplied false false
      | 2, .maps badA badB => (s.fusesRead false).mapsApplied badA badB
      | 3, .good => s.fieldsWake.stepEnded 3
      | 4, .good => (s.stepEnded 4).piersWake
      | 5, .good => s.stepEnded 5
      | 6, .good => (s.stepEnded 6).portsTrain
      | 7, .good => s.portsLeft.stepEnded 7
      | 8, .good => ((s.bistDone []).stepEnded 8).nextRound.fastCheck.serveAll.settle
      | 8, .units l => ((s.bistDone (l.map BitVec.toNat)).stepEnded 8).nextRound.fastCheck.serveAll.settle
      | 9, .good => if (List.range 24).any (fun t => (s.tower t).result == 3) then s else (s.stepEnded 9).fullReady
      | _, _ => s).showPins s)

/-- POWER_GOOD (R482, R506, R571): step 1 begins, and the power-cycle count rises. -/
def execPowerGood (s : State) : Host.Outcome State Fault Refusal :=
  .next (if s.boot.powered then s
    else
      let s1 := s.modBoot fun b =>
        { b with powered := true, step := 1, update := if s.otherBank.state = .staged then .staged else .idle }
      ((s1.bump regPowerCycles 0 1).persist).showPins s)

/-- SPANLINK_RETRY (R492, R559): a port that is OFF in service trains. -/
def execSpanlinkRetry (p : LinkId) (s : State) : Host.Outcome State Fault Refusal :=
  let up := (s.field (portField p)).state
  .next (if s.boot.powered ∧ 8 ≤ s.boot.step ∧ (s.link p).state = .off ∧ up ≠ .dark ∧ up ≠ .retired then s.setPortState p .training else s)

end Sys2Proof.Machine
end

