-- ==== Sys2Proof/Machine/Transfers.lean ====
section
/-! DEFINITION. The turn unit, the fetch engine, SEND and RECV, and multicast windows (R153, R179 to R184, R193, R305 to R310). -/

namespace Sys2Proof.Machine

/-! ### The turn unit (R153, R154, R179) -/

/-- Rows `n` from a source copied to a destination: rows of a destination that lies ahead inside the source depend on timing that the spec
leaves open (R143; notes/assumptions/18). -/
def State.copyRows (s : State) (f src dst n : Nat) : State :=
  let d := (dst + 2 ^ 22 - src) % 2 ^ 22
  let clash := d != 0 && d < n
  let rows := (List.range n).map fun i =>
    if clash && d ≤ i then leBytes 512 (Config.freeValue (s.freeCount + i) 4096).toNat else s.row f (rowAfter src i)
  let s1 := { s with freeCount := s.freeCount + (if clash then n else 0) }
  (List.range n).foldl (fun t i => t.tagRows f [rowAfter dst i] (s.scalesAt f (rowAfter src i))) (s1.putRows f dst rows.flatten)

/-- MOVE.COPY. -/
def execMoveCopy (h : Hdr) (count : BitVec 12) (src dst : Opnd) (s : State) : Host.Outcome State Fault Refusal :=
  let f := h.field.val
  let n := count.toNat + 1
  .next (s.issue h (moveWord 0 h count 0 (opndWord src) dst) (some .turn) fun t =>
    let a := t.opnd f src
    let b := t.opnd f dst
    t.withRows f [a, b] (rowsFrom a n ++ rowsFrom b n) fun u => (u.copyRows f a b n).launch h .turn 3 0 [])

/-- Scratchpad rows of one tile (R153). -/
def tileRows (esize : Nat) : Nat := [1, 2, 4, 8].getD esize 1
/-- Bits of an element (R179). -/
def tileBits (esize : Nat) : Nat := [4, 8, 16, 32].getD esize 4

/-- Element `e` of a tile of elements of `b` bits. -/
def tileElem (b : Nat) (l : List Byte) (e : Nat) : Nat := ofLe l / 2 ^ (b * e) % 2 ^ b

/-- The XOR of the elements of row `i` of a tile. -/
def tileRowXor (b : Nat) (l : List Byte) (i : Nat) : Nat := (List.range 32).foldl (fun x j => x ^^^ tileElem b l (32 * i + j)) 0

/-- The XOR of the elements of column `i` of a tile. -/
def tileColXor (b : Nat) (l : List Byte) (i : Nat) : Nat := (List.range 32).foldl (fun x j => x ^^^ tileElem b l (32 * j + i)) 0

/-- The turn check (R374): row `i` of the source tile and column `i` of the destination tile have one XOR, for every `i`. -/
def turnGood (b : Nat) (src dst : List Byte) : Bool := (List.range 32).all fun i => tileRowXor b src i == tileColXor b dst i

/-- What the turn unit writes for tile `t`: the transpose, and what it got wrong. -/
def turnTile (b t : Nat) (faults : List TurnFault) (src : List Byte) : List Byte :=
  leBytes (128 * b) ((faults.filter fun x => x.tile.toNat == t).foldl (fun n x =>
    n ^^^ x.bits.toNat % 2 ^ b * 2 ^ (b * (32 * x.row + x.col))) (ofLe (transposeTile b src)))

/-- MOVE.TURN.  DESIGN CHOICE: tiles are transposed one after another, in order, so that a tile may read rows that an earlier one has written, and
the rows of a tile that pass the last row of a bank go on in the next bank (R153, R154; notes/assumptions/74); each tile that the turn check finds bad reports
CHECKSUM (R374, R375). -/
def execMoveTurn (h : Hdr) (count : BitVec 12) (esize : Fin 4) (src dst : Opnd) (faults : List TurnFault) (s : State) :
    Host.Outcome State Fault Refusal :=
  let f := h.field.val
  let k := tileRows esize
  let w := tileBits esize
  let n := count.toNat + 1
  .next (s.issue h (moveWord 1 h count esize.val (opndWord src) dst) (some .turn) fun t =>
    let a := t.opnd f src
    let b := t.opnd f dst
    t.withRows f [a, b] (rowsFrom a (n * k) ++ rowsFrom b (n * k)) fun u =>
      let pc := (u.field f).seq.pc - 1
      let r := (List.range n).foldl (fun v i =>
        let old := v.1.rows f (rowsFrom (rowAfter a (i * k)) k)
        let new := turnTile w i faults (old.take (128 * w))
        (v.1.putRows f (rowAfter b (i * k)) (padTo (512 * k) new), if turnGood w (old.take (128 * w)) new then v.2 else v.2 ++ [i])) (u, [])
      let u1 := r.1.launch h .turn 3 0 []
      if r.2.isEmpty then u1
      else
        let u2 := r.2.foldl (fun v i =>
          ((v.event (pierMaster f) 0x0309 (leBytes 2 pc ++ leBytes 2 i)).setReg regLastFault f (0x0309 * 65536 + pc % 16384)).bump
            regTurnCheckFails f 1) u1
        ((u2.failed f 2).chargePier f (pierUnit f) 0x0309).settle)

/-- MOVE.FILL. -/
def execMoveFill (h : Hdr) (count : BitVec 12) (dst : Opnd) (s : State) : Host.Outcome State Fault Refusal :=
  let f := h.field.val
  let n := count.toNat + 1
  .next (s.issue h (moveWord 2 h count 0 0 dst) (some .turn) fun t =>
    let b := t.opnd f dst
    t.withRows f [b] (rowsFrom b n) fun u => (u.putRows f b (zeros (512 * n))).launch h .turn 3 0 [])

/-! ### FETCH (R180 to R182, R193) -/

/-- The span that a pier's traffic belongs to, 0xFF for none. -/
def State.pierSpan (s : State) (f : Nat) : Nat := (s.spanOf f).getD 0xFF

/-- Reads of a run-ahead FETCH pass to the instruction of number `n` (R192, R193): those still outstanding. -/
def State.adoptReads (s : State) (f n : Nat) (tags : List Nat) : State :=
  let g (o : Outstanding) : Outstanding :=
    if o.master == pierMaster f && tags.contains o.tag then { o with ahead := none, serial := n } else o
  s.modMesh fun m => { m with requests := m.requests.map g }

/-- How many of a pier's reads with given tags are outstanding. -/
def State.readsLeft (s : State) (f : Nat) (tags : List Nat) : Nat :=
  (s.mesh.requests.filter fun o => o.master == pierMaster f && tags.contains o.tag).length

/-- A FETCH issues (R180 to R182, R193): reads that the cursor has made for this step are not made again, and
those that it had found no slot for are made now. -/
def State.fetch (s : State) (h : Hdr) (ra : Bool) (reads : List (Nat × Nat × Nat)) : State :=
  let f := h.field.val
  let q := (s.field f).seq
  let here := q.ahead.find? fun a => ra && a.step == q.reg 0 && a.nth == q.fetchNth
  let s1 := if ra then s.modSeq f fun x => { x with fetchNth := x.fetchNth + 1 } else s
  match here with
  | some a =>
    let rest := (q.runAhead.filter fun r => r.step == a.step && r.nth == a.nth).elim [] (·.rest)
    let s2 := s1.modSeq f fun x =>
      { x with ahead := x.ahead.filter fun y => !(y.step == a.step && y.nth == a.nth), runAhead := x.runAhead.map (·.without [a]) }
    let left := s2.readsLeft f a.tags
    if left + rest.length = 0 then s2
    else ((s2.adoptReads f q.serial a.tags).launch h .fetch 4 (left + rest.length) []).fetchIssue f (s.pierSpan f) q.serial rest
  | none => (s1.launch h .fetch 4 reads.length []).fetchIssue f (s.pierSpan f) q.serial reads

/-- A range outside R180: the instruction is not performed. -/
def State.rangeFault (s : State) (f : Nat) : State := s.failed f 0x40

/-- FETCH.LINEAR. -/
def execFetchLinear (h : Hdr) (ra : Bool) (o : TowerOpnd) (dst : Opnd) (s : State) : Host.Outcome State Fault Refusal :=
  let f := h.field.val
  .next (s.issue h (fetchLinearWord h ra o dst) (some .fetch) fun t =>
    let a := towerAddr (t.field f).seq.idx o.treg o.toff.toNat
    let b := t.opnd f dst
    if badBank b then t.operandFault f
    else if !t.rangeOk a (o.len.toNat + 1) then t.rangeFault f
    else (t.fetch h ra [(a, o.len.toNat + 1, b)]).aheadGo f)

/-- FETCH.LIST. -/
def execFetchList (h : Hdr) (ra : Bool) (count : BitVec 6) (list dst : Opnd) (s : State) : Host.Outcome State Fault Refusal :=
  let f := h.field.val
  .next (s.issue h (fetchListWord h ra count list dst) (some .fetch) fun t =>
    let a := t.opnd f list
    let b := t.opnd f dst
    t.withRows f [a, b] [a] fun u =>
      let es := listEntries (u.row f a) count.toNat
      if es.all (fun e => u.rangeOk e.1 e.2) then (u.fetch h ra (listReads b es)).aheadGo f else u.rangeFault f)

/-! ### SEND (R180, R183, R296, R297) -/

/-- Where a member of a span is, by its member number. -/
def Span.memberDst (p : Span) (m : Nat) : Option Dest := (p.members[m]?).map p.dst

/-- The step and attempt that a packet of a pier carries. -/
def State.stepOf (s : State) (f k : Nat) : Nat × Nat × Nat := (s.openStep f).getD (k, (s.field f).seq.reg 0, 0)

/-- A transfer of rows in packets of at most 4 (R281): type, span, where each packet goes, RETX, its first words, and the rows.  The n-th
packet of a transfer takes its place in the rotation over a viaduct's channels (R280). -/
def State.sendRows (s : State) (f ty k : Nat) (dst : Nat → Dest) (resent : Bool) (head : Nat → List Nat) (l : List Byte) : State :=
  let o := s.stepOf f k
  (chunks 2048 l).zipIdx.foldl (fun t c =>
    t.sendNth c.2 resent (pierMaster f) ty k o.2.1 o.2.2 (dst (4 * c.2)) 0 (head (4 * c.2) ++ c.1.map BitVec.toNat)) s

/-- A READBACK follows the writes of an instruction on the n-th channel that they took (R297): a request that waits for its ACK, and one more
write of the attempt that is not complete (R31). -/
def State.sendReadback (s : State) (f k nth : Nat) (dst : Dest) (addr serial : Nat) : State :=
  let o := s.stepOf f k
  let tag := s.mesh.nextTag
  let s1 := s.request { tag := 0, master := pierMaster f, span := k, field := f, mover := none, dest := none, bytes := 0, ahead := none
                        write := true, serial := serial }
  (s1.sendNth nth false (pierMaster f) tyReadback k o.2.1 o.2.2 dst 0 [tag, addr]).modSeq f fun q => { q with writesOpen := q.writesOpen + 1 }

/-- The READBACKs of a transfer of `n` packets to one place (R297): one for each viaduct channel that it used, otherwise one. -/
def readbacks (dst : Dest) (n : Nat) : Nat :=
  match dst with
  | .away _ _ => min n 4
  | _ => 1

/-- The first address of each endpoint that a range of rows reaches (R297). -/
def State.endpointAddrs (s : State) (a n : Nat) : List Nat :=
  (List.range n).foldl (fun l i =>
    let b := a + 512 * i
    if l.any fun c => s.servedBy c == s.servedBy b then l else l ++ [b]) []

/-- One more write of the attempt has no read-back yet (R31). -/
def State.writeOpens (s : State) (f : Nat) : State := s.modSeq f fun q => { q with writesOpen := q.writesOpen + 1 }

/-- SEND.ROWS. -/
def execSendRows (h : Hdr) (o : SendOp) (s : State) : Host.Outcome State Fault Refusal :=
  let f := h.field.val
  let n := o.count.toNat + 1
  .next (s.issue h (sendWord 0 h o) (some .mesh) fun t =>
    let a := t.opnd f o.src
    let r := t.opnd f o.rdst
    t.withRows f [a, r] (rowsFrom a n) fun u =>
      let k := u.pierSpan f
      match (u.span k).memberDst o.target.toNat with
      | none => u.failed f 0x40
      | some d =>
        let serial := (u.field f).seq.serial
        let u1 := u.sendRows f tyRows k (fun _ => d) false (fun i => [o.chan, rowAfter r i]) (u.rows f (rowsFrom a n))
        let m := readbacks d ((n + 3) / 4)
        ((List.range m).foldl (fun v i => v.sendReadback f k i d r serial) u1).launch h .mesh 5 m [])

/-- SEND.SIGNAL. -/
def execSendSignal (h : Hdr) (target : BitVec 8) (chan : Idx16) (s : State) : Host.Outcome State Fault Refusal :=
  let f := h.field.val
  .next (s.issue h (sendSignalWord h target chan) (some .mesh) fun t =>
    let k := t.pierSpan f
    match (t.span k).memberDst target.toNat with
    | none => t.failed f 0x40
    | some d =>
      let o := t.stepOf f k
      let serial := (t.field f).seq.serial
      let tag := t.mesh.nextTag
      ((t.request { tag := 0, master := pierMaster f, span := k, field := f, mover := none, dest := none, bytes := 0, ahead := none
                    write := false, serial := serial }).send (pierMaster f) tySignal k o.2.1 o.2.2 d 0 [tag, chan]).launch h .mesh 5 1 [])

/-- SEND.STORE. -/
def execSendStore (h : Hdr) (o : TowerOpnd) (src : Opnd) (s : State) : Host.Outcome State Fault Refusal :=
  let f := h.field.val
  let n := o.len.toNat + 1
  .next (s.issue h (sendStoreWord h o src) (some .mesh) fun t =>
    let a := towerAddr (t.field f).seq.idx o.treg o.toff.toNat
    let b := t.opnd f src
    if badBank b then t.operandFault f
    else if !t.rangeOk a n then t.rangeFault f
    else t.withRows f [b] (rowsFrom b n) fun u =>
      let k := u.pierSpan f
      let serial := (u.field f).seq.serial
      let u1 := u.sendRows f tyWrite k (fun i => .addr (a + 512 * i)) false (fun i => [a + 512 * i]) (u.rows f (rowsFrom b n))
      let l := u.endpointAddrs a n
      (l.foldl (fun v x => v.sendReadback f k 0 (.addr x) x serial) u1).launch h .mesh 5 l.length [])

/-! ### Groups and multicast (R305 to R310, R357) -/

/-- A group of a span in force: its root and members, as member numbers in ascending order; collective group 0 is every member with the
anchor as root (R357). -/
def State.groupOf (s : State) (k : Nat) (multicast : Bool) (g : Nat) : Option (Nat × List Nat) :=
  let p := s.span k
  if !multicast && g == 0 then some ((p.memberNo p.anchor).getD 0, List.range p.members.length)
  else
    let l := leBytes 32 ((if p.step.isSome then p.latched else s.regs).value regGroup k (if multicast then 16 + g else g))
    if leAt l 0 1 = (if multicast then 2 else 1) then some (leAt l 1 1, bitList 128 (leAt l 4 16)) else none

/-- Rows of a multicast window (R305). -/
def windowRows : Nat := 16

/-- The root sends every window for which it holds a credit from every target (R306). -/
def mcastPump (k : Nat) : Nat → State → Mcast → State × Mcast
  | 0, s, m => (s, m)
  | n + 1, s, m =>
    if m.sent < m.windows ∧ m.targets.all (fun t => t.2.1 != 0) then
      let l := slice (512 * windowRows * m.sent) (512 * windowRows) (s.rows m.root (rowsFrom m.src m.rows))
      let head (i : Nat) : List Nat := [m.group, m.chan, rowAfter m.rdst (windowRows * m.sent + i)]
      let s1 := s.sendRows m.root tyMcastData k (fun _ => .group m.group) false head l
      mcastPump k n s1 { m with sent := m.sent + 1, targets := m.targets.map fun t => (t.1, t.2.1 - 1, t.2.2) }
    else (s, m)

/-- Keep a multicast record, pumped. -/
def State.mcastGo (s : State) (k : Nat) (m : Mcast) : State :=
  let r := mcastPump k (m.windows + 1) s m
  r.1.modSpan k fun p => { p with mcasts := p.mcasts.map fun x => if x = m then r.2 else x }

/-- A multicast whose targets have all acknowledged every window completes (R308), and the next one of its group starts. -/
def State.mcastCheck (s : State) (k g root : Nat) : State :=
  match (s.span k).mcasts.find? fun m => m.group == g && m.root == root with
  | none => s
  | some m =>
    if m.targets.all (fun t => m.windows ≤ t.2.2.1) then
      let s1 := s.modSpan k fun p => { p with mcasts := p.mcasts.erase m }
      let s2 := s1.modSeq root fun q => { q with writesOpen := q.writesOpen - 1 }
      let s3 := match (s2.field root).seq.inFlight.find? fun x => x.cls == 5 && x.args == [g] with
        | some x => s2.finish root x
        | none => s2
      match (s3.span k).mcasts.find? fun x => x.group == g && x.root == root with
      | some x => s3.mcastGo k x
      | none => s3
    else s

/-- SEND.MCAST (R183, R306). -/
def execSendMcast (h : Hdr) (o : SendOp) (s : State) : Host.Outcome State Fault Refusal :=
  let f := h.field.val
  let n := o.count.toNat + 1
  .next (s.issue h (sendWord 3 h o) (some .mesh) fun t =>
    let a := t.opnd f o.src
    let r := t.opnd f o.rdst
    t.withRows f [a, r] (rowsFrom a n) fun u =>
      let k := u.pierSpan f
      match u.groupOf k true o.target.toNat with
      | none => u.failed f 0x40
      | some (_, members) =>
        let targets := (members.filterMap fun m => ((u.span k).members[m]?).map (·.2)).filter (· != f)
        let m : Mcast := { group := o.target.toNat, root := f, chan := o.chan, rows := n, windows := (n + windowRows - 1) / windowRows
                           sent := 0, src := a, rdst := r, targets := targets.map fun g => (g, 2, 0, 0) }
        let u1 := (u.writeOpens f).launch h .mesh 5 1 [m.group]
        if (u.span k).mcasts.any fun x => x.group == m.group && x.root == f then
          u1.modSpan k fun p => { p with mcasts := p.mcasts ++ [m] }
        else ((u1.modSpan k fun p => { p with mcasts := p.mcasts ++ [m] }).mcastGo k m).mcastCheck k m.group f)

/-! ### RECV (R184) -/

/-- RECV.ROWS. -/
def execRecvRows (h : Hdr) (chan : Idx16) (count : BitVec 12) (s : State) : Host.Outcome State Fault Refusal :=
  .next (s.issue h (recvWord 0 h chan count) (some .mesh) fun t =>
    (t.await h (.recv false chan (count.toNat + 1) (hdrToken h))).wakeWaiting h.field)

/-- RECV.SIGNAL. -/
def execRecvSignal (h : Hdr) (chan : Idx16) (count : BitVec 12) (s : State) : Host.Outcome State Fault Refusal :=
  .next (s.issue h (recvWord 1 h chan count) (some .mesh) fun t =>
    (t.await h (.recv true chan (count.toNat + 1) (hdrToken h))).wakeWaiting h.field)

end Sys2Proof.Machine
end

