-- ==== Sys2Proof/Machine/Coll.lean ====
section
/-! DEFINITION. Collectives and barriers: COLL, SYNC, digests, the arrival of contributions and of barrier messages (R185, R186, R290,
R376 to R381). -/

namespace Sys2Proof.Machine

/-! ### Digests (R376, R377) -/

/-- p = 2^61 − 1. -/
def digestP : Nat := 2 ^ 61 - 1

/-- φ of a PARTIAL entry (R376). -/
def residue (a : AccEntry) : Nat :=
  if a.zero || a.nonfin then 0 else (a.value % (digestP : Int)).toNat * 2 ^ (a.lsbExp % 61).toNat % digestP

/-- φ of every entry of some bytes: words of 64 bits or PARTIAL entries. -/
def residues (words : Bool) (l : List Byte) : List Nat :=
  if words then (chunks 8 l).map fun w => ofLe w % digestP else (chunks 16 l).map fun e => residue (ofPartial e)

/-- Σ r^(k+1) φ_k from the coefficient `c` on. -/
def digestSum (r : Nat) : Nat → List Nat → Nat
  | _, [] => 0
  | c, x :: rest => (c * x + digestSum r (c * r % digestP) rest) % digestP

/-- b^n mod p, by squaring. -/
def powMod (b : Nat) : Nat → Nat → Nat
  | 0, _ => 1
  | fuel + 1, n => if n = 0 then 1 else
      let h := powMod b fuel (n / 2)
      let h2 := h * h % digestP
      if n % 2 = 1 then h2 * b % digestP else h2

/-- r of a collective (R377). -/
def State.digestR (s : State) (k step group seq : Nat) : Nat :=
  let seed := if (s.span k).step.isSome then s.inForce k regDigestSeed else s.reg regDigestSeed k
  1 + shake64 (leBytes 8 seed ++ leBytes 8 k ++ leBytes 8 step ++ leBytes 1 group ++ leBytes 2 seq ++ zeros 5) % (digestP - 1)

/-- D of rows from row `row` of a contribution on. -/
def digestOf (r row : Nat) (words : Bool) (l : List Byte) : Nat :=
  digestSum r (powMod r 32 ((if words then 64 else 32) * row + 1)) (residues words l)

/-- The entries of PARTIAL rows. -/
def partials (l : List Byte) : List AccEntry := (chunks 16 l).map ofPartial

/-- FLAGS of a packet (R378). -/
def collFlags (words : Bool) (l : List Byte) : Nat :=
  if words then 0 else
    let es := partials l
    boolNat (es.any (·.lossy)) + 2 * boolNat (es.any (·.nonfin))

/-! ### COLL (R185) -/

/-- SUB of a collective whose entries are words. -/
def wordsOf (sub : Nat) : Bool := 2 ≤ sub

/-- A pier's rank in a group: its place among the members, its member number, and the group. -/
def State.rankIn (s : State) (k g f : Nat) : Option (Nat × Nat × List Nat) :=
  match s.groupOf k false g, (s.span k).memberNo f with
  | some (root, ms), some m => (ms.findIdx? (· == m)).map fun i => (i, root, ms)
  | _, _ => none

/-- Send one contribution to a member: packets of at most 4 rows with their digests (R378). -/
def State.sendColl (s : State) (f k g seq rank member : Nat) (words : Bool) (l : List Byte) : State :=
  match (s.span k).memberDst member with
  | none => s
  | some d =>
    let r := s.digestR k ((s.field f).seq.reg 0) g seq
    let o := s.stepOf f k
    (chunks 2048 l).zipIdx.foldl (fun t c =>
      t.sendNth c.2 false (pierMaster f) tyCollData k o.2.1 o.2.2 d 0
        ([g, digestOf r (4 * c.2) words c.1, boolNat words, rank, seq, 4 * c.2, collFlags words c.1] ++ c.1.map BitVec.toNat)) s

/-- A COLL issues: its contribution goes to the root (REDUCE), from the root to all (BROADCAST), or to every other member
(notes/assumptions/19). -/
def State.coll (s : State) (h : Hdr) (sub : Nat) (o : CollOp) : State :=
  let f := h.field.val
  s.issue h (collWord sub h o) (some .mesh) fun t =>
    let a := t.opnd f o.src
    let b := t.opnd f o.dst
    let n := o.count.toNat + 1
    let k := t.pierSpan f
    let g := o.group.toNat
    match t.rankIn k g f with
    | none => t.failed f 0x40
    | some (rank, root, ms) =>
      let me := ms.getD rank 0
      let sends := sub != 3 || me == root
      let out := if sub = 2 then n * ms.length else n
      let lands := sub != 0 || me == root
      t.withRows f [a, b] ((if sends then rowsFrom a n else []) ++ (if lands then rowsFrom b out else [])) fun u =>
        let seq := (u.field f).seq.collSeq.getD g 0
        let l := u.rows f (rowsFrom a n)
        let dsts := if sub = 0 then [root] else ms
        let u1 := if sends then (dsts.filter (· != me)).foldl (fun v m => v.sendColl f k g seq rank m (wordsOf sub) l) u else u
        (u1.modSeq f fun q => { q with collSeq := q.collSeq.set g (seq + 1) }).launch h .mesh 7 0 [g, seq, sub, n, a, b]

/-- COLL.REDUCE. -/
def execCollReduce (h : Hdr) (o : CollOp) (s : State) : Host.Outcome State Fault Refusal := .next (s.coll h 0 o)
/-- COLL.ALLREDUCE. -/
def execCollAllreduce (h : Hdr) (o : CollOp) (s : State) : Host.Outcome State Fault Refusal := .next (s.coll h 1 o)
/-- COLL.ALLGATHER. -/
def execCollAllgather (h : Hdr) (o : CollOp) (s : State) : Host.Outcome State Fault Refusal := .next (s.coll h 2 o)
/-- COLL.BROADCAST. -/
def execCollBroadcast (h : Hdr) (o : CollOp) (s : State) : Host.Outcome State Fault Refusal := .next (s.coll h 3 o)

/-- Rows that have arrived from a rank in a collective. -/
def Sequencer.collRows (q : Sequencer) (g seq rank : Nat) : Nat :=
  ((q.colls.filter fun c => c.group == g && c.seq == seq && c.rank == rank).map fun c => c.bytes.length / 512).sum

/-- Has a collective all that it needs (R173, R185)? -/
def State.collReady (s : State) (f : Nat) (x : InFlight) : Bool :=
  match x.args with
  | [g, seq, sub, n, _, _] =>
    let q := (s.field f).seq
    match s.rankIn (s.pierSpan f) g f with
    | none => false
    | some (rank, root, ms) =>
      let me := ms.getD rank 0
      let all := (List.range ms.length).all fun i => i == rank || n ≤ q.collRows g seq i
      let rootRank := (ms.findIdx? (· == root)).getD 0
      if sub = 3 then me == root || n ≤ q.collRows g seq rootRank
      else if sub = 0 && me != root then true
      else all || (sub < 2 && n ≤ q.collRows g seq 0xFF)
  | _ => false

/-- Add PARTIAL entries in order (R121): sums, and lossy combinations. -/
def addPartials (a b : List AccEntry) : List (AccEntry × Bool) := (a.zip b).map fun p => combine p.1 p.2

/-- The sum of the contributions that have arrived and the pier's own, with the number of lossy combinations (R185, R380). -/
def State.collSum (s : State) (f g seq n a : Nat) : List AccEntry × Nat :=
  let q := (s.field f).seq
  (q.colls.filter fun c => c.group == g && c.seq == seq).foldl (fun acc c =>
    let at' := 32 * c.row
    let m := c.bytes.length / 16
    let r := addPartials (slice' at' m acc.1) (partials c.bytes)
    (acc.1.take at' ++ r.map (·.1) ++ acc.1.drop (at' + m), acc.2 + (r.filter (·.2)).length))
    (partials (s.rows f (rowsFrom a n)), 0)
where
  /-- A slice of entries. -/
  slice' (off len : Nat) (l : List AccEntry) : List AccEntry := (l.drop off).take len

/-- A sum with what the adder got wrong. -/
def sumWith (faults : List SumFault) (l : List AccEntry) : List AccEntry :=
  l.zipIdx.map fun e => faults.foldl (fun a x =>
    if x.entry.toNat = e.2 ∧ x.off ≠ 0 then { a with value := a.value + x.off.toInt, zero := false } else a) e.1

/-- The reduction check (R380): D of the sum is the sum of the D of the addends, the pier's own contribution among them. -/
def State.sumGood (s : State) (f k g seq n a : Nat) (sum : List AccEntry) : Bool :=
  let q := (s.field f).seq
  let r := s.digestR k (q.reg 0) g seq
  let own := digestOf r 0 false (s.rows f (rowsFrom a n))
  let all := (q.colls.filter fun c => c.group == g && c.seq == seq).map fun c => digestOf r c.row false c.bytes
  digestSum r r (sum.map residue) == (own + all.sum) % digestP

/-- The rows that a collective writes at a pier (R185). -/
def collOut (sub n rank root me members b : Nat) : List Nat :=
  if sub = 2 then rowsFrom b (n * members) else if sub = 0 && me != root then [] else
    if rank < members then rowsFrom b n else []

/-- A collective completes (R185, R380): its result is performed, with the per-tensor scales of the pier's own contribution (R125;
notes/assumptions/18); at a WAKING bank it waits (R158).  A sum that fails the reduction check is not performed, and reports DIGEST (R381). -/
def State.collDone (s0 : State) (f : Nat) (faults : List SumFault) (x : InFlight) : State :=
  match x.args with
  | [g, seq, sub, n, a, b] =>
    let k := s0.pierSpan f
    let mine := (s0.field f).seq.colls.filter fun c => c.group == g && c.seq == seq
    match s0.rankIn k g f with
    | none => s0.finish f x
    | some (rank, root, ms) =>
      let me := ms.getD rank 0
      let out := collOut sub n rank root me ms.length b
      let adds := sub < 2 && (sub == 1 || me == root)
      let sum := s0.collSum f g seq n a
      let faulty := sumWith faults sum.1
      let marked := mine.any (·.marked) || faulty.any fun e => e.lossy || e.nonfin
      if s0.rowsAsleep f out then s0
      else if adds && !marked && !s0.sumGood f k g seq n a faulty then
        let s1 := (s0.event (pierMaster f) 0x0307 (leBytes 1 g ++ leBytes 1 1 ++ leBytes 2 seq ++ leBytes 1 f ++ leBytes 1 k)).bump regDigestFails k 1
        (((s1.modSeq f fun y => { y with colls := y.colls.filter fun c => !(c.group == g && c.seq == seq) }).failed f 8).chargePier f
          (pierUnit f) 0x0307).settle
      else s0.withRows f [] out fun s =>
        let s1 :=
          if sub = 3 then mine.foldl (fun t c => t.putRows f (rowAfter b c.row) c.bytes) (if me = root then s.putRows f b (s.rows f (rowsFrom a n)) else s)
          else if sub = 2 then
            mine.foldl (fun t c => t.putRows f (rowAfter b (c.rank * n + c.row)) c.bytes) (s.putRows f (rowAfter b (rank * n)) (s.rows f (rowsFrom a n)))
          else if adds then
            let t := if marked then s.bump regDigestSkips k 1 else s
            let t1 := if sum.2 = 0 then t else (t.bump regWindowDrops f sum.2).modSeq f fun y => { y with window := y.window + sum.2 }
            t1.putRows f b (faulty.map partialBytes).flatten
          else s
        let s2 := s1.tagRows f out (if sub = 3 ∧ me ≠ root then [] else s.scalesAt f a)
        (s2.modSeq f fun y => { y with colls := y.colls.filter fun c => !(c.group == g && c.seq == seq) }).finish f x
  | _ => s0

/-- A contribution arrives (R379 to R381): the transport check comes first; a mismatch reports DIGEST. -/
def execCollData (p : Pkt) (f : FieldId) (c : CollHdr) (bytes : List Byte) (s : State) : Host.Outcome State Fault Refusal :=
  let k := p.span.toNat
  .next (s.carried tyCollData (flitsFor bytes.length) p fun t => if t.stale p then t.dropStale p
    else if t.resetting k then t.answer p tyNack nackReset []
    else if t.openStep f ≠ some (k, p.step.toNat, p.attempt.toNat) then t
    else
      let r := t.digestR k p.step.toNat c.group.toNat c.seq.toNat
      if digestOf r c.row.toNat c.words bytes = c.digest.toNat then
        t.modSeq f fun q => { q with colls := q.colls ++ [⟨c.group.toNat, c.seq.toNat, c.sender, c.rank.toNat, c.row.toNat, c.words,
          c.lossy || c.nonfin, bytes⟩] }
      else
        let s1 := (t.event (pierMaster f) 0x0307
          (leBytes 1 c.group.toNat ++ leBytes 1 0 ++ leBytes 2 c.seq.toNat ++ leBytes 1 c.sender ++ leBytes 1 k)).bump regDigestFails k 1
        ((s1.failed f 8).chargePier f (pathUnit c.sender f) 0x0307).settle)

/-! ### SYNC (R186, R290, R293) -/

/-- A SYNC of the whole span (slot 16) or a group: ARRIVE goes to the root, and the pier waits for the release. -/
def State.sync (s : State) (h : Hdr) (group : Option Nat) : State :=
  let f := h.field.val
  s.issue h (syncWord (if group.isSome then 1 else 0) h (group.getD 0)) none fun t =>
    let k := t.pierSpan f
    let slot := group.getD 16
    let g := t.groupOf k false (group.getD 0)
    match g with
    | none => t.failed f 0x40
    | some (root, _) =>
      let seq := (t.field f).seq.syncSeq.getD slot 0
      let o := t.stepOf f k
      let d := ((t.span k).memberDst root).getD (.pier f)
      let t1 := t.send (pierMaster f) tyArrive k o.2.1 o.2.2 d 1 [group.getD 0xFF, seq]
      (t1.modSeq f fun q => { q with syncSeq := q.syncSeq.set slot (seq + 1) }).await h (.sync (group.getD 0xFF) seq (hdrToken h))

/-- SYNC.SPAN. -/
def execSyncSpan (h : Hdr) (s : State) : Host.Outcome State Fault Refusal := .next (s.sync h none)
/-- SYNC.GROUP. -/
def execSyncGroup (h : Hdr) (group : BitVec 8) (s : State) : Host.Outcome State Fault Refusal := .next (s.sync h (some group.toNat))
/-- SYNC.LOCAL. -/
def execSyncLocal (h : Hdr) (s : State) : Host.Outcome State Fault Refusal :=
  .next (s.issue h (syncWord 2 h 0) none fun t => (t.await h (.localSync (hdrToken h))).wakeWaiting h.field)

/-- Members that a barrier waits for. -/
def State.barrierSize (s : State) (k group : Nat) : Nat :=
  match s.groupOf k false (if group = 0xFF then 0 else group) with
  | some (_, ms) => ms.length
  | none => 0

/-- Arrivals at the root of a barrier (R290): counts of the same barrier add up; when all have arrived, the root sends the release. -/
def State.barrierArrive (s : State) (p : Pkt) (g seq count : Nat) : State :=
  let k := p.span.toNat
  let old := (((s.span k).barriers.find? fun b => b.1 == g && b.2.1 == seq).map (·.2.2)).getD 0
  let n := old + count
  let rest := (s.span k).barriers.filter fun b => !(b.1 == g && b.2.1 == seq)
  if s.barrierSize k g ≤ n then
    let x := (s.groupOf k false (if g = 0xFF then 0 else g)).getD (0, [])
    let ms := x.2.filterMap fun m => (s.span k).members[m]?
    let root := ((s.span k).members.getD x.1 (0, 0)).2
    (s.modSpan k fun q => { q with barriers := rest }).toMembers (pierMaster root) tyRelease k p.step.toNat p.attempt.toNat ms [g, seq]
  else s.modSpan k fun q => { q with barriers := (g, seq, n) :: rest }

/-- ARRIVE reaches the root (R290). -/
def execArrive (p : Pkt) (group : BitVec 8) (seq : BitVec 16) (count : BitVec 16) (s : State) : Host.Outcome State Fault Refusal :=
  let k := p.span.toNat
  .next (s.carried tyArrive 1 p fun t => if t.stale p then t.dropStale p
    else if t.resetting k then t.answer p tyNack nackReset []
    else if (t.span k).step.isNone ∨ (t.span k).committed + 1 ≠ p.step.toNat ∨ (t.span k).attempt ≠ p.attempt.toNat then t
    else t.barrierArrive p group.toNat seq.toNat count.toNat)

/-- RELEASE reaches a pier: its SYNC completes (R186). -/
def execRelease (p : Pkt) (f : FieldId) (group : BitVec 8) (seq : BitVec 16) (s : State) : Host.Outcome State Fault Refusal :=
  .next (s.carried tyRelease 1 p fun t => if t.stale p then t.dropStale p
    else if t.openStep f ≠ some (p.span.toNat, p.step.toNat, p.attempt.toNat) then t
    else
      let q := (t.field f).seq
      match q.waiting.find? fun w => match w with
        | .sync g n _ => g == group.toNat && n == seq.toNat
        | _ => false with
      | some w => (t.modSeq f fun x => x.complete w).wakeWaiting f
      | none => t)

end Sys2Proof.Machine
end

