-- ==== Sys2Proof/Machine/Update.lean ====
section
/-! DEFINITION. Activation of firmware field by field, its commit and its rollback, takeovers, the staging window and the attestation bucket
(R351, R498 to R506, R530). -/

namespace Sys2Proof.Machine

/-! ### ACTIVATE_TIME (R498, R501) -/

/-- May an activation be scheduled for time `t`?  The status. -/
def State.activateStatus (s : State) (t : Nat) : Nat :=
  let o := s.otherBank
  let held := o.state = .staged ∨ (o.state = .retained ∧ s.securityVersion ≤ o.security)
  let may := s.boot.update = .staged ∨ s.boot.update = .idle ∨ s.boot.update = .scheduled
  if t = 0 then stOk
  else if may ∧ held ∧ compatible o s.bootBank = true ∧ s.now + 1000000000 ≤ t then stOk else stAccess

/-- ACTIVATE_TIME takes a value (R498, R501): 0 cancels a SCHEDULED activation. -/
def State.activateAt (s : State) (t : Nat) : State :=
  let s1 := s.setReg regActivateTime 0 t
  if t = 0 then if s.boot.update = .scheduled then s1.updateRest else s1
  else (s1.supEvent 0x0703 []).setUpdate .scheduled

/-! ### Field restarts (R499) -/

/-- The next field of an activation (R499): neither RETIRED nor DARK at its turn. -/
def State.nextField (s : State) : Option Nat :=
  (List.range 30).find? fun f =>
    s.boot.cursor ≤ f && (s.field f).state != .retired && (s.field f).state != .dark

/-- A field's restart begins (R499): its cores are asked to quiesce, and its pier's span pauses at its next keystone. -/
def State.restartField (s : State) (f : Nat) : State :=
  let s1 := (s.modBoot fun b => { b with inHand := some f }).interrupt f 5 []
  (match s.memberOf f with
    | some k => s1.pauseFor k (.restart f)
    | none => s1).settle

/-- The restarts of an activation are over (R500): the standby supervisor restarts. -/
def State.activateNext (s : State) : State :=
  match s.nextField with
  | some f => (s.modBoot fun b => { b with cursor := f + 1 }).restartField f
  | none => s.setUpdate .swapping

/-- No field is marked as running a build other than that of the boot bank. -/
def State.oldBuild (s : State) : State := (List.range 30).foldl (fun t f => t.modField f fun x => { x with newBuild := false }) s

/-- Every unit is on the old build again (R501): the staged bank has failed. -/
def State.rolledBack (s : State) : State :=
  ((s.oldBuild.modBankImg (!s.boot.bootB) fun b => { b with state := .failed }).supEvent 0x0706 []).setUpdate .idle

/-- Does a rollback still wait for a supervisor that runs the new build? -/
def State.supervisorsNew (s : State) : Bool := s.boot.supNew.1 || s.boot.supNew.2

/-- A rollback goes on (R501): it is over when no field and no supervisor is left. -/
def State.rollbackCheck (s : State) : State :=
  if s.boot.update = .rollingBack ∧ s.boot.rollback.isEmpty ∧ s.boot.inHand = none ∧ !s.supervisorsNew then s.rolledBack else s

/-- The activation fails (R501, R506): every field on the new build is to restart on the old one, in descending order. -/
def State.rollBack (s : State) : State :=
  let new := ((List.range 30).filter fun f => (s.field f).newBuild && s.boot.inHand != some f).reverse
  let one (b : Boot) : Bool × Bool :=
    if s.control.standby then b.supNew else if s.control.activeB then (false, b.supNew.2) else (b.supNew.1, false)
  ((s.modBoot fun b => { b with rollback := new, supNew := one b }).setUpdate .rollingBack).rollbackCheck

/-- The next field of a rollback; fields that are DARK or RETIRED by then are skipped. -/
def State.rollbackNext (s : State) : State :=
  let gone (f : Nat) : Bool := (s.field f).state == .retired || (s.field f).state == .dark
  match s.boot.rollback.dropWhile gone with
  | [] => (s.modBoot fun b => { b with rollback := [] }).rollbackCheck
  | f :: r => (s.modBoot fun b => { b with rollback := r }).restartField f

/-- ACTIVATION_START (R499, R501). -/
def execActivationStart (s : State) : Host.Outcome State Fault Refusal :=
  .next (if s.boot.update = .scheduled then
      ((s.modBoot fun b => { b with cursor := 0, supNew := (false, false), inHand := none }).setUpdate .activating).activateNext
    else s)

/-- FIELD_RESTART (R499, R501): the interval has passed and field `f` is next. -/
def execFieldRestart (f : FieldId) (s : State) : Host.Outcome State Fault Refusal :=
  .next (if s.boot.inHand.isSome then s
    else match s.boot.update with
      | .activating => if s.nextField.all (· == f.val) then s.activateNext else s
      | .rollingBack => if s.boot.rollback.head?.all (· == f.val) then s.rollbackNext else s
      | _ => s)

/-- RESTART_KEYSTONE_TIMEOUT (R499): the open attempt aborts, and no occurrence is charged. -/
def execRestartKeystoneTimeout (sp : SpanId) (s : State) : Host.Outcome State Fault Refusal :=
  .next (match s.boot.inHand with
    | none => s
    | some f =>
      if s.memberOf f = some sp.val ∧ (s.span sp).state = .running then ((s.pauseNow sp (.restart f)).abortQuorum sp).settle else s)

/-- The image of a restarted field's pier is loaded again (R167, R499). -/
def State.imageReload (s : State) (f : Nat) : State :=
  match s.spanOf f with
  | none => s
  | some k =>
    let l := s.placement k
    let bytes := s.imageAt (leAt l 16 8)
    let pw := (s.field f).power.state
    if pw = .fused ∨ pw = .retired then s
    else match imageRefusal bytes with
      | some (n, pc) => s.supEvent 0x0A08 (leBytes 1 n ++ leBytes 2 pc)
      | none => s.loadImage f (Image.ofBytes (leAt l 16 8) bytes)

/-- FIELD_RESTART_DONE (R499 to R501, R506): the field returns to its former state, its span changes epoch and returns to READY. -/
def execFieldRestartDone (f : FieldId) (s : State) : Host.Outcome State Fault Refusal :=
  let x := s.field f
  .next (if !x.restarting ∨ s.boot.inHand ≠ some f.val then s
    else
      let s1 := s.modField f fun y => { y with restarting := false, coresReset := s.deadCores f, newBuild := s.boot.update == .activating }
      let home : FieldState := if x.saved = .serving ∨ x.saved = .ready then (if (s.spanOf f).isSome then .serving else .ready) else x.saved
      let s2 := ((s1.setFieldState f home).supEvent 0x0704 []).modBoot fun b => { b with inHand := none }
      let s3 := ((s2.imageReload f).restartUnmark f).powerUpdate f
      let s4 := match s.memberOf f with
        | none => s3
        | some k =>
          if (s3.span k).state ≠ SpanState.paused then s3
          else if (s3.span k).recovery.isEmpty then s3.newEpoch k 1
          else s3.modSpan k fun p => { p with epochDue := p.epochDue + 1 }
      let s5 := if s.boot.update = .activating ∧ s4.nextField = none then s4.setUpdate .swapping else s4
      s5.rollbackCheck.settle)

/-- FIELD_RESTART_TIMEOUT (R501): the field restarts from the boot bank and the activation rolls back; on the old build it charges an
occurrence to its FIELD unit, and the restart goes on. -/
def execFieldRestartTimeout (f : FieldId) (s : State) : Host.Outcome State Fault Refusal :=
  .next (if !(s.field f).restarting ∨ s.boot.inHand ≠ some f.val then s
    else if s.boot.update = .rollingBack then ((s.chargeOpen (fieldUnit f)).settle).rollbackCheck
    else s.rollBack)

/-! ### Supervisors (R351, R500, R504, R506) -/

/-- The build that supervisor A, or B, is marked to run. -/
def Boot.setSupNew (b : Boot) (isB v : Bool) : Boot := { b with supNew := if isB then (b.supNew.1, v) else (v, b.supNew.2) }
/-- Is supervisor A, or B, on the new build? -/
def Boot.onNew (b : Boot) (isB : Bool) : Bool := if isB then b.supNew.2 else b.supNew.1

/-- The commit of an activation (R500): the boot pointer, the fuses, event 0x0705; the former boot bank is RETAINED. -/
def State.activationCommit (s : State) : State :=
  let b := s.boot.bootB
  let o := s.otherBank
  let s1 := ((s.modBankImg (!b) fun x => { x with state := .active }).modBankImg b fun x => { x with state := .retained }).modBoot fun x =>
    { x with bootB := !b, supNew := (false, false), cursor := 0 }
  let s2 := s1.blowFuses 944 (leBytes 8 (leAt s.fuses 944 8 ||| (2 ^ o.security - 1)))
  let s3 := s2.blowFuses 940 (leBytes 1 (leAt s.fuses 940 1 ||| o.revoke))
  (s3.oldBuild.supEvent 0x0705 []).setUpdate .idle

/-- SUPERVISOR_RESTART_DONE (R500, R501): the standby runs the new build and takes the role over; when the former active supervisor runs it
too, the activation commits.  A module with one supervisor restarts that one.  In a rollback it is the old build that runs. -/
def execSupervisorRestartDone (s : State) : Host.Outcome State Fault Refusal :=
  let a := s.control.activeB
  let set (isB v : Bool) : State := s.modBoot fun b => b.setSupNew isB v
  .next (match s.boot.update with
    | .swapping =>
      if !s.control.standby then (set a true).activationCommit
      else if !s.boot.onNew (!a) ∧ !s.boot.onNew a then (set (!a) true).switchSupervisor
      else (set (!a) true).activationCommit
    | .rollingBack =>
      if !s.boot.rollback.isEmpty ∨ s.boot.inHand.isSome then s
      else if s.control.standby ∧ s.boot.onNew (!a) then (set (!a) false).rollbackCheck
      else if s.control.standby ∧ s.boot.onNew a then (set a false).switchSupervisor.rollbackCheck
      else (set a false).rollbackCheck
    | _ => s)

/-- HEARTBEAT_TIMEOUT (R351, R504, R506): no heartbeat for 300 µs; the standby takes over, reserves a new block of leaves, and rolls back
an activation. -/
def execHeartbeatTimeout (s : State) : Host.Outcome State Fault Refusal :=
  .next (if !s.boot.powered ∨ !s.control.standby then s
    else
      let s1 := s.takeover.newLeaves
      (match s.boot.update with
        | .activating | .swapping => s1.rollBack
        | _ => s1).settle)

/-! ### The staging window and the attestation bucket (R505, R530) -/

/-- STAGING_WINDOW_WRITE. -/
def execStagingWindowWrite (offset : BitVec 25) (bytes : List Byte) (s : State) : Host.Outcome State Fault Refusal :=
  .next (if s.boot.powered then s.stageWindow offset.toNat bytes else s)

/-- ATTEST_TOKEN_REFILL. -/
def execAttestTokenRefill (s : State) : Host.Outcome State Fault Refusal :=
  .next (if s.boot.powered then s.setReg regAttestTokens 0 (min 64 (s.reg regAttestTokens 0 + 1)) else s)

end Sys2Proof.Machine
end

