-- ==== Sys2Proof/Machine/Ports.lean ====
section
/-! DEFINITION. The commands of the Ethernet ports, requests and other frames (R532, R540 to R549). -/

namespace Sys2Proof.Machine

/-! ### Requests (R543, R549) -/

/-- START: a request that begins a sequence and binds it to its source. -/
def execStart (d : Datagram) (s : State) : Host.Outcome State Fault Refusal := .next (s.requestIn d)
/-- APPEND: a request that adds to a sequence. -/
def execAppend (d : Datagram) (s : State) : Host.Outcome State Fault Refusal := .next (s.requestIn d)
/-- END: a request that ends a sequence. -/
def execEndSeq (d : Datagram) (s : State) : Host.Outcome State Fault Refusal := .next (s.requestIn d)
/-- CANCEL: a request that asks the span's program to end the sequence. -/
def execCancel (d : Datagram) (s : State) : Host.Outcome State Fault Refusal := .next (s.requestIn d)

/-! ### Ports (R539, R541) -/

/-- A port goes down, with event 0x0611 if it was UP, and goes on in the state that its mode and lanes give. -/
def State.ethDown (s : State) (e : Nat) : State :=
  let s1 := if s.ethUp e then (s.event (portMaster e) 0x0611 []).capacityChanged else s
  s1.modEth e fun x => { x with state := s1.ethRest e }

/-- ETH_MODE takes a value (R541). -/
def State.ethModeSet (s : State) (e v : Nat) : State := (s.setReg regEthMode e v).ethDown e

/-- ETH_LINK_UP. -/
def execEthLinkUp (e : EthId) (s : State) : Host.Outcome State Fault Refusal :=
  .next (if (s.eth e).state = .training then ((s.modEth e fun x => { x with state := .up }).event (portMaster e) 0x0610 []).capacityChanged else s)

/-- ETH_LINK_DOWN: the link is lost, or a lane of the group is retired (R411). -/
def execEthLinkDown (e : EthId) (retiredLane : Option Idx16) (s : State) : Host.Outcome State Fault Refusal :=
  .next (match retiredLane with
    | none => if s.ethUp e then s.ethDown e else s
    | some l =>
      if l.val / 4 = e.val % 4 ∧ !s.isRetired (unitId 11 (ethField e) l) ∧ s.boot.powered then (s.retireLane (ethField e) l).settle else s)

/-- A frame that is no request, RTP, RTCP, PTP or dictionary datagram at an Ethernet port (R540). -/
def State.ethFrame (s : State) (e : Nat) (k : OtherFrame) : State :=
  if !s.ethUp e then s
  else
    let s1 := s.bump regFramesRx e 1
    match k with
    | .arp | .neighbour | .icmpEcho => (s1.emit (.answer e)).bump regFramesTx e 1
    | .pause | .pfc | .fragment | .zeroChecksum | .unservedPort | .badTag | .wrongVlan => s1.frameDrop e

/-- Such a frame at a 10BASE-T1S port (R532, R534): Neighbor Discovery and echo are answered, a datagram with a bad tag is counted. -/
def State.t1sFrame (s : State) (p : Nat) (k : OtherFrame) : State :=
  if s.reg regT1sLink p = 0 then s
  else
    let s1 := s.bump regT1sFrames p 1
    match k with
    | .neighbour | .icmpEcho => s1.emit (.answer (8 + p))
    | .badTag => s1.bump regTagDrops p 1
    | .arp | .pause | .pfc | .fragment | .zeroChecksum | .unservedPort | .wrongVlan => s1

/-- FRAME_RECEIVED. -/
def execFrameReceived (port : FramePort) (kind : OtherFrame) (s : State) : Host.Outcome State Fault Refusal :=
  .next (match port with
    | .eth e => s.ethFrame e kind
    | .t1s p => s.t1sFrame p kind)

/-- T1S_LINK_CHANGE (R532, R538): down, up with CSMA/CD, or up with PLCA; a port that is disabled, or whose supervisor's field is lost,
stays down. -/
def execT1sLinkChange (p : Fin 2) (up plca : Bool) (s : State) : Host.Outcome State Fault Refusal :=
  let may := s.boot.powered && s.reg regT1sEnable p == 1 && s.reachable (if p.val = 0 then 0 else 29)
  .next (s.setReg regT1sLink p (if up ∧ may = true then if plca then 2 else 1 else 0))

end Sys2Proof.Machine
end

