-- ==== Sys2Proof/Machine/Media.lean ====
section
/-! DEFINITION. The media engines: streams, jitter buffers, audio blocks and what is sent (R551 to R557). -/

namespace Sys2Proof.Machine

/-! ### Groups (R555, R556) -/

/-- The record of a media group. -/
def State.groupDesc (s : State) (g : Nat) : List Byte := leBytes 32 (s.reg regGroupDesc g)
/-- F, frames of samples in a block. -/
def groupF (l : List Byte) : Nat := if leAt l 2 1 = 1 then 320 else 160
/-- w, bytes of a sample. -/
def groupW (l : List Byte) : Nat := if leAt l 3 1 = 3 then 4 else 2
/-- The first tick of a group at or after a device time in ns. -/
def tickFrom (l : List Byte) (ns : Nat) : Nat := (ns - leAt l 24 4 * 1000 + 19999999) / 20000000
/-- Byte address of block `k` of a ring. -/
def ringBlock (l : List Byte) (base k : Nat) : Nat := base + k % leAt l 6 1 * (groupF l * leAt l 4 2 * groupW l)
/-- Streams that name a group. -/
def State.groupStreams (s : State) (g : Nat) : List Stream := s.ports.streams.filter fun x => leAt x.desc 5 1 == g

/-- Is a group record good (R555)? -/
def groupDescOk (l : List Byte) : Bool :=
  l.length == 32 && leAt l 0 1 < 2 && leAt l 1 1 < 2 && leAt l 7 1 == 0 && leAt l 28 4 == 0 &&
  (leAt l 0 1 == 0 || (leAt l 2 1 < 2 && 1 ≤ leAt l 3 1 && leAt l 3 1 ≤ 3 && 1 ≤ leAt l 4 2 && leAt l 4 2 ≤ 1024 && 2 ≤ leAt l 6 1 &&
    leAt l 6 1 ≤ 16 && leAt l 8 8 % 512 == 0 && leAt l 16 8 % 512 == 0 && leAt l 24 4 < 20000))

/-- The status of a write of a group record (R555). -/
def State.groupStatus (s : State) (g : Nat) (l : List Byte) : Nat :=
  if (s.groupStreams g).isEmpty && groupDescOk l then stOk else stValue

/-- A group record takes effect: its ticks go on from now. -/
def State.groupSet (s : State) (g : Nat) (l : List Byte) : State :=
  (s.setReg regGroupDesc g (ofLe l)).modPorts fun p => { p with ticks := p.ticks.set g (tickFrom l s.now) }

/-! ### Streams (R551, R552) -/

/-- RTP units in 1 ms of a codec (R551). -/
def codecClock (c : Nat) : Nat := if c = 4 then 16 else 8
/-- Samples in 10 ms of a codec. -/
def codecTen (c : Nat) : Nat := if c = 2 ∨ c = 4 then 160 else 80
/-- Does a codec sample at 16 kHz? -/
def codecWide (c : Nat) : Bool := c == 2 || c == 4

/-- Stream `i`, if it is ACTIVE. -/
def State.stream (s : State) (i : Nat) : Option Stream := s.ports.streams.find? (·.id == i)
/-- Change stream `i`. -/
def State.modStream (s : State) (i : Nat) (g : Stream → Stream) : State :=
  s.modPorts fun p => { p with streams := p.streams.map fun x => if x.id = i then g x else x }

/-- Is a stream descriptor good in itself (R552)? -/
def streamDescOk (l : List Byte) : Bool :=
  l.length == 64 && leAt l 0 1 < 2 && leAt l 1 1 < 4 && leAt l 37 3 == 0 && leAt l 44 20 == 0 &&
  (leAt l 0 1 == 0 || (leAt l 2 1 < 5 && leAt l 3 1 < 128 && leAt l 4 1 < 8 && leAt l 5 1 < 64 && leAt l 8 2 % 2 == 0 &&
    20 ≤ leAt l 32 2 && leAt l 32 2 % 20 == 0 && leAt l 32 2 ≤ leAt l 34 2 && leAt l 34 2 ≤ 400 && leAt l 34 2 % 20 == 0 &&
    (leAt l 36 1 < 8 || leAt l 36 1 == 0xFF)))

/-- The status of a write of stream `i`'s descriptor (R552): the port is of the engine's group, the group is VALID and of the engine, and
the slot is free. -/
def State.streamStatus (s : State) (i : Nat) (l : List Byte) : Nat :=
  let g := leAt l 5 1
  let d := s.groupDesc g
  if 16384 ≤ i ∨ !streamDescOk l then stValue
  else if leAt l 0 1 = 0 then stOk
  else if portGroup (leAt l 4 1) ≠ i / 8192 ∨ leAt d 0 1 = 0 ∨ leAt d 1 1 ≠ i / 8192 ∨ leAt d 4 2 ≤ leAt l 6 2 then stValue
  else if (s.groupStreams g).any fun x => x.id != i && leAt x.desc 6 2 == leAt l 6 2 then stValue
  else stOk

/-- A stream at its start; the first sequence number it sends is left to it by RFC 3550 (notes/assumptions/28). -/
def Stream.fresh (i : Nat) (l : List Byte) (seq : Nat) : Stream :=
  { id := i, desc := l, received := 0, sentN := 0, lost := 0, late := 0, concealed := 0, jitter := 0, depth := leAt l 32 2, voice := false
    event := 0xFF, roundTrip := 0, lastTime := 0, ssrc := leAt l 40 4, dups := 0, highSeq := none, seen := [], map := none, frames := []
    last := [], misses := 0, rxHist := [], txHist := [], silent := false, released := [], txSeq := seq, floor := Config.noiseFloor 0 [], hang := 0
    shown := zeros 64 }

/-- A number of 4 bytes in network order. -/
def beBytes (n v : Nat) : List Byte := (leBytes n v).reverse

/-- The BYE of a stream (RFC 3550): its SSRC alone. -/
def byeBytes (ssrc : Nat) : List Byte := beBytes 1 0x81 ++ beBytes 1 203 ++ beBytes 2 1 ++ beBytes 4 ssrc

/-- The address of a stream's far end. -/
def Stream.addr (x : Stream) : Nat := addrOf (slice 16 16 x.desc)
/-- A datagram of a stream on its port, to the RTP port or the RTCP port above it, if the port is UP. -/
def State.streamOut (s : State) (x : Stream) (rtcp : Nat) (l : List Byte) : State :=
  let e := leAt x.desc 4 1
  if s.ethUp e then s.frameOut e x.addr (leAt x.desc 10 2 + rtcp) l else s

/-- A descriptor takes effect (R551, R552): UNUSED ends the stream with a BYE. -/
def State.streamSet (s : State) (i : Nat) (l : List Byte) : State :=
  let s1 := match s.stream i with
    | some x => if leAt l 0 1 = 0 then s.streamOut x 1 (byeBytes (leAt x.desc 12 4)) else s
    | none => s
  let s2 := s1.modPorts fun p => { p with streams := p.streams.filter (·.id != i) }
  if leAt l 0 1 = 0 then s2
  else
    let x := Stream.fresh i l (s.free 16).toNat
    (s2.modPorts fun p => { p with streams := p.streams ++ [x] }).nextFree

/-- The record of a stream (R554). -/
def Stream.record (x : Stream) : List Byte :=
  let rx := (x.rxHist.map (·.1)).flatten
  let frames := (x.rxHist.filter fun e => !e.1.isEmpty).length
  let mille := if frames = 0 then 0 else (x.rxHist.filter (·.2)).length * 1000 / frames
  leBytes 4 x.received ++ leBytes 4 x.sentN ++ leBytes 4 x.lost ++ leBytes 4 x.late ++ leBytes 4 x.concealed ++ leBytes 4 x.jitter ++
  leBytes 2 x.depth ++ leBytes 2 (Config.levelDbov 0 rx).toNat ++ leBytes 2 (Config.levelDbov 1 rx).toNat ++
  leBytes 2 (Config.levelDbov 2 x.txHist.flatten).toNat ++ leBytes 2 mille ++ leBytes 1 (boolNat x.voice) ++ leBytes 1 x.event ++
  leBytes 4 x.roundTrip ++ leBytes 8 x.lastTime ++ leBytes 4 x.ssrc ++ leBytes 4 x.dups ++ zeros 8

/-! ### Receiving (R553) -/

/-- The depth that a jitter in RTP units asks for. -/
def Stream.wantDepth (x : Stream) : Nat :=
  let c := codecClock (leAt x.desc 2 1)
  max (leAt x.desc 32 2) (min (leAt x.desc 34 2) (20 * ((2 * x.jitter + 20 * c + 20 * c - 1) / (20 * c))))

/-- A sequence number extended past its wraps, given the highest so far (RFC 3550). -/
def extendSeq (high seq : Nat) : Nat :=
  let d := (seq + 65536 - high % 65536) % 65536
  if d < 32768 then high + d else high - (65536 - d)

/-- Ten milliseconds of samples put into the frames of a jitter buffer, at half-tick `h`. -/
def putHalf (frames : List Frame) (h : Nat) (l : List Word16) : List Frame :=
  let t := h / 2
  let n := l.length
  let old := ((frames.find? (·.tick == t)).map (·.samples)).getD (List.replicate (2 * n) 0)
  let new := if h % 2 = 0 then l ++ old.drop n else old.take n ++ l
  frames.filter (·.tick != t) ++ [⟨t, new⟩]

/-- The halves of a packet, put one after the other. -/
def putHalves (ten : Nat) : Nat → List Frame → Nat → List Word16 → List Frame
  | 0, frames, _, _ => frames
  | n + 1, frames, h, l => if l.isEmpty then frames else putHalves ten n (putHalf frames h (l.take ten)) (h + 1) (l.drop ten)

/-- An RTP packet of a stream that its SSRC and payload type belong to (R553). -/
def State.rtpTaken (s : State) (x : Stream) (p : RtpPkt) : State :=
  let codec := leAt x.desc 2 1
  let g := leAt x.desc 5 1
  let wide := codecWide codec
  let groupWide := leAt (s.groupDesc g) 2 1 == 1
  let ext := match x.highSeq with
    | none => 65536 + p.seq.toNat
    | some h => extendSeq h p.seq.toNat
  if x.seen.contains ext then s.modStream x.id fun y => { y with dups := y.dups + 1, lastTime := s.now }
  else
    let lost := match x.highSeq with
      | none => 0
      | some h => if h < ext then x.lost + (ext - h - 1) else x.lost - 1
    let y : Stream := { x with received := x.received + 1, lost := lost, jitter := p.jitter.toNat, lastTime := s.now, ssrc := p.ssrc.toNat
                               silent := false, highSeq := some (max ext (x.highSeq.getD 0)), seen := (ext :: x.seen).take 65536 }
    let depth := if x.map.isNone then y.wantDepth else y.depth
    let start := match x.map with
      | some m => m
      | none => (p.ts.toNat, tickFrom (s.groupDesc g) (s.now + depth * 1000000))
    let units := 10 * codecClock codec
    let half : Int := 2 * (start.2 : Int) + signed 32 ((p.ts.toNat + 2 ^ 32 - start.1) % 2 ^ 32) / (units : Int)
    let z : Stream := { y with depth := depth, map := some start }
    if half < 0 ∨ s.tickTime g (half.toNat / 2) < s.now then s.modStream x.id fun _ => { z with late := z.late + 1 }
    else
      let raw := Config.codecDecode codec p.payload
      let l := if wide = groupWide then raw else Config.resample groupWide raw
      let ten := if groupWide then 160 else 80
      s.modStream x.id fun _ => { z with frames := putHalves ten 6 z.frames half.toNat l }

/-- RTP_PACKET: a packet of another payload type carries an RFC 4733 event (R551). -/
def execRtpPacket (st : StreamId) (p : RtpPkt) (s : State) : Host.Outcome State Fault Refusal :=
  .next (match s.stream st with
    | none => s
    | some x =>
      let e := leAt x.desc 4 1
      let s1 := s.bump regFramesRx e 1
      let mine := if leAt x.desc 40 4 = 0 then x.received = 0 ∨ x.ssrc = p.ssrc.toNat else leAt x.desc 40 4 = p.ssrc.toNat
      if !s.ethUp e then s
      else if !(leAt x.desc 1 1).testBit 0 then s1.frameDrop e
      else if ¬mine then s1
      else if p.pt.toNat ≠ leAt x.desc 3 1 then
        s1.modStream x.id fun y => { y with event := leAt p.payload 0 1, received := y.received + 1, lastTime := s.now, silent := false }
      else s1.rtpTaken x p)

/-- RTCP_PACKET: the far end's reports give the round-trip time in µs. -/
def execRtcpPacket (st : StreamId) (roundTrip : Word32) (s : State) : Host.Outcome State Fault Refusal :=
  .next (match s.stream st with
    | none => s
    | some x =>
      let e := leAt x.desc 4 1
      if s.ethUp e then (s.bump regFramesRx e 1).modStream x.id fun y => { y with roundTrip := roundTrip.toNat } else s)

/-- RTCP_INTERVAL_TIMER: every ACTIVE stream of the engine reports. -/
def execRtcpIntervalTimer (engine : Fin 2) (s : State) : Host.Outcome State Fault Refusal :=
  .next ((s.ports.streams.filter fun x => x.id / 8192 == engine.val).foldl (fun t x =>
    t.streamOut x 1 (Config.rtcpReport x.id (leBytes 4 (leAt x.desc 12 4) ++ x.record))) s)

/-- STREAM_TIMEOUT: the stream plays silence; event 0x0620 at most once per second, with the number of such streams. -/
def execStreamTimeout (st : StreamId) (s : State) : Host.Outcome State Fault Refusal :=
  .next (match s.stream st with
    | none => s
    | some x =>
      if x.silent ∨ !(leAt x.desc 1 1).testBit 0 then s
      else
        let s1 := s.modStream x.id fun y => { y with silent := true }
        let due := match s.ports.silentTime with
          | none => true
          | some t => t + 1000000000 ≤ s.now
        if due then
          (s1.modPorts fun p => { p with silentTime := some s.now }).event (portMaster (8 + x.id / 8192)) 0x0620
            (leBytes 4 (s1.ports.streams.filter (·.silent)).length)
        else s1)

/-! ### Ticks (R553, R556) -/

/-- The last second of a history of 20 ms frames. -/
def lastSecond {α : Type} (l : List α) : List α := l.take 50

/-- A frame is received (R554): it has voice if its RMS level exceeds the noise floor by 9 dB, or one of the ten frames before it did. -/
def Stream.heard (x : Stream) (l : List Word16) : Stream :=
  let loud := decide (x.floor + 900 < (Config.levelDbov 0 l).toInt)
  let voice := loud || 0 < x.hang
  { x with voice := voice, hang := if loud then 10 else x.hang - 1, floor := Config.noiseFloor x.floor l, last := l, misses := 0
           rxHist := lastSecond ((l, voice) :: x.rxHist) }

/-- What a stream plays at tick `t` (R553): the frame that is due, a repeat of the last one 3 dB lower for up to three, or silence; the
stream after it, and whether a frame was released.  A change of depth repeats or drops the first frame without voice. -/
def Stream.play (x : Stream) (t f : Nat) : Stream × List Word16 × Bool :=
  let quiet := List.replicate f (0 : Word16)
  let shift (d : Int) (y : Stream) : Stream :=
    { y with frames := y.frames.map (fun z => { z with tick := ((z.tick : Int) + d).toNat })
             map := y.map.map fun m => (m.1, ((m.2 : Int) + d).toNat) }
  match x.frames.find? (·.tick == t) with
  | some z =>
    let y := x.heard z.samples
    let voice := y.voice
    let rest : Stream := { y with frames := y.frames.filter (t < ·.tick) }
    if !voice ∧ x.depth < x.wantDepth then
      (shift 1 { y with depth := x.depth + 20, frames := y.frames.filter (t ≤ ·.tick) }, z.samples, true)
    else if !voice ∧ x.wantDepth < x.depth then
      match rest.frames.find? (·.tick == t + 1) with
      | some n =>
        let later := Stream.heard { x with depth := x.depth - 20, frames := rest.frames.filter (t + 1 < ·.tick) } n.samples
        (shift (-1) later, n.samples, true)
      | none => (rest, z.samples, true)
    else (rest, z.samples, true)
  | none =>
    let y : Stream := { x with rxHist := lastSecond (([], false) :: x.rxHist) }
    if x.silent ∨ x.map.isNone then (y, quiet, false)
    else if x.misses < 3 then
      let l := Config.attenuate x.last
      ({ y with last := l, misses := x.misses + 1, concealed := x.concealed + 1 }, l, false)
    else ({ y with concealed := x.concealed + 1 }, quiet, false)

/-- A sample in the FORMAT of a group. -/
def sampleBytes (fmt : Nat) (v : Word16) : List Byte :=
  if fmt = 1 then leBytes 2 v.toNat else leBytes (if fmt = 3 then 4 else 2) (Config.sampleTo fmt v).toNat

/-- The bytes of a block, frame by frame, given the samples of each slot (R556). -/
def blockBytes (d : List Byte) (slots : List (Nat × List Word16)) : List Byte :=
  ((List.range (groupF d)).map fun t => ((List.range (leAt d 4 2)).map fun c =>
    sampleBytes (leAt d 3 1) (((slots.lookup c).getD []).getD t 0)).flatten).flatten

/-- MEDIA_TICK: the RX block with what the jitter buffers release, the streams' records (R554), and the events for the movers (R331). -/
def execMediaTick (g : MediaGroup) (s : State) : Host.Outcome State Fault Refusal :=
  let d := s.groupDesc g
  let k := s.ports.ticks.getD g 0
  .next (if leAt d 0 1 = 0 then s
    else
      let rx := (s.groupStreams g).filter fun x => (leAt x.desc 1 1).testBit 0
      let played := rx.map fun x => (leAt x.desc 6 2, x.play k (groupF d))
      let s1 := played.foldl (fun t p => t.modStream p.2.1.id fun _ => p.2.1) s
      let s2 := if leAt d 8 8 = 0 then s1
        else
          let l := blockBytes d (played.map fun p => (p.1, p.2.2.1))
          ((s1.noteOutside (ringBlock d (leAt d 8 8) k) l.length).poke (ringBlock d (leAt d 8 8) k) l).bump regGroupTicks g 1
      let show_ (x : Stream) : Stream := if leAt x.desc 5 1 = g then { x with shown := x.record } else x
      let s3 := s2.modPorts fun p => { p with ticks := p.ticks.set g (k + 1), streams := p.streams.map show_ }
      let s4 := s3.moverMediaEvent true g
      (played.filter fun p => p.2.2.2).foldl (fun t p => t.moverMediaEvent false p.2.1.id) s4)

/-! ### Sending (R557) -/

/-- The samples of slot `c` of a block of a TX ring. -/
def blockSlot (d block : List Byte) (c : Nat) : List Word16 :=
  let w := groupW d
  (List.range (groupF d)).map fun t =>
    let v := leAt block ((t * leAt d 4 2 + c) * w) w
    if leAt d 3 1 = 1 then BitVec.ofNat 16 v else Config.sampleFrom (leAt d 3 1) (BitVec.ofNat 32 v)

/-- The RTP packet of a frame at tick `t` (RFC 3550). -/
def Stream.packet (x : Stream) (t : Nat) (payload : List Byte) : List Byte :=
  let ts := ((Config.rtpOffset x.id).toNat + t * 20 * codecClock (leAt x.desc 2 1)) % 2 ^ 32
  beBytes 1 0x80 ++ beBytes 1 (leAt x.desc 3 1) ++ beBytes 2 x.txSeq ++ beBytes 4 ts ++ beBytes 4 (leAt x.desc 12 4) ++ payload

/-- A stream sends its frame of tick `t`, encoded with its codec; a port that is down drops it (R564). -/
def State.streamSend (s : State) (d block : List Byte) (x : Stream) (t : Nat) : State :=
  let codec := leAt x.desc 2 1
  let raw := blockSlot d block (leAt x.desc 6 2)
  let wide := leAt d 2 1 == 1
  let l := if codecWide codec = wide then raw else Config.resample (codecWide codec) raw
  let s1 := s.modStream x.id fun y => { y with released := y.released.filter (t < ·) }
  if !s.ethUp (leAt x.desc 4 1) then s1
  else
    (s1.streamOut x 0 (x.packet t (Config.codecEncode codec l))).modStream x.id fun y =>
      { y with sentN := y.sentN + 1, txSeq := (y.txSeq + 1) % 65536, txHist := lastSecond (raw :: y.txHist) }

/-- The send point of a stream: it sends the frame if an audio entry covers it. -/
def State.streamSent (s : State) (d block : List Byte) (x : Stream) (t : Nat) : State :=
  if x.released.contains t then s.streamSend d block x t else s

/-- TX_SEND_POINT: 2 ms before the next tick, every slot that an audio entry covers. -/
def execTxSendPoint (g : MediaGroup) (s : State) : Host.Outcome State Fault Refusal :=
  let d := s.groupDesc g
  let t := s.ports.ticks.getD g 0
  .next (if leAt d 0 1 = 0 ∨ leAt d 16 8 = 0 then s
    else
      let n := groupF d * leAt d 4 2 * groupW d
      let block := (s.peek (ringBlock d (leAt d 16 8) t) n).getD []
      let tx := (s.groupStreams g).filter fun x => (leAt x.desc 1 1).testBit 1
      let sends (x : Stream) : Bool := x.released.contains t && s.ethUp (leAt x.desc 4 1)
      let still (x : Stream) : Stream := { x with txHist := lastSecond ([] :: x.txHist) }
      (tx.foldl (fun u x => (if sends x then u else u.modStream x.id still).streamSent d block x t)
        ((s.noteRead (ringBlock d (leAt d 16 8) t) n).noteOutside (ringBlock d (leAt d 16 8) t) n)).settle)

end Sys2Proof.Machine
end

