-- ==== Sys2Proof/Machine/Spanlinks.lean ====
section
/-! DEFINITION. The commands of the spanlink ports: training, retraining, notices of the peer, and packets that cross (R411, R492, R558
to R563). -/

namespace Sys2Proof.Machine

/-! ### Training (R411, R492, R559, R563) -/

/-- Lanes that a mask of 16 lacks. -/
def badOf (good : Nat) : List Nat := (List.range 16).filter (!good.testBit ·)

/-- The lanes of a port that are good and not retired. -/
def State.lanesGood (s : State) (p good : Nat) : Nat := ((List.range 16).filter fun l => good.testBit l && !(s.link p).badLanes.contains l).length

/-- What training measures of a port and its peer. -/
def State.linkMeasured (s : State) (p good serial peerPort cross : Nat) : State :=
  (((s.setReg regLaneGood p good).setReg regPeerSerial p serial).setReg regPeerPort p peerPort).setReg regTCross p cross

/-- The settings and the peer's SERIAL are saved (R492): event 0x0B15 when the saved SERIAL is not the peer's. -/
def State.linkSaved (s : State) (p serial : Nat) : State :=
  let s1 := if s.boot.saved.lookup p = some serial then s else s.supEvent 0x0B15 []
  (s1.modBoot fun b => { b with saved := (p, serial) :: b.saved.filter (·.1 != p) }).setReg regLinkSaved 0 (setBit (s.reg regLinkSaved 0) p)

/-- Spans that wait for a port go on with a new epoch once their ports reach every device again (R563). -/
def State.linkBack (s : State) (p : Nat) : State :=
  let waits (r : PauseReason) : Bool := (List.range 8).any fun q => r == .link q
  (s.portSpans p).foldl (fun t k =>
    let x := t.span k
    if x.devices ≤ t.peersReached k + 1 ∧ x.pauses.any waits then
      t.modSpan k fun q => { q with pauses := q.pauses.filter (!waits ·), epochDue := q.epochDue + 1 }
    else t) s

/-- A port goes UP with the lanes that are good. -/
def State.linkUp (s : State) (p good : Nat) : State :=
  (((s.setLanes p (lanesOf (s.lanesGood p good))).modLink p fun x => { x with replays := 0 }).setPortState p .up).linkBack p

/-- A port goes OFF because its peer is silent (R559). -/
def State.linkOff (s : State) (p : Nat) : State :=
  ((((s.setLanes p 0).modLink p fun x => { x with replays := 0 }).linkMeasured p 0 0 0xFF 0).setPortState p .off)

/-- A port that was UP leaves the service (R361, R563). -/
def State.linkLost (s : State) (p : Nat) : State := (((s.linkOff p).portGone p).linkBack p).settle

/-- First training ends (R411, R492, R559): each lane that is not good is retired after its three attempts; the port runs on the widest
width, or is retired. -/
def State.linkTrained (s : State) (p good serial peerPort cross : Nat) : State :=
  let fresh := (badOf good).filter fun l => !(s.link p).badLanes.contains l
  let s1 := fresh.foldl (fun t l => t.retireLane (portField p) l) (s.linkMeasured p good serial peerPort cross)
  if (s1.link p).state = .training then
    let s2 := (s1.linkUp p good).linkSaved p serial
    s2.supEvent 0x0612 (leBytes 1 (s2.link p).lanes)
  else s1

/-- Retraining ends (R559, R563): one occurrence for every lane it drops, and the port runs on what is left, or is retired. -/
def State.linkRetrained (s : State) (p good serial peerPort cross : Nat) : State :=
  let old := (s.link p).lanes
  let drops := (badOf good).filter fun l => !(s.link p).badLanes.contains l
  let s1 := drops.foldl (fun t l =>
    (t.modLink p fun x => { x with badLanes := x.badLanes ++ [l] }).chargeOpen (unitId 11 (portField p) l)) (s.linkMeasured p good serial peerPort cross)
  if (s1.link p).state ≠ .retraining then s1
  else if lanesOf (s1.lanesGood p good) < 8 then s1.retirePort p true
  else
    let s2 := (s1.linkUp p good).linkSaved p serial
    if (s2.link p).lanes < old then s2.supEvent 0x0614 [] else s2

/-- SPANLINK_TRAINING_DONE. -/
def execSpanlinkTrainingDone (p : LinkId) (answered : Bool) (goodLanes : BitVec 16) (serial : Word64) (peerPort : BitVec 8)
    (crossNs : Word32) (s : State) : Host.Outcome State Fault Refusal :=
  .next (match (s.link p).state, answered with
    | .training, true => (s.linkTrained p goodLanes.toNat serial.toNat peerPort.toNat crossNs.toNat).settle
    | .training, false => s.linkOff p
    | .retraining, true => (s.linkRetrained p goodLanes.toNat serial.toNat peerPort.toNat crossNs.toNat).settle
    | .retraining, false => s.linkLost p
    | _, _ => s)

/-! ### Leaving UP (R558, R559, R563) -/

/-- An UP port retrains: its bridged spans pause, or go on over their other ports. -/
def State.linkRetrain (s : State) (p : Nat) : State :=
  let s1 := (s.modLink p fun x => { x with replays := 0 }).setPortState p .retraining
  (((s1.bump regSpanlinkRetrains p 1).supEvent 0x0613 []).portDown p).settle

/-- SPANLINK_FLIT_REPLAY: after the fourth failed replay of a flit the port retrains. -/
def execSpanlinkFlitReplay (p : LinkId) (failed : Bool) (s : State) : Host.Outcome State Fault Refusal :=
  .next (if (s.link p).state ≠ .up then s
    else
      let s1 := s.bump regSpanlinkReplays p 1
      if !failed then s1.modLink p fun x => { x with replays := 0 }
      else if 3 ≤ (s.link p).replays then s1.linkRetrain p
      else s1.modLink p fun x => { x with replays := x.replays + 1 })

/-- SPANLINK_FAULT: loss of lock. -/
def execSpanlinkFault (p : LinkId) (s : State) : Host.Outcome State Fault Refusal :=
  .next (if (s.link p).state = .up then s.linkRetrain p else s)

/-- SPANLINK_RETRAIN_TIMEOUT: the peer has been silent for 5 ms. -/
def execSpanlinkRetrainTimeout (p : LinkId) (s : State) : Host.Outcome State Fault Refusal :=
  .next (if (s.link p).state = .retraining then s.linkLost p else s)

/-- SPANLINK_PEER_NOTICE: the peer has narrowed, or retired its port. -/
def execSpanlinkPeerNotice (p : LinkId) (retired : Bool) (s : State) : Host.Outcome State Fault Refusal :=
  let st := (s.link p).state
  .next (if retired then
      if st = .retired ∨ st = .fused then s else ((s.supEvent 0x0615 []).retirePort p false).settle
    else if st = .up then s.linkRetrain p
    else s)

/-! ### Packets that cross (R561, R562) -/

/-- May a packet cross a spanlink (R561)?  CONTROL crosses between supervisors. -/
def mayCross (ty master : Nat) : Bool :=
  [tyRows, tySignal, tyCollData, tyArrive, tyReport, tyRelease, tyAdvance, tyAbort, tyOpen, tySlip, tyReadback, tyReadData, tyAck, tyNack].contains ty ||
  (ty == tyControl && master / 256 == 5)

/-- Types that the receiving port multicasts to its device's members (R562). -/
def crossMulticast (ty : Nat) : Bool := [tyAdvance, tyAbort, tyOpen, tyRelease, tySlip].contains ty

/-- The flits of a packet: one header, and 1 to 8 data flits of the types that carry data (R283; LEN is no operand of the command). -/
def State.flitCount (s : State) (ty : Nat) : Nat :=
  if ty = tyRows ∨ ty = tyCollData ∨ ty = tyReadData then 2 + (s.free 3).toNat else 1

/-- The field that ADDRESS bits [35:31] name (R562). -/
def crossField (addr : Nat) : Nat := bits addr 31 5

/-- What a packet that crosses is for on the peer device: a response for the port that sent the request, CONTROL for the supervisor. -/
def crossDst (p ty addr : Nat) : Dest := if isResponse ty then .master (0x600 + 8 * p) else .addr addr

/-- A packet as it leaves through a port, on the viaduct channel that lands at the router to which it was routed (R280). -/
def State.crossing (s : State) (p ty tag : Nat) (k : Pkt) (addr : Nat) : Emission :=
  .packet { master := k.master.toNat, vc := typeVc ty, latency := s.latencyOf k.span.toNat, timetabled := false, resent := false, gen := s.genNow
            src := ⟨k.srcUnit, k.src⟩, dst := some ⟨unLink, k.dst⟩, viaduct := some (p, (landings p).findIdx (· == k.dst.val)) }
    ty k.span.toNat k.epoch.toNat k.step.toNat k.attempt.toNat (crossDst p ty addr) 0 [tag, addr]

/-- The TAGs a port keeps once it has taken in one more packet, and the new TAG; with 4,096 kept, the oldest whose packet R283 does not
answer gives way, and there is none if all wait for an answer. -/
def Spanlink.newTag (x : Spanlink) (tag : Nat) (answered : Bool) : Option (List (Nat × Nat × Bool) × Nat) :=
  let room := if x.tags.length < 4096 then some x.tags else (x.tags.find? (!·.2.2)).map x.tags.erase
  room.map fun l =>
    let new := ((List.range 4096).find? fun t => !l.any (·.2.1 == t)).getD 0
    (l ++ [(tag, new, answered)], new)

/-- A packet from the peer is re-injected at a landing router (R562): MASTER, source and TAG are the port's own.  Which channel a STREAM packet
has come by is open, since its place in its transfer is (R280). -/
def State.inject (s : State) (p ty : Nat) (k : Pkt) (addr tag : Nat) (dst : Dest) : State :=
  let e := s.ends (unLink, if typeVc ty = 2 then [landing p (s.free 2).toNat] else landings p) ty k.span.toNat 0 dst
  let h : Head :=
    { master := 0x600 + 8 * p + k.span.toNat % 8, vc := typeVc ty, latency := s.latencyOf k.span.toNat, timetabled := false, resent := false
      gen := s.genNow, src := e.1, dst := e.2.1, viaduct := some (p, (landings p).findIdx (· == e.1.router)) }
  (s.emit (.packet h ty k.span.toNat k.epoch.toNat k.step.toNat k.attempt.toNat dst 0 [tag, addr])).nextFree

/-- A packet from the peer comes in (R562): the types of the step protocol go to every member here, the others to the pier of the field that
ADDRESS names, and CONTROL to the supervisor.  A packet that finds no free TAG waits. -/
def State.crossIn (s : State) (p ty : Nat) (k : Pkt) (addr : Nat) : State :=
  if isResponse ty then s.inject p ty k addr k.tag.toNat (.pier (crossField addr))
  else match (s.link p).newTag k.tag.toNat (ty == tyReadback) with
    | none => s.modLink p fun y => { y with waiting := y.waiting ++ [(ty, k, addr)] }
    | some n =>
      let s2 := s.modLink p fun y => { y with tags := n.1 }
      if ty = tyControl then s2.inject p ty k addr n.2 (.master s.supervisor)
      else if crossMulticast ty then (s.span k.span.toNat).here.foldl (fun t f => t.inject p ty k addr n.2 (.pier f)) s2
      else s2.inject p ty k addr n.2 (.pier (crossField addr))

/-- A TAG of a port is free: the packet that has waited longest for one comes in. -/
def State.crossWaiting (s : State) (p : Nat) : State :=
  match (s.link p).waiting with
  | [] => s
  | w :: r => (s.modLink p fun y => { y with waiting := r }).crossIn p w.1 w.2.1 w.2.2

/-- A packet leaves through a port: a response takes back the TAG of its request. -/
def State.crossOut (s : State) (p ty : Nat) (k : Pkt) (addr : Nat) : State :=
  let s1 := (s.bump regFlitsTx p (s.flitCount ty)).nextFree
  if isResponse ty then
    match (s.link p).tags.find? (·.2.1 == k.tag.toNat) with
    | none => s1
    | some t => ((s1.modLink p fun x => { x with tags := x.tags.erase t }).emit (s1.crossing p ty t.1 k addr)).crossWaiting p
  else s1.emit (s1.crossing p ty k.tag.toNat k addr)

/-- The traffic that crosses belongs to a bridged span, or is CONTROL (R561). -/
def State.crosses (s : State) (ty : Nat) (k : Pkt) : Bool :=
  mayCross ty k.master.toNat && (ty == tyControl || (k.span.toNat < 8 && Nat.blt 1 (s.span k.span.toNat).devices))

/-- A packet from the peer that may not cross is answered NACK ABSENT over the link that it came by. -/
def State.crossRefused (s : State) (p : Nat) (k : Pkt) : State :=
  s.emit (.packet { master := k.master.toNat, vc := typeVc tyNack, latency := s.latencyOf k.span.toNat, timetabled := false, resent := false
                    gen := s.genNow, src := ⟨unLink, (landings p).headD 0⟩, dst := none, viaduct := some (p, 0) }
    tyNack k.span.toNat k.epoch.toNat k.step.toNat k.attempt.toNat (.master k.master.toNat) nackAbsent [k.tag.toNat])

/-- A packet at a port: what may not cross is answered NACK ABSENT; a local master needs W at the port (R362). -/
def State.cross (s : State) (p : Nat) (inbound : Bool) (ty : Nat) (k : Pkt) (addr : Nat) : State :=
  let master := k.master.toNat
  if inbound then
    let s1 := (s.bump regFlitsRx p (s.flitCount ty)).nextFree
    if s.crosses ty k then s1.crossIn p ty k addr else s1.crossRefused p k
  else if !s.crosses ty k then s.answer k tyNack nackAbsent []
  else if !isResponse ty && !s.granted (targetLink p) master k.span.toNat .w [] then
    (s.violation (targetLink p) master k.span.toNat .w 0).answer k tyNack nackAccess []
  else s.crossOut p ty k addr

/-- SPANLINK_PACKET: one that leaves has come over the mesh to the port. -/
def execSpanlinkPacket (p : LinkId) (inbound : Bool) (type : BitVec 8) (k : Pkt) (addr : BitVec 48) (s : State) :
    Host.Outcome State Fault Refusal :=
  let ty := type.toNat
  .next (if (s.link p).state ≠ .up then s
    else if inbound then s.cross p true ty k addr.toNat
    else s.carried ty (s.flitCount ty) k fun t => t.cross p false ty k addr.toNat)

end Sys2Proof.Machine
end

