-- ==== Sys2Proof/Machine/Module.lean ====
section
/-! DEFINITION. The module: reset, leak, coolant and the boundary scan of the JTAG port (R571 to R583). -/

namespace Sys2Proof.Machine

/-! ### Reset and leak (R571, R577) -/

/-- MOD_RESET_N asserted for 10 µs or more: as loss of input power. -/
def execModResetN (s : State) : Host.Outcome State Fault Refusal := .next (if s.boot.powered then s.powerOff else s)

/-- LEAK_DETECT. -/
def execLeakDetect (s : State) : Host.Outcome State Fault Refusal :=
  .next (if !s.boot.powered ∨ s.reg regLeak 0 = 1 then s
    else ((s.setReg regLeak 0 1).supEvent 0x090B []).showPins s)

/-! ### Coolant (R576, R578, R582) -/

/-- The flow readings of the last second in mL/min. -/
def State.flowsRead (s : State) : List Nat := s.supply.flows.filterMap id
/-- Has the flow sensor given no reading for 1 s? -/
def State.flowFailed (s : State) : Bool := s.supply.flows.length == 10 && s.flowsRead.isEmpty
/-- The flow term as mW, numerator and denominator: 656.25 W for each L/min; 6.0 kW when the sensor has failed. -/
def State.flowTerm (s : State) : Nat × Nat :=
  if s.flowFailed then (6000000, 1) else (2625 * s.flowsRead.sum, 4 * s.flowsRead.length)
/-- The inlet term in mW: 12.5 kW less 0.4 kW for each kelvin above 40 °C. -/
def inletTerm (milli : Int) : Nat := (12500000 - 400 * (if 40000 < milli then milli - 40000 else 0)).toNat

/-- The lowest value of the rule in mW, as numerator and denominator, and which of the inlet and flow terms is it. -/
def State.coolantRule (s : State) (inlet : Int) : (Nat × Nat) × Bool × Bool :=
  let cap := 1000 * s.reg regPowerCap 0
  let t := inletTerm inlet
  let f := s.flowTerm
  let known := f.2 != 0
  let byFlow := known && (s.flowFailed || f.1 < cap * f.2) && f.1 ≤ t * f.2
  let byInlet := t < cap && (!known || t * f.2 ≤ f.1)
  (if byFlow then f else if byInlet then (t, 1) else (cap, 1), byInlet, byFlow)

/-- The effective cap takes a value in W: a change of more than 1 % is counted at most once per second (R58). -/
def State.setEffective (s : State) (w : Nat) : State :=
  let old := s.reg regEffectiveCap 0
  let s1 := s.setReg regEffectiveCap 0 w
  let due := match s.supply.genTime with
    | none => true
    | some t => t + 1000000000 ≤ s.now
  if old < 100 * (max w old - min w old) ∧ due = true then (s1.modSupply fun p => { p with genTime := some s.now }).changed else s1

/-- Terms that begin or cease to limit the cap: events 0x0909, 0x090A and 0x090C. -/
def State.noteLimits (s : State) (byInlet byFlow : Bool) : State :=
  let old := s.supply.limitedBy
  let s1 := if byInlet && !old.1 then s.supEvent 0x0909 [] else s
  let s2 := if byFlow && !old.2 then s1.supEvent 0x090A [] else s1
  if byInlet || byFlow then s2.modSupply fun p => { p with limitedBy := (old.1 || byInlet, old.2 || byFlow) }
  else if old.1 || old.2 then (s2.modSupply fun p => { p with limitedBy := (false, false) }).supEvent 0x090C []
  else s2

/-- The effective cap is set while COOLANT_CAP is 1, and is never below 6.0 kW; how a part of a watt is rounded is open. -/
def State.coolantCap (s : State) (inlet : Int) : State :=
  if s.reg regCoolantCap 0 = 1 then
    let r := s.coolantRule inlet
    let den := 1000 * r.1.2
    let up := if r.1.1 % den = 0 then 0 else (s.free 1).toNat
    ((s.nextFree.modSupply fun p => { p with starved := Nat.blt r.1.1 (6000 * den) }).setEffective (max 6000 (r.1.1 / den + up))).noteLimits
      r.2.1 r.2.2
  else ((s.modSupply fun p => { p with starved := false }).setEffective (s.reg regPowerCap 0)).noteLimits false false

/-- The three measurements of R583; the mean flow when no reading has come for 1 s is open. -/
def State.coolantMeasured (s : State) (inlet outlet : Int) : State :=
  let l := s.flowsRead
  let mean := if l.isEmpty then (s.free 32).toNat else f32Ratio false l.sum (1000 * l.length)
  (((s.setReg regCoolantInlet 0 (f32Milli inlet)).setReg regCoolantOutlet 0 (f32Milli outlet)).setReg regCoolantFlow 0 mean).nextFree

/-- COOLANT_SAMPLE: inlet and outlet in m°C, the flow in mL/min unless its sensor gives no reading. -/
def execCoolantSample (inlet outlet : Word32) (flow : Option Word32) (s : State) : Host.Outcome State Fault Refusal :=
  .next (if !s.boot.powered then s
    else
      let s1 := s.modSupply fun p => { p with flows := (flow.map BitVec.toNat :: p.flows).take 10 }
      ((s1.coolantMeasured inlet.toInt outlet.toInt).coolantCap inlet.toInt).showPins s)

/-! ### JTAG (R574) -/

/-- IDCODE (R574, R588). -/
def State.idcode (s : State) : Nat :=
  bits (s.reg regHwRevision 0) 4 4 * 2 ^ 28 + 0x0C30 * 2 ^ 12 + 0xA * 2 ^ 8 + 0x3D * 2 + 1

/-- BYPASS is selected: one bit, captured as 0 under IEEE 1149.1. -/
def State.jtagBypass (s : State) : State := ({ s with jtag := { s.jtag with instr := 0, drives := false } }).emit (.jtag 1 0)

/-- Do EXTEST and CLAMP take effect? -/
def State.jtagFree (s : State) : Bool := s.reg regJtagDiag 0 == 1 && (List.range 8).all fun k => (s.span k).state == .unused

/-- BYPASS. -/
def execBypass (s : State) : Host.Outcome State Fault Refusal := .next s.jtagBypass

/-- IDCODE. -/
def execIdcode (s : State) : Host.Outcome State Fault Refusal :=
  .next (({ s with jtag := { s.jtag with instr := 1, drives := false } }).emit (.jtag 32 s.idcode))

/-- SAMPLE/PRELOAD: the boundary cells take the levels of the pins, which are shifted out, or the value that is preloaded. -/
def execSamplePreload (preload : Option Word64) (s : State) : Host.Outcome State Fault Refusal :=
  .next (match preload with
    | some v => { s with jtag := { instr := 2, cells := v.toNat, drives := false } }
    | none =>
      let v := (s.free 64).toNat
      (({ s with jtag := { instr := 2, cells := v, drives := false } }).emit (.jtag 64 v)).nextFree)

/-- EXTEST: the boundary cells drive the pins. -/
def execExtest (s : State) : Host.Outcome State Fault Refusal :=
  .next (if s.jtagFree then { s with jtag := { s.jtag with instr := 3, drives := true } } else s.jtagBypass)

/-- CLAMP: the boundary cells hold the pins, and the bypass register is selected. -/
def execClamp (s : State) : Host.Outcome State Fault Refusal :=
  .next (if s.jtagFree then ({ s with jtag := { s.jtag with instr := 4, drives := true } }).emit (.jtag 1 0) else s.jtagBypass)

end Sys2Proof.Machine
end

