-- ==== Sys2Proof/Machine/DictView.lean ====
section
/-! DEFINITION. What the read-only objects of the dictionary show: state codes, records, the capacity record and SUMMARY (R57 to R61, R414,
R508, R520). -/

namespace Sys2Proof.Machine

/-! ### State codes -/

/-- R14, R520. -/
def FieldState.code : FieldState → Nat
  | .dark => 0 | .waking => 1 | .ready => 2 | .serving => 3 | .testing => 4 | .drawbridge => 5 | .retired => 6
/-- R474. -/
def PierPower.code : PierPower → Nat
  | .off => 0 | .deferred => 1 | .staging => 2 | .on => 3 | .heatOff => 4 | .retired => 5 | .fused => 6
/-- R198. -/
def SeqState.code : SeqState → Nat
  | .empty => 0 | .loaded => 1 | .prologue => 2 | .waiting => 3 | .running => 4 | .committing => 5 | .aborting => 6
/-- R270. -/
def ChannelState.code : ChannelState → Nat
  | .off => 0 | .training => 1 | .testing => 2 | .online => 3 | .retraining => 4 | .retired => 5 | .fused => 6
/-- R260. -/
def SetState.code : SetState → Nat
  | .unused => 0 | .online => 1 | .untested => 2 | .degraded => 3 | .failed => 4
/-- R301. -/
def LinkState.code : LinkState → Nat
  | .online => 0 | .repairing => 1 | .retired => 2 | .absent => 3
/-- R559. -/
def PortState.code : PortState → Nat
  | .off => 0 | .training => 1 | .up => 2 | .retraining => 3 | .retired => 4 | .fused => 5
/-- R541. -/
def EthState.code : EthState → Nat
  | .down => 0 | .training => 1 | .up => 2 | .fault => 3
/-- R501. -/
def UpdateState.code : UpdateState → Nat
  | .idle => 0 | .staging => 1 | .staged => 2 | .scheduled => 3 | .activating => 4 | .swapping => 5 | .rollingBack => 6
/-- R497. -/
def FwBank.code : FwBank → Nat
  | .empty => 0 | .staging => 1 | .staged => 2 | .active => 3 | .retained => 4 | .failed => 5
/-- 0x7000.01. -/
def RefState.code : RefState → Nat
  | .locked false => 0 | .locked true => 1 | .holdover => 2
/-- R522. -/
def SlotState.code : SlotState → Nat
  | .idle => 0 | .busy => 1 | .done => 2 | .malformed => 3

/-! ### Fields, towers and ports -/

/-- OP_LIMITS (R481): the limits below the phase's request. -/
def State.opLimits (s : State) (f : Nat) : Nat :=
  let p := (s.field f).power
  packBools [s.reg regCapLimit 0 < p.phasePoint, p.cellLimit < p.phasePoint, p.thermalLimit < p.phasePoint,
    p.admissionLimit < p.phasePoint, s.forcedLow && p.phasePoint != 0]
/-- PLL_STATE: 0 locked, 1 relocking, 2 holdover. -/
def State.pllState (s : State) (f : Nat) : Nat :=
  if (s.field f).clock.relocking then 1 else if s.clocks.refState = .holdover then 2 else 0
/-- OP_TABLE (R465, R481). -/
def State.opTable (s : State) (f : Nat) : List Byte :=
  ((List.range 8).map fun p => leBytes 2 (s.pointMhz f p) ++ leBytes 2 (s.fusedMv f p) ++ leBytes 2 (s.pointAmps f p) ++ zeros 2).flatten
/-- TOWER_STATE: 0 present, 1 FUSED, 2 every channel RETIRED. -/
def State.towerState (s : State) (t : Nat) : Nat :=
  if s.towerFused t then 1 else if (towerChannels t).all fun c => (s.channel c).state == .retired then 2 else 0
/-- CHANNEL_STATE. -/
def State.channelStates (s : State) (t : Nat) : List Byte := items1 ((towerChannels t).map fun c => (s.channel c).state.code)
/-- LINK_STATE. -/
def State.linkStates (s : State) (r : Nat) : List Byte := items1 ((List.range 4).map fun d => (s.linkState r d).code)
/-- Lanes in use of a spanlink port: none unless it is UP or RETRAINING. -/
def State.lanesUsed (s : State) (p : Nat) : Nat :=
  if (s.link p).state = .up ∨ (s.link p).state = .retraining then (s.link p).lanes else 0
/-- The largest field error at the last beacons in ps (R449), saturating. -/
def State.maxFieldError (s : State) : Nat :=
  let e := s.fields.foldl (fun m x => match x.clock.errors.head? with
    | some v => if m.natAbs < v.natAbs then v else m
    | none => m) (0 : Int)
  toTwos 32 (satInt 32 e)
/-- NO_RATE (R450). -/
def State.noRate (s : State) : Nat := packBools (s.fields.map fun x => x.clock.errors.length < 16)
/-- TIMEBASE_STATUS; the master runs in the active supervisor's field (R447). -/
def State.timebaseStatus (s : State) : Nat :=
  packBools [s.clocks.refState == .holdover, s.clocks.ptpLocked, s.clocks.ptpOnce, s.control.activeB]
/-- REF_STATUS. -/
def State.refStatus (s : State) : Nat := packBools (s.clocks.good.take 4)

/-! ### The capacity record (R414) -/

/-- Is a pier in service? -/
def State.pierServes (s : State) (f : Nat) : Bool := (s.field f).power.state != .retired && (s.field f).power.state != .fused
/-- Is a channel in service? -/
def State.channelUsable (s : State) (c : Nat) : Bool := (s.channel c).state != .retired && (s.channel c).state != .fused
/-- CAPACITY: 65,536 × 2 operations at 800 MHz for each pier, 192 GB/s for each channel and 409.6 GB/s for each link (R8). -/
def State.capacity (s : State) : List Byte :=
  let piers := (List.range 30).map s.pierServes
  let chans := ((List.range 192).filter fun c => (s.channel c).state == .online).length
  leBytes 4 (packBools piers) ++ leBytes 4 (packBools ((List.range 30).map fun f => s.reg regPierStatus f == 1)) ++
  leBytes 4 (packBools (s.fields.map fun x => x.state == .retired)) ++
  leBytes 4 (packBools ((List.range 24).map fun t => (towerChannels t).any s.channelUsable)) ++ leBytes 1 chans ++
  leBytes 1 ((List.range 8).filter fun p => (s.link p).state == .up).length ++ items1 ((List.range 8).map s.lanesUsed) ++
  leBytes 1 ((List.range 8).filter s.ethUp).length ++ leBytes 1 (1 + boolNat s.control.standby) ++
  leBytes 4 (f32Ratio false ((piers.filter id).length * 1048576) 10000000) ++ leBytes 4 (f32Ratio false (chans * 192) 1000) ++
  leBytes 4 (f32Ratio false (s.bisection * 4096) 10000) ++
  leBytes 4 ((List.range 30).map fun f => popCount 16 (s.reg regRegCellsRetired f)).sum ++ zeros 20

/-! ### SUMMARY (R61, R520) -/

/-- The record of a field. -/
def State.fieldRecord (s : State) (f : Nat) : List Byte :=
  let x := s.field f
  items1 [x.state.code, x.power.state.code, x.logical, (s.spanOf f).getD 0xFF, x.seq.state.code, s.wantPoint f, s.opLimits f,
    s.reg regPierStatus f] ++
  leBytes 2 (s.ceiling f) ++ leBytes 2 (x.clock.aclk / 1000) ++ leBytes 2 (s.reg regRegCellsRetired f) ++ items1 [s.pllState f, 0]

/-- The record of a span (R61).  DESIGN CHOICE: its number of piers counts the members on every device of a bridged span, and no spare
(notes/assumptions/77). -/
def State.spanRecord (s : State) (k : Nat) : List Byte :=
  let p := s.span k
  items1 [k, p.state.code, s.reg regSpanClass k, p.epoch, p.anchor, p.members.length, s.reg regCheckProfile k,
    packBools [p.devices != 1, p.spare.isSome]] ++
  leBytes 8 (s.reg regCommittedStep k) ++ leBytes 8 (s.reg regKeystoneTime k) ++ leBytes 4 (s.reg regAbortCount k) ++ zeros 4

/-- The record of a tower. -/
def State.towerRecord (s : State) (t : Nat) : List Byte :=
  items1 [s.towerState t, s.reg regErasedDie t, (s.tower t).result, 0] ++ s.channelStates t ++ leBytes 4 (s.reg regTemperature t)

/-- The record of a spanlink port. -/
def State.linkRecord (s : State) (p : Nat) : List Byte :=
  items1 [(s.link p).state.code, s.lanesUsed p, 0, 0] ++ leBytes 4 (s.reg regPeerSerial p)

/-- ACTIVATION_PROGRESS: fields on the new build, the standby, the active supervisor. -/
def State.activationProgress (s : State) : Nat :=
  packBools (s.fields.map (·.newBuild)) + (if s.boot.onNew (!s.control.activeB) then 2 ^ 30 else 0) +
  (if s.boot.onNew s.control.activeB then 2 ^ 31 else 0)

/-- The running build of component kind `k` (R494, R537): that of the boot bank's image, 0 for a kind it does not hold; in an activation
that of the new image once the active supervisor, or for the other kinds every field, runs it (notes/assumptions/26). -/
def State.runningBuild (s : State) (k : Nat) : Nat :=
  let fresh := if k = 1 then s.boot.onNew s.control.activeB else s.fields.all (·.newBuild)
  let l := s.read (bankKey (s.boot.bootB != fresh)) 256
  match (components l).find? fun c => leAt c 0 1 == k with
  | some c => leAt c 12 4
  | none => 0

/-- The 1,856 bytes of SUMMARY. -/
def State.summary (s : State) : List Byte :=
  let flags := packBools [s.clocks.refState == .holdover, s.clocks.ptpLocked, s.forcedLow, s.reg regGuardBand 0 == 1]
  withCrc
    (leBytes 4 0x4D53594F ++ leBytes 2 1 ++ zeros 2 ++ leBytes 4 1856 ++ zeros 4 ++ leBytes 8 (s.reg regGeneration 0) ++ leBytes 8 s.now ++
      leBytes 8 s.recorder.lastSeq ++ items1 [s.boot.code, boolNat s.control.activeB, s.boot.update.code, flags] ++
      leBytes 4 s.bootBank.build ++ leBytes 4 s.otherBank.build ++ leBytes 4 (s.reg regTestPackVersion 0) ++
      leBytes 4 (s.reg regPowerCap 0) ++ items1 [s.reg regCapLimit 0, 0, 0, 0] ++ ((List.range 30).map s.fieldRecord).flatten ++
      ((List.range 8).map s.spanRecord).flatten ++ ((List.range 24).map s.towerRecord).flatten ++
      ((List.range 120).map s.linkStates).flatten ++ ((List.range 8).map s.linkRecord).flatten ++ s.capacity ++
      ((List.range 8).map fun k => leBytes 4 (s.runningBuild (k + 1))).flatten ++ leBytes 4 s.activationProgress ++ zeros 24)

/-! ### Objects -/

/-- Are two objects rows of one family? -/
def Obj.same (o x : Obj) : Bool := o.index == x.index && o.sub == x.sub

/-- The object that an index and a subindex name, with the offsets into its family (R18, R508). -/
def findObj (index sub : Nat) : Option (Obj × Nat × Nat) :=
  match catalogue.find? fun o => o.index ≤ index && index < o.index + o.count && o.sub ≤ sub && sub < o.sub + o.subs with
  | none => none
  | some o => if o.index = 0x5800 ∧ !targetExists (index - 0x5800) then none else some (o, index - o.index, sub - o.sub)

/-- The highest subindex of an index, if it holds objects (R508). -/
def highestSub (index : Nat) : Option Nat :=
  match (catalogue.filter fun o => o.index ≤ index && index < o.index + o.count && (o.index != 0x5800 || targetExists (index - 0x5800))).map
      fun o => o.sub + o.subs - 1 with
  | [] => none
  | l => some (l.foldl max 0)

/-- The text of a STR value: its bytes up to the last that is not 0. -/
def strBytes (v : List Byte) : List Byte := (v.reverse.dropWhile (· == 0)).reverse

/-- The value of a per-master object for a master (R427, R517). -/
def State.perMaster (s : State) (m : Nat) (o : Obj) : Nat := (s.control.perMaster.lookup (m, o.key 0 0)).getD o.dflt

/-- Entries of the history of the unit selected (R418). -/
def State.unitHistory (s : State) (u : Nat) : List Byte :=
  padTo 48 (((s.faults.history.lookup u).getD []).map fun e => leBytes 4 e.opTime ++ leBytes 1 e.span ++ zeros 3 ++ leBytes 8 e.step).flatten

/-- Objects that show a physical measurement or a count for which the spec gives the model no event: their bytes are free values at each
read (notes/assumptions/5). -/
def freeObjs : List Obj :=
  [regMaxWait, regInputVoltage, regFieldPower, regCellCurrent, regPower, regFecCorrected, regFecUncorrected, regSpanlinkFec,
   regPcieAerErrors]

/-- FLITS_OUT (R317): on each port, the flits of the packets that commands bring, and an open number of others, those of transfers that no
command brings packet by packet (notes/assumptions/5). -/
def State.viewFlits (s : State) (r : Nat) : List Byte :=
  let l := leBytes 64 (s.reg regFlitsOut r)
  ((List.range 8).map fun p => leBytes 8 (satAdd 8 (leAt l (8 * p) 8) ((s.free 256).toNat / 2 ^ (32 * p) % 2 ^ 32))).flatten

/-- What a view of a field shows (R14, R57, R156, R198, R342, R465, R474). -/
def State.viewField (s : State) (o : Obj) (f : Nat) : Option (List Byte) :=
  let x := s.field f
  if o.same regBankState then some (items1 (x.banks.map fun b => b.state.code))
  else if o.same regSeqState then some (items1 [x.seq.state.code])
  else if o.same regMoverState then some (items1 (x.movers.map fun m => m.state.code))
  else if o.same regSpinCycles then some (leBytes 8 (satAdd 8 (s.reg regSpinCycles f) (s.spinUncounted f)))
  else if o.same regAclkFreq then some (leBytes 4 x.clock.aclk)
  else if o.same regPllState then some (items1 [s.pllState f])
  else if o.same regPierPower then some (items1 [x.power.state.code])
  else if o.same regOpEffective then some (items1 [s.wantPoint f])
  else if o.same regOpLimits then some (items1 [s.opLimits f])
  else if o.same regOpTable then some (s.opTable f)
  else if o.same regOpCeiling then some (leBytes 2 (s.ceiling f))
  else none

/-- What a view of a span shows (R57, R370). -/
def State.viewSpan (s : State) (o : Obj) (k : Nat) : Option (List Byte) :=
  let p := s.span k
  if o.same regSpanState then some (items1 [p.state.code])
  else if o.same regAnchorField then some (items1 [p.anchor])
  else if o.same regRecordAddrA then some (leBytes 8 p.addrA)
  else if o.same regRecordAddrB then some (leBytes 8 p.addrB)
  else if o.same regMembers then some (items1 (p.members.map fun m => [m.1, m.2]).flatten)
  else if o.same regReqQueue then some (leBytes 8 p.reqQueue)
  else if o.same regOutQueue then some (leBytes 8 p.outQueue)
  else if o.same regBindings then some (leBytes 2 p.bindings.length)
  else none

/-- What a view of a tower, a set, a router, a port or a link shows. -/
def State.viewPort (s : State) (o : Obj) (i : Nat) : Option (List Byte) :=
  if o.same regTowerState then some (items1 [s.towerState i])
  else if o.same regChannelState then some (s.channelStates i)
  else if o.same regTestResult then some (items1 [(s.tower i).result])
  else if o.same regSetState then some (items1 [(s.set i).state.code])
  else if o.same regLinkState then some (s.linkStates i)
  else if o.same regDetourTable then some (padTo 120 (items1 (s.router i).table))
  else if o.same regEthState then some (items1 [(s.eth i).state.code])
  else if o.same regEthMac then some (beBytes 6 (2 + i))
  else if o.same regSpanlinkState then some (items1 [(s.link i).state.code])
  else if o.same regSpanlinkLanes then some (items1 [s.lanesUsed i])
  else none

/-- What a view of the device shows. -/
def State.viewDevice (s : State) (o : Obj) : Option (List Byte) :=
  if o.same regActiveSupervisor then some (items1 [boolNat s.control.activeB])
  else if o.same regCapacity then some s.capacity
  else if o.same regRetirementMap then some (s.mapUnits.map fun e => leBytes 4 e.1).flatten
  else if o.same regFirstSeq then some (leBytes 8 s.recorder.firstSeq)
  else if o.same regLastSeq then some (leBytes 8 s.recorder.lastSeq)
  else if o.same regDieFirstSeq then some (leBytes 8 s.recorder.dieFirstSeq)
  else if o.same regRefSelected then some (items1 [s.clocks.refState.code])
  else if o.same regRefStatus then some (items1 [s.refStatus])
  else if o.same regDeviceTime then some (leBytes 8 s.now)
  else if o.same regTimebaseStatus then some (leBytes 2 s.timebaseStatus)
  else if o.same regMaxFieldError then some (leBytes 4 s.maxFieldError)
  else if o.same regNoRate then some (leBytes 4 s.noRate)
  else if o.same regAlertState then some (items1 [boolNat s.forcedLow])
  else if o.same regEnergy then some (leBytes 8 (s.supply.energy / 1000000000))
  else if o.same regOperatingTime then some (leBytes 4 s.opSeconds)
  else if o.same regZoneCurrent then some (s.supply.zones.map fun (z : Nat) => leBytes 4 (f32Milli z)).flatten
  else if o.same regStreamsActive then some (leBytes 2 s.ports.streams.length)
  else if o.same regKeysPresent then some (items1 [packBools (s.control.keys.map (!·.isEmpty))])
  else if o.same regSessionsOpen then some (leBytes 2 (packBools (s.control.sessions.map (·.opened))))
  else none

/-- What a view of bring-up, update and identity shows. -/
def State.viewBoot (s : State) (o : Obj) : Option (List Byte) :=
  if o.same regBringupState then some (items1 [s.boot.code])
  else if o.same regMapCopies then some (items1 [packBools [s.boot.mapA.isSome, s.boot.mapB.isSome]])
  else if o.same regUpdateState then some (items1 [s.boot.update.code])
  else if o.same regFwbankState then some (items1 [s.boot.bankA.state.code, s.boot.bankB.state.code])
  else if o.same regActiveBuild then some (leBytes 4 s.bootBank.build)
  else if o.same regStagedBuild then some (leBytes 4 s.otherBank.build)
  else if o.same regActivationProgress then some (leBytes 4 s.activationProgress)
  else if o.same regSecurityVersion then some (leBytes 1 s.securityVersion)
  else if o.same regActiveDigest then some (padTo 32 s.bootBank.digest)
  else if o.same regEcdsaCert then some ((Config.certificate false).take 4096)
  else if o.same regLmsCert then some ((Config.certificate true).take 16384)
  else if o.same regLmsLeavesLeft then some (leBytes 4 s.leavesLeft)
  else none

/-- What the per-master views show (R427, R418, R552, R554). -/
def State.viewMaster (s : State) (o : Obj) (m : Nat) : Option (List Byte) :=
  if o.same regCursor ∨ o.same regUnitSelect ∨ o.same regStreamSelect then some (leBytes o.size (s.perMaster m o))
  else if o.same regUnitHistory then some (s.unitHistory (s.perMaster m regUnitSelect))
  else if o.same regWindow then some ((s.recorder.window (s.perMaster m regCursor)).map EventRec.bytes).flatten
  else if o.same regStreamDesc then some (((s.stream (s.perMaster m regStreamSelect)).map (·.desc)).getD (zeros 64))
  else if o.same regStreamRecord then some (((s.stream (s.perMaster m regStreamSelect)).map Stream.shown).getD (zeros 64))
  else if o.same regSummary then some s.summary
  else none

/-- The access entry that a dictionary read shows: entries 0 to 8 are the supervisor's own (R365). -/
def State.viewEntry (s : State) (n e : Nat) : List Byte :=
  if e < 9 then ((s.entry n e).map Entry.toBytes).getD (zeros 16) else leBytes 16 (s.regAt regAccessEntry n e)

/-- The record of collective group 0 of a span: every member, with the anchor as root (R357). -/
def State.viewGroup0 (s : State) (k : Nat) : List Byte :=
  let p := s.span k
  let root := (p.members.findIdx? (· == (leAt (s.placement k) 34 1, p.anchor))).getD 0
  if p.state = .unused then zeros 32 else items1 [1, root, 0, 0] ++ leBytes 16 (2 ^ p.members.length - 1) ++ zeros 12

/-- The value of an object as a master reads it. -/
def State.objValue (s : State) (m : Nat) (o : Obj) (i j : Nat) : List Byte :=
  if o.same regAccessEntry then s.viewEntry i j
  else if o.same regGroup ∧ j = 0 then s.viewGroup0 i
  else if freeObjs.any o.same then leBytes o.size (s.free (8 * o.size)).toNat
  else if o.same regFlitsOut then s.viewFlits i
  else if o.same regSetDesc then s.setBytes i
  else if o.same regRailCurrent then (leBytes 12 (s.reg o i)).take 4 ++ leBytes 8 (s.free 64).toNat
  else match (s.viewMaster o m).orElse fun _ => (s.viewField o i).orElse fun _ => (s.viewSpan o i).orElse fun _ =>
      (s.viewPort o i).orElse fun _ => (s.viewDevice o).orElse fun _ => s.viewBoot o with
    | some l => l
    | none =>
      let l := leBytes o.size (s.regAt o i j)
      if o.type = .str then strBytes l else l

end Sys2Proof.Machine
end

