-- ==== Sys2Proof/Machine/DictRules.lean ====
section
/-! DEFINITION. The rules that a dictionary write keeps: lengths, reserved bits and ranges, checked when it is made or staged, and the rules
that read the rest of the state, checked at its commit (R11, R13, R191, R242, R255, R354 to R366, R401, R412, R509, R518). -/

namespace Sys2Proof.Machine

/-! ### Checked at once (R13, R509) -/

/-- Does a value's length fit the object's type? -/
def Obj.lengthOk (o : Obj) (n : Nat) : Bool :=
  if o.same regStageChunk then 4 ≤ n && n ≤ o.size else if o.type = .str then n ≤ o.size else n == o.size

/-- Parts of `w` bytes of a value. -/
def partsEvery (w : Nat) (l : List Byte) : List (List Byte) := (List.range (l.length / w)).map fun i => slice (w * i) w l

/-- Is every byte 0? -/
def allZero (l : List Byte) : Bool := l.all (· == 0)

/-- Are the INDEX bits that the kind of a unit identifier does not name 0 (R13, R397)? -/
def unitIndexOk (u : Nat) : Bool :=
  let names := [0, 0x3F1F, 0x3F1F, 0xF, 0x3FFFFF, 0, 0, 3, 0x1F, 0xFF, 0x37F, 0xF, 7, 0xF, 0x1FF]
  bits u 0 22 &&& names.getD (bits u 27 5) 0x3FFFFF == bits u 0 22

/-- Are the reserved bits of a value 0 (R13)?  Object `o` at index offset `i`. -/
def reservedOk (o : Obj) (i : Nat) (v : List Byte) : Bool :=
  if o.same regPlacement then leAt v 0 4 < 2 ^ 30 && leAt v 7 1 < 2 && allZero (slice 14 2 v) && allZero (v.drop 40)
  else if o.same regGroup then allZero (slice 2 2 v) && allZero (v.drop 20)
  else if o.same regAccessEntry then
    leAt v 0 2 < 4096 && leAt v 2 2 < 4096 && bits (leAt v 4 1) 4 3 == 0 && allZero (slice 6 2 v) && leAt v 8 8 < 2 ^ scopeBits i
  else if o.same regSetDesc then leAt v 21 1 < 16 && allZero (v.drop 52)
  else if o.same regNminus1Plans then (partsEvery 32 v).all fun p => leAt p 4 4 < 2 ^ 30 && leAt p 27 1 < 2 && allZero (p.drop 28)
  else if o.same regUnitSelect then unitIndexOk (leAt v 0 4)
  else if o.same regIrqClasses then leAt v 0 2 % 2 == 0 && leAt v 0 2 < 4096
  else if o.same regIpv4 then allZero (v.drop 5)
  else if o.same regIpv6 then allZero (v.drop 17)
  else if o.same regAdmit then (partsEvery 20 v).all fun p => allZero (p.drop 17)
  else if o.same regGroupDesc then leAt v 0 1 < 2 && allZero (slice 7 1 v) && allZero (v.drop 28)
  else if o.same regStreamDesc then leAt v 1 1 < 4 && allZero (slice 37 3 v) && allZero (v.drop 44)
  else true

/-- The ranges that the dictionary tables state, as object, least and greatest value. -/
def rangesOf : List (Obj × Nat × Nat) :=
  [(regCommitTimeout, 10, 1000), (regSpinThreshold, 1, 16), (regScrubPeriod, 50, 1000), (regStepVariant, 0, 7), (regSpecRole, 0, 2),
   (regProposalTimeout, 20, 10000), (regScrubHours, 1, 168), (regMeshMode, 0, 1), (regSpanClass, 0, 1), (regCheckProfile, 0, 2),
   (regWeightDigestPeriod, 10, 3600), (regTestPeriod, 1, 1440), (regRefPreferred, 0, 1), (regPtpPort, 0, 7), (regPtpDomain, 0, 127),
   (regPtpTransport, 0, 2), (regPtpDelay, 0, 1), (regPtpStepLimit, 1, 1000000), (regPowerCap, 6000, 12500), (regCapGain, 25, 400),
   (regGuardBand, 0, 1), (regAlertHold, 0, 10000), (regPhaseHold, 0, 10000), (regIdleOp, 0, 7), (regContactThreshold, 5, 100)] ++
  [(regThrottleTemp, 70, 100), (regPierOffTemp, 0, 110), (regPierPowerRequest, 0, 1), (regContactFlags, 0, 0), (regLeak, 0, 0),
   (regStartMode, 0, 1), (regStageControl, 1, 3), (regStageTarget, 0, 1), (regFieldInterval, 20, 10000), (regTxTimeout, 100, 60000),
   (regPlcaNodeCount, 2, 254), (regPlcaBurst, 0, 15), (regUdpPort, 1024, 65535), (regIpv6Prefix, 1, 128), (regSessionIdle, 10, 3600),
   (regEthMode, 0, 3), (regVlan, 0, 4094), (regMtu, 1500, 9216), (regReqUdpPort, 1024, 65535), (regServingGroup, 0, 1),
   (regRtcpInterval, 5, 60), (regStreamTimeout, 100, 60000), (regStreamSelect, 0, 16383)]

/-- Objects whose value is a number for each byte, each with a greatest value. -/
def byteLimits : List (Obj × Nat) := [(regVariantNodes, 64), (regDraftDepths, 15), (regBankPower, 2), (regPhaseOps, 7)]

/-- Is a byte a span, or 0xFF for none? -/
def spanByte (b : Nat) : Bool := b < 8 || b == 0xFF

/-- Does a value lie in the object's stated range, as far as the value alone shows (R509)? -/
def valueInRange (o : Obj) (i : Nat) (v : List Byte) : Bool :=
  let n := ofLe v
  (o.type != .bool || n < 2) &&
  ((rangesOf.find? fun e => o.same e.1).all fun e => e.2.1 ≤ n && n ≤ e.2.2) &&
  ((byteLimits.find? fun e => o.same e.1).all fun e => v.all fun b => b.toNat ≤ e.2) &&
  (if o.same regRetainScrub then n == 0 || (10 ≤ n && n ≤ 3600)
   else if o.same regHeatSwap then n == 0 || (100 ≤ n && n ≤ 60000)
   else if o.same regPairSpan then spanByte n && n != i
   else if o.same regMoverSpan || o.same regCoreSpan then v.all fun b => spanByte b.toNat
   else if o.same regPlacement then leAt v 6 1 < 2
   else if o.same regGroup then leAt v 0 1 < 3
   else if o.same regAccessEntry then leAt v 5 1 < 8 || 0xFE ≤ leAt v 5 1
   else if o.same regSetDesc then setDescShape v
   else if o.same regIpv4 then leAt v 4 1 ≤ 32
   else if o.same regIpv6 then leAt v 16 1 ≤ 128
   else if o.same regAdmit then (partsEvery 20 v).all fun p => leAt p 16 1 ≤ 128
   else if o.same regGroupDesc then groupDescOk v
   else if o.same regStreamDesc then streamDescOk v
   else true)

/-- The status of a value of an object on its own: TYPE, ACCESS for a reserved bit, VALUE. -/
def valueStatus (o : Obj) (i : Nat) (v : List Byte) : Nat :=
  if !o.lengthOk v.length then stType else if !reservedOk o i v then stAccess else if !valueInRange o i v then stValue else stOk

/-! ### Groups (R305, R357) -/

/-- The members of a span, or those that the placement gives it while it does not exist. -/
def State.groupMembers (s : State) (k : Nat) : List (Nat × Nat) :=
  if (s.span k).state = .unused then placeMembers (s.placement k) else (s.span k).members

/-- The member numbers of a group record. -/
def groupMask (l : List Byte) : List Nat := bitList 128 (leAt l 4 16)

/-- Multicast groups of a span of which member `m` is a target, each a group buffer (R305). -/
def State.groupBuffers (s : State) (k m : Nat) : Nat :=
  ((List.range 32).filter fun g =>
    let l := leBytes 32 (s.regAt regGroup k (16 + g))
    leAt l 0 1 == 2 && leAt l 1 1 != m && (groupMask l).contains m).length

/-- Is a group record at subindex offset `j` of span `k` refused (R357)? -/
def State.groupBad (s : State) (k j : Nat) (l : List Byte) : Bool :=
  let kind := leAt l 0 1
  let mask := groupMask l
  let devices := (mask.filterMap fun m => ((s.groupMembers k)[m]?).map (·.1)).eraseDups
  j == 0 || (kind != 0 && (!mask.contains (leAt l 1 1) || kind != (if j < 16 then 1 else 2))) ||
  (kind == 2 && (1 < devices.length || 30 < mask.length || mask.any fun m => 32 < s.groupBuffers k m))

/-! ### Plans (R412) -/

/-- Is a VALID plan of span `k` refused? -/
def State.planBad (s : State) (k : Nat) (l : List Byte) : Bool :=
  let piers := bitList 30 (leAt l 4 4)
  (leAt l 0 4 &&& leAt l 4 4) != 0 || !piers.contains (leAt l 26 1) ||
  (piers.any fun f => (s.spanOf f).any (· != k) || s.pierFused f || (s.field f).power.state == .retired || (s.field f).power.state == .fused) ||
  (bitList 16 (leAt l 24 2)).any fun j => !(s.setDesc j).valid || !(s.setDesc j).home || (s.setUsers j).any (· != k)

/-- Is the record of a span's plans refused?  A bridged span has none. -/
def State.plansBad (s : State) (k : Nat) (l : List Byte) : Bool :=
  let bridged := if (s.span k).state = .unused then leAt (s.placement k) 7 1 == 1 else 1 < (s.span k).devices
  bridged || (partsEvery 32 l).any fun p => leAt p 27 1 == 1 && s.planBad k p

/-! ### Access entries (R366) -/

/-- Does an entry grant a right that only another tag may hold: at a scratchpad of a span's pier, or at a tower for a set that a span's
placement names? -/
def State.entryForeign (s : State) (n : Nat) (l : List Byte) : Bool :=
  let x := Entry.ofBytes l
  x.valid && x.rights % 16 != 0 && (List.range 8).any fun k =>
    (s.span k).state != .unused && x.tag != k &&
    if n < 0x1E then (s.span k).piers.contains n
    else 0x20 ≤ n && n < 0x38 &&
      (bitList 16 (namedSets (s.placement k) &&& x.scope)).any fun j => bits (s.setChannels j) (8 * (n - 0x20)) 8 != 0

/-! ### Units (R401) -/

/-- Is a unit fused off, or in a fused pier, tower or spanlink port? -/
def State.unitFused (s : State) (u : Nat) : Bool :=
  let f := unitField u
  let i := unitIndex u
  match unitKind u with
  | 1 | 2 | 3 | 4 | 5 => s.pierFused f
  | 8 => s.towerFused i
  | 9 => s.towerFused (i / 8)
  | 11 => (fieldPort f).any s.portFused
  | 12 => s.portFused i
  | _ => false

/-- The status of a write of RETIRE_UNIT. -/
def State.retireStatus (s : State) (u : Nat) : Nat :=
  if !unitExists u then stValue
  else if unitKind u = 3 ∨ unitKind u = 14 ∨ s.isRetired u = true ∨ s.unitFused u = true then stAccess
  else stOk

/-! ### Checked at the commit (R518) -/

/-- Would a request of BANK_POWER ask for RETAIN of a bank that is OFF (R160), or for a 25th ACTIVE bank on two VDD_M cells (R462)? -/
def State.bankPowerBad (s : State) (f : Nat) (v : List Byte) : Bool :=
  let want (b : Nat) : Nat := leAt v b 1
  ((List.range 40).any fun b => want b == 1 && ((s.field f).bank b).state == .off) ||
  ((s.field f).cellsGood 10 4 == 2 && 24 < ((List.range 40).filter fun b => want b == 0).length &&
    (List.range 40).any fun b => want b == 0 && s.bankRequest f b != 0)

/-- Is a MOVER_SPAN value refused (R346)? -/
def State.moverSpanBad (s : State) (f : Nat) (v : List Byte) : Bool :=
  ((List.range 16).any fun c => leAt v c 1 != s.moverSpan f c && ((s.field f).mover c).state != .idle) ||
  (List.range 8).any fun c => leAt v (2 * c) 1 != leAt v (2 * c + 1) 1

/-- Is a span paired with span `d` other than `k`, or `d` with another (R242)? -/
def State.pairTaken (s : State) (k d : Nat) : Bool :=
  d < 8 && ((s.reg regPairSpan d != 0xFF && s.reg regPairSpan d != k) || (List.range 8).any fun j => j != k && s.reg regPairSpan j == d)

/-- Is span `d` no partner for span `k` because a span of the pair lies on another device (R219, R242)?  Both anchors are here, and only a
TARGET is bridged. -/
def State.pairAway (s : State) (k d : Nat) : Bool :=
  let bridged (x : Nat) : Bool := Nat.blt 1 (s.span x).devices
  d < 8 && (s.anchorAway k || s.anchorAway d || (s.reg regSpecRole k == 2 && bridged k) || (s.reg regSpecRole d == 2 && bridged d) ||
    (bridged k && bridged d))

/-- Is body variant `v` absent from the image of a pier of span `k` (R191)? -/
def State.variantAbsent (s : State) (k v : Nat) : Bool :=
  (s.span k).piers.any fun f => ((s.field f).seq.image).any fun i => i.entry v == 0xFFFFFFFF

/-- The status of a write under the rules that read the rest of the state: `s` is the state before the commit and `t` that with every staged
value in place. -/
def State.ruleStatus (s t : State) (m : Nat) (o : Obj) (i j : Nat) (v : List Byte) : Nat :=
  let n := ofLe v
  let refuse (c : Bool) (st : Nat) : Nat := if c then st else stOk
  if o.same regPlacement then refuse ((s.span i).state != .unused) stValue
  else if o.same regGroup then refuse (t.groupBad i j v) stValue
  else if o.same regAccessEntry then refuse (Nat.blt j 9 || t.entryForeign i v) stAccess
  else if o.same regSetDesc then
    let others := ((List.range 16).filter (· != i)).map t.setDesc
    if s.boot.update = .activating then stBusy
    else refuse (v != s.setBytes i && s.setRefusal i v others != 0) stAccess
  else if o.same regNminus1Plans then refuse (t.plansBad i v) stAccess
  else if o.same regMoverSpan then refuse (s.moverSpanBad i v) stValue
  else if o.same regSpinEnable then refuse (n == 0 && t.reg regGuardBand 0 == 1) stAccess
  else if o.same regBankPower then refuse (s.bankPowerBad i v) stAccess
  else if o.same regPierPowerRequest then refuse (n == 1 && (s.spanOf i).isSome) stAccess
  else if o.same regStepVariant then refuse (s.variantAbsent i n) stAccess
  else if o.same regPairSpan then refuse (t.pairTaken i n || t.pairAway i n) stValue
  else if o.same regThrottleTemp || o.same regPierOffTemp then
    refuse (Nat.blt (t.reg regPierOffTemp 0) (t.reg regThrottleTemp 0 + 5)) stValue
  else if o.same regActivateTime then s.activateStatus n
  else if o.same regAttestNonce then s.attestStatus
  else if o.same regGroupDesc then s.groupStatus i v
  else if o.same regStreamDesc then t.streamStatus (t.perMaster m regStreamSelect) v
  else stOk

/-- The status of a staged write under the rules that an object's description names and that span no other object: they are checked at once
(R509, R516), and again at the commit. -/
def State.stageStatus (s : State) (m : Nat) (o : Obj) (i j : Nat) (v : List Byte) : Nat :=
  if o.same regAccessEntry then (if Nat.blt j 9 then stAccess else stOk)
  else if o.same regPlacement || o.same regMoverSpan || o.same regBankPower || o.same regPierPowerRequest || o.same regStepVariant ||
    o.same regActivateTime || o.same regAttestNonce then s.ruleStatus s m o i j v
  else stOk

end Sys2Proof.Machine
end

