-- ==== Sys2Proof/Machine/DictWrite.lean ====
section
/-! DEFINITION. What a committed write of the dictionary does beside storing its value, and the commands of write-only objects (R11, R49, R54,
R157, R355 to R358, R371, R377, R401, R467 to R474, R497, R532, R541, R552). -/

namespace Sys2Proof.Machine

/-! ### Effects of a value -/

/-- PAUSE takes a value (R54): setting it pauses a READY span and marks a RUNNING one; clearing it resumes a PAUSED span with no recovery
pending; what the table does not list is recorded. -/
def State.pauseWrite (s : State) (k v : Nat) : State :=
  let p := s.span k
  if v = s.reg regPause k then s
  else if v = 1 then
    match p.state with
    | .ready => (s.setReg regPause k 1).enterPaused k
    | .running => s.setReg regPause k 1
    | _ => s.ignored k 5
  else
    let s1 := s.setReg regPause k 0
    if p.state = .running ∨ (p.state = .paused ∧ p.recovery.isEmpty ∧ p.epochDue = 0) then s1 else s1.ignored k 11

/-- Spin operations of a pier are set ON or OFF (R106).  DESIGN CHOICE: a gap is a pass boundary, so spin passes that run in it end in the
command that sets them OFF (R107; notes/assumptions/69). -/
def State.spinWrite (s : State) (f v : Nat) : State :=
  let s1 := s.setReg regSpinEnable f v
  if v = 0 ∧ (s.field f).array.spin ≠ .rest then s1.spinTo f .rest else s1

/-- The guard band (R11, R468): LEAN sets spin operations ON everywhere first. -/
def State.guardWrite (s : State) (v : Nat) : State :=
  let s1 := if v = 1 then (List.range 30).foldl (fun t f => t.spinWrite f 1) s else s
  (s1.setReg regGuardBand 0 v).powerAll

/-- BANK_POWER (R157): for a pier in no span every request applies at once, else those for ACTIVE; a pier that is not ON applies them when it
wakes. -/
def State.bankPowerWrite (s : State) (f : Nat) (v : List Byte) : State :=
  let s1 := s.setReg regBankPower f (ofLe v)
  if (s.field f).power.state ≠ .on then s1
  else s1.banksPending f (s.spanOf f).isSome

/-- PIER_POWER_REQUEST (R474). -/
def State.pierRequestWrite (s : State) (f v : Nat) : State :=
  let s1 := s.setReg regPierPowerRequest f v
  if v = 0 then s1.pierWake f else if (s.field f).power.state = .on then s1.pierOff f else s1

/-- IDLE_OP (R470): piers in no span request it. -/
def State.idleWrite (s : State) (v : Nat) : State :=
  (List.range 30).foldl (fun t f =>
    if t.spanOf f = none then (t.modPower f fun p => { p with phasePoint := v }).powerUpdate f else t) (s.setReg regIdleOp 0 v)

/-- POWER_CAP, or COOLANT_CAP: the effective cap is never above the cap, and equals it while the coolant does not limit it (R576). -/
def State.capWrite (s : State) (cap coolant : Nat) : State :=
  let limited := s.supply.limitedBy.1 || s.supply.limitedBy.2
  let eff := if coolant = 1 ∧ limited = true then min (s.reg regEffectiveCap 0) cap else if coolant = 1 ∧ cap = s.reg regPowerCap 0 then
    s.reg regEffectiveCap 0 else cap
  ((s.setReg regPowerCap 0 cap).setReg regCoolantCap 0 coolant).setReg regEffectiveCap 0 eff

/-- A value of the master's own (R427, R517). -/
def State.setPerMaster (s : State) (m : Nat) (o : Obj) (v : Nat) : State :=
  s.modCtl fun c => { c with perMaster := ((m, o.key 0 0), v) :: c.perMaster.filter (·.1 != (m, o.key 0 0)) }

/-- The objects of which each master holds its own value (R517). -/
def Obj.own (o : Obj) : Bool := o.same regCursor || o.same regUnitSelect || o.same regStreamSelect

/-- Is an object a command: does its write act and store nothing? -/
def Obj.acts (o : Obj) : Bool := o.access == .wo && !o.same regMgmtKey

/-- A committed write of master `m` takes effect; the commands of write-only objects act later. -/
def State.applyWrite (s : State) (m : Nat) (o : Obj) (i j : Nat) (v : List Byte) : State :=
  let n := ofLe v
  if o.acts then s
  else if o.own then s.setPerMaster m o n
  else if o.same regMgmtKey then s.modCtl fun c => { c with keys := c.keys.set j v }
  else if o.same regPause then s.pauseWrite i n
  else if o.same regCheckProfile then (s.setProfile i n).tellPeers i [i, 2, n]
  else if o.same regDigestSeed then (s.setReg regDigestSeed i n).tellPeers i [i, 3, n]
  else if o.same regSpinEnable then s.spinWrite i n
  else if o.same regGuardBand then s.guardWrite n
  else if o.same regBankPower then s.bankPowerWrite i v
  else if o.same regPierPowerRequest then s.pierRequestWrite i n
  else if o.same regIdleOp then s.idleWrite n
  else if o.same regPowerCap then s.capWrite n (s.reg regCoolantCap 0)
  else if o.same regCoolantCap then s.capWrite (s.reg regPowerCap 0) n
  else if o.same regPtpEnable then
    (s.setReg regPtpEnable 0 n).modClocks fun c => if n = 0 then { c with ptpLocked := false, ptpGood := 0, slew := 0 } else c
  else if o.same regT1sEnable then if n = 0 then (s.setReg regT1sEnable i 0).setReg regT1sLink i 0 else s.setReg regT1sEnable i 1
  else if o.same regSetDesc then s.setWritten i v
  else if o.same regMoverSpan then (s.setReg regMoverSpan i n).moverEpochs i
  else if o.same regActivateTime then s.activateAt n
  else if o.same regAttestNonce then (s.setReg regAttestNonce 0 n).attest v
  else if o.same regEthMode then s.ethModeSet i n
  else if o.same regGroupDesc then s.groupSet i v
  else if o.same regStreamDesc then s.streamSet (s.perMaster m regStreamSelect) v
  else s.setRegAt o i j n

/-! ### Commands of write-only objects -/

/-- SPAN_COMMAND (R355, R358): the state and the status. -/
def State.spanCommand (s : State) (k n : Nat) : State × Nat :=
  let x := (s.span k).state
  if n = 1 then
    if x ≠ .unused then (s, stAccess) else if s.createRefusal k = 0 then (s.createSpan k, stOk) else (s, stValue)
  else if n = 2 ∧ x ≠ .unused then (s.resetSpan k, stOk)
  else if n = 3 ∧ (x = .ready ∨ x = .paused ∨ x = .stopped) then ((s.deleteSpan k).settle, stOk)
  else (s, stAccess)

/-- STAGE_CONTROL (R497). -/
def State.stageCommand (s : State) (n : Nat) : State × Nat :=
  if n = 1 then s.stageOpen else if n = 2 then s.stageVerify else s.stageAbort

/-- RETIRE_UNIT (R401). -/
def State.retireCommand (s : State) (u : Nat) : State × Nat :=
  if s.retireStatus u = stOk then ((s.declare u 1 false).settle, stOk) else (s, s.retireStatus u)

/-- The voltage minima of a field start again (R481). -/
def State.vminRestart (s : State) (f : Nat) : State := s.setReg regVmin f 0

/-- The commands of write-only objects; a BOOL that is 0 does nothing. -/
def State.command (s : State) (o : Obj) (i : Nat) (v : List Byte) : State × Nat :=
  let n := ofLe v
  if o.same regSpanCommand then s.spanCommand i n
  else if o.same regRetireUnit then s.retireCommand n
  else if o.same regStageControl then s.stageCommand n
  else if o.same regStageChunk then s.stageChunk v
  else if o.type ≠ .bool ∨ n = 0 then (s, stOk)
  else if o.same regSupervisorSwap then if s.control.standby then (s.switchSupervisor, stOk) else (s, stAccess)
  else if o.same regPredReset then (s.modSpan i fun p => { p with predClear := true }, stOk)
  else if o.same regVminClear then (s.vminRestart i, stOk)
  else if o.same regLinkSavedClear then ((s.modBoot fun b => { b with saved := [] }).setReg regLinkSaved 0 0, stOk)
  else if o.same regClear then (s.clearHistory, stOk)
  else (s, stOk)

/-! ### A commit (R516 to R518) -/

/-- The object that a key of a staged write names. -/
def keyObj (k : Nat) : Option (Obj × Nat × Nat) := findObj (k / 256) (k % 256)

/-- The values of a commit in place, those of the master's own first. -/
def State.applyAll (s : State) (m : Nat) (ws : List (Nat × List Byte)) : State :=
  let go (own : Bool) (t : State) : State := ws.foldl (fun u w => match keyObj w.1 with
    | some (o, i, j) => if o.own = own then u.applyWrite m o i j w.2 else u
    | none => u) t
  let t := go false (go true s)
  if ws.any fun w => (keyObj w.1).any fun x => x.1.same regSetDesc then t.mapCleared else t

/-- The checks of a commit in staged order, and its commands: `t` has every value in place and the commands so far performed.  The first write
that fails, with its status and, for a CREATE, the condition of R355. -/
def State.checkAll (s t0 : State) (m : Nat) : List (Nat × List Byte) → State → Except (Nat × Nat × Nat) State
  | [], t => .ok t
  | (k, v) :: rest, t =>
    match keyObj k with
    | none => .error (k, stNotPresent, 0)
    | some (o, i, j) =>
      let st := s.ruleStatus t0 m o i j v
      if st ≠ stOk then .error (k, st, 0)
      else if o.acts then
        let r := t.command o i v
        let cond := if o.same regSpanCommand ∧ r.2 = stValue then t.createRefusal i else 0
        if r.2 ≠ stOk then .error (k, r.2, cond) else s.checkAll t0 m rest r.1
      else s.checkAll t0 m rest t

/-- Does a commit write anything but values of the master's own (R58)? -/
def countsChange (ws : List (Nat × List Byte)) : Bool := ws.any fun w => (keyObj w.1).any fun x => !x.1.own

/-- NV writes are remembered for a minute (R510). -/
def State.noteNv (s : State) (ws : List (Nat × List Byte)) : State :=
  let nv := (ws.map (·.1)).filter fun k => (keyObj k).any fun x => x.1.nv
  s.modCtl fun c => { c with nvWrites := nv.map (fun k => (k, s.now)) ++ c.nvWrites.filter fun e => s.now < e.2 + 60000000000 }

/-- What follows a commit: sets and spans that may serve now, spans that may go on or open a step, EXTEST and CLAMP that end, and the pins. -/
def State.commitRest (s old : State) : State :=
  let s1 := s.serveAll.settle
  let s2 := (List.range 8).foldl State.tryOpen s1
  let s3 := if s2.jtag.drives && !s2.jtagFree then { s2 with jtag := { s2.jtag with instr := 0, drives := false } } else s2
  s3.showPins old

/-- Writes of a master are committed at one instant (R518), as one change of the generation counter (R58); or the first that fails is named and
nothing changes but the record of a CREATE refused (R355), and what the reads of its image found. -/
def State.commitWrites (s : State) (m : Nat) (ws : List (Nat × List Byte)) : State × Option (Nat × Nat) :=
  let gen := (s.reg regGeneration 0 + boolNat (countsChange ws)) % 2 ^ 64
  let t0 := (s.setReg regGeneration 0 gen).applyAll m ws
  match s.checkAll t0 m ws t0 with
  | .ok t =>
    let t1 := ((t.commitRest s).noteNv ws).setReg regGeneration 0 gen
    (if countsChange ws then t1.vector 3 else t1, none)
  | .error (k, st, cond) =>
    let reads (i : Nat) : List Nat := if cond = 7 then (t0.noteImage (leAt (t0.placement i) 16 8)).lateReads else []
    (match keyObj k with
      | some (_, i, _) => if cond = 0 then s else ({ s with lateReads := reads i }.supEvent 0x0A14 (leBytes 1 cond)).settle
      | none => s, some (k, st))

end Sys2Proof.Machine
end

