-- ==== Sys2Proof/Machine/Dict.lean ====
section
/-! DEFINITION. The dictionary server: what each request is answered, transactions, and sessions that end (R369, R427, R509 to R519, R534 to
R536). -/

namespace Sys2Proof.Machine

/-- A request as the server takes it (R512); `own` is false for a JTAG request, which has no part in a transaction of its master (R369, R574). -/
structure DReq where
  op      : Nat
  master  : Nat
  span    : Nat
  tx      : Bool
  reqId   : Nat
  index   : Nat
  sub     : Nat
  offset  : Nat
  length  : Nat
  payload : List Byte
  own     : Bool
deriving DecidableEq, Repr

/-- An answer: STATUS, OBJ_GEN and payload. -/
structure Reply where
  status  : Nat
  gen     : Nat
  payload : List Byte
deriving DecidableEq, Repr

/-- The key of the object that a request names. -/
def DReq.key (r : DReq) : Nat := r.index * 256 + r.sub
/-- The low 32 bits of the generation counter (R511). -/
def State.gen32 (s : State) : Nat := s.reg regGeneration 0 % 2 ^ 32
/-- An answer under the present generation. -/
def State.reply (s : State) (status : Nat) (payload : List Byte) : State × Reply := (s, ⟨status, s.gen32, payload⟩)

/-! ### Rights (R362, R364, R513) -/

/-- Does a write of an object need both W and C (R362)? -/
def needsC (index sub : Nat) : Bool :=
  (0x5000 ≤ index && index < 0x6000) || (0x8000 ≤ index && index < 0x9000) || 0xF000 ≤ index ||
  (index == 0x1060 && 1 ≤ sub && sub ≤ 8) || (0x3000 ≤ index && index < 0x301E && sub == 0x80)

/-- Has the request a right over its index? -/
def State.dictMay (s : State) (r : DReq) (x : Right) : Bool := s.granted targetDict r.master r.span x [r.index]
/-- The request lacks a right: the server counts and records it (R367), and answers ACCESS. -/
def State.dictDeny (s : State) (r : DReq) (x : Right) : State × Reply := (s.violation targetDict r.master r.span x r.key).reply stAccess []

/-! ### Transactions (R516, R517) -/

/-- The transaction that a request is part of. -/
def State.txOf (s : State) (r : DReq) : Option Transaction := if r.own then s.control.txs.find? (·.master == r.master) else none
/-- Is an object claimed by the transaction of another master? -/
def State.claimed (s : State) (r : DReq) (o : Obj) : Bool :=
  !o.own && s.control.txs.any fun t => (t.master != r.master || !r.own) && t.staged.any (·.1 == r.key)
/-- A write of an NV object is refused after ten in a minute (R510). -/
def State.nvBusy (s : State) (o : Obj) (k : Nat) : Bool :=
  o.nv && 10 ≤ (s.control.nvWrites.filter fun e => e.1 == k && s.now < e.2 + 60000000000).length
/-- Put a transaction in place of its master's. -/
def State.setTx (s : State) (t : Transaction) : State := s.modCtl fun c => { c with txs := c.txs.map fun x => if x.master = t.master then t else x }
/-- A master's transaction ends. -/
def State.endTx (s : State) (m : Nat) : State := s.modCtl fun c => { c with txs := c.txs.filter (·.master != m) }

/-! ### READ and DESCRIBE (R427, R508, R511, R513) -/

/-- The largest payload of a response: 1,136 bytes over the field network (R532), else 4,032 (R522). -/
def payloadCap (m : Nat) : Nat := if m / 256 = 4 then 1136 else 4032

/-- The value that a request reads: the one staged by its own transaction (R516), else the one committed. -/
def State.readValue (s : State) (r : DReq) (o : Obj) (i j : Nat) : List Byte :=
  match (s.txOf r).bind fun t => t.staged.lookup r.key with
  | some v => v
  | none => s.objValue r.master o i j

/-- A frozen copy of a value is taken (R511); a copy of the window moves the master's cursor on (R427). -/
def State.freeze (s : State) (r : DReq) (o : Obj) (v : List Byte) : State :=
  let same (x : Frozen) : Bool := x.master == r.master && x.key == r.key
  let s1 := s.modCtl fun c => { c with frozen := ⟨r.master, r.key, s.gen32, v⟩ :: c.frozen.filter fun x => !same x }
  if o.same regWindow then
    match (s.recorder.window (s.perMaster r.master regCursor)).getLast? with
    | some e => s1.setPerMaster r.master regCursor (e.seq + 1)
    | none => s1
  else s1

/-- A read of an object that exists and may be read. -/
def State.readObj (s : State) (r : DReq) (o : Obj) (i j : Nat) : State × Reply :=
  let n := min r.length (payloadCap r.master)
  let long := o.type == .blob || o.type == .str
  if r.offset ≠ 0 then
    match s.control.frozen.find? fun x => x.master == r.master && x.key == r.key with
    | some x => (s, ⟨stOk, x.gen, slice r.offset n x.value⟩)
    | none => s.reply stChanged []
  else
    let v := s.readValue r o i j
    ((if long then s.freeze r o v else s).nextFree).reply stOk (v.take n)

/-- READ. -/
def State.serveRead (s : State) (r : DReq) : State × Reply :=
  match findObj r.index r.sub, highestSub r.index with
  | some (o, i, j), _ =>
    if o.access = .wo then s.reply stAccess [] else if s.dictMay r .r then s.readObj r o i j else s.dictDeny r .r
  | none, some h =>
    if r.sub ≠ 0 then s.reply stNotPresent []
    else if !s.dictMay r .r then s.dictDeny r .r
    else if r.offset ≠ 0 then s.reply stChanged []
    else s.reply stOk ((leBytes 1 h).take (min r.length (payloadCap r.master)))
  | none, none => s.reply stNotPresent []

/-- The type codes of R508. -/
def ObjType.code : ObjType → Nat
  | .bool => 1 | .u8 => 2 | .u16 => 3 | .u32 => 4 | .u64 => 5 | .i32 => 6 | .f32 => 7 | .str => 8 | .blob => 9 | .time64 => 10
/-- The access codes of R508. -/
def ObjAccess.code : ObjAccess → Nat
  | .ro => 0 | .rw => 1 | .wo => 2 | .rwt => 3

/-- The 16 bytes of DESCRIBE. -/
def describeBytes (type access nv size dflt : Nat) : List Byte :=
  leBytes 1 type ++ leBytes 1 access ++ leBytes 1 nv ++ zeros 1 ++ leBytes 4 size ++ leBytes 8 dflt

/-- DESCRIBE. -/
def State.serveDescribe (s : State) (r : DReq) : State × Reply :=
  match findObj r.index r.sub, highestSub r.index with
  | some (o, i, j), _ =>
    let nv := o.nv && !(o.same regAccessEntry && Nat.blt j 9)
    if s.dictMay r .r then
      s.reply stOk ((describeBytes o.type.code o.access.code (boolNat nv) o.size (o.dfltAt i j)).take (payloadCap r.master))
    else s.dictDeny r .r
  | none, some h =>
    if r.sub ≠ 0 then s.reply stNotPresent []
    else if s.dictMay r .r then s.reply stOk (describeBytes 2 0 0 1 h)
    else s.dictDeny r .r
  | none, none => s.reply stNotPresent []

/-! ### WRITE and transactions (R509, R510, R516 to R518) -/

/-- A write is staged: at most 64 writes and 16 KiB, a later write of an object in place of the earlier (R516). -/
def State.stage (s : State) (r : DReq) (t : Transaction) : State × Reply :=
  let rest := t.staged.filter (·.1 != r.key)
  let bytes := (rest.map fun w => w.2.length).sum + r.payload.length
  if 64 < rest.length + 1 ∨ 16384 < bytes then s.reply stTx []
  else
    let new := if t.staged.any (·.1 == r.key) then t.staged.map fun w => if w.1 = r.key then (r.key, r.payload) else w
      else t.staged ++ [(r.key, r.payload)]
    (s.setTx { t with staged := new }).reply stOk []

/-- A write of an object that has passed the checks of its rights: its own transaction, or staged. -/
def State.writeObj (s : State) (r : DReq) (o : Obj) (i j : Nat) : State × Reply :=
  let st := if valueStatus o i r.payload = stOk ∧ r.tx then s.stageStatus r.master o i j r.payload else valueStatus o i r.payload
  if st ≠ stOk then s.reply st []
  else if s.claimed r o ∨ s.nvBusy o r.key then s.reply stBusy []
  else match r.tx, s.txOf r with
    | true, some t => s.stage r t
    | true, none => s.reply stTx []
    | false, _ =>
      match s.commitWrites r.master [(r.key, r.payload)] with
      | (u, none) => u.reply stOk []
      | (u, some (_, st)) => u.reply st []

/-- WRITE. -/
def State.serveWrite (s : State) (r : DReq) : State × Reply :=
  match findObj r.index r.sub with
  | none => if r.sub = 0 ∧ (highestSub r.index).isSome then s.reply stAccess [] else s.reply stNotPresent []
  | some (o, i, j) =>
    if o.access = .ro ∨ (o.access = .rwt ∧ !r.own) then s.reply stAccess []
    else if r.tx ∧ (s.txOf r).isNone then s.reply stTx []
    else if o.access = .rwt ∧ !r.tx then s.reply stAccess []
    else if !s.dictMay r .w then s.dictDeny r .w
    else if needsC r.index r.sub ∧ !s.dictMay r .c then s.dictDeny r .c
    else s.writeObj r o i j

/-- TX_BEGIN; a JTAG request may not open a transaction (R574). -/
def State.serveBegin (s : State) (r : DReq) : State × Reply :=
  if !r.own then s.reply stAccess []
  else if (s.txOf r).isSome then s.reply stTx []
  else (s.modCtl fun c => { c with txs := c.txs ++ [⟨r.master, []⟩] }).reply stOk []

/-- TX_COMMIT: the transaction ends, and the answer gives the commit time, or the object that failed (R518). -/
def State.serveCommit (s : State) (r : DReq) : State × Reply :=
  match s.txOf r with
  | none => s.reply stTx []
  | some t =>
    match (s.endTx r.master).commitWrites r.master t.staged with
    | (u, none) => u.reply stOk (leBytes 8 u.now)
    | (u, some (k, st)) => u.reply st (leBytes 2 (k / 256) ++ leBytes 1 (k % 256))

/-- TX_ABORT. -/
def State.serveAbort (s : State) (r : DReq) : State × Reply :=
  match s.txOf r with
  | none => s.reply stTx []
  | some _ => (s.endTx r.master).reply stOk []

/-! ### The server (R513 to R515, R519) -/

/-- A request by its operation. -/
def State.perform (s : State) (r : DReq) : State × Reply :=
  if r.op = 1 then s.serveRead r
  else if r.op = 2 then s.serveWrite r
  else if r.op = 3 then s.serveBegin r
  else if r.op = 4 then s.serveCommit r
  else if r.op = 5 then s.serveAbort r
  else if r.op = 6 then s.serveRead { r with index := 0x1010, sub := 0, offset := 0 }
  else if r.op = 7 then s.serveDescribe r
  else if r.op = 8 then s.reply stOk []
  else s.reply stValue []

/-- May a request be served under FUSE_FAULT (R515)? -/
def faultServed (r : DReq) : Bool :=
  (r.op == 1 && ((0x1000 ≤ r.index && r.index < 0x2000) || r.index == 0x8200 || (0x9000 ≤ r.index && r.index < 0xA000))) || r.op == 6

/-- What is answered without performing the request: NOT_READY before step 4 has ended and under FUSE_FAULT (R515), EXPIRED once to a master
whose transaction has expired (R519). -/
def State.answerFirst (s : State) (r : DReq) : State × Reply :=
  if !s.dictReady ∨ (s.boot.fuseFault ∧ !faultServed r) then s.reply stNotReady []
  else if r.own ∧ s.control.expired.contains r.master then
    (s.modCtl fun c => { c with expired := c.expired.filter (· != r.master) }).reply stExpired []
  else s.perform r

/-- A request is answered and counted (R538). -/
def State.serve (s : State) (r : DReq) : State × Reply :=
  let x := s.answerFirst r
  ((x.1.bump regRequests 0 1).bump regRequestErrors 0 (if x.2.status = stOk then 0 else 1), x.2)

/-! ### Sessions (R369, R534 to R536) -/

/-- Session `n`. -/
def State.session (s : State) (n : Nat) : Session := s.control.sessions.getD n .reset
/-- Change session `n`. -/
def State.modSession (s : State) (n : Nat) (g : Session → Session) : State := s.modCtl fun c => { c with sessions := c.sessions.modify n g }
/-- The master of session `n` (R352, R534). -/
def sessionMaster (n : Nat) : Nat := 0x400 + n

/-- The master IDs of R352. -/
def masters : List Nat :=
  List.range 120 ++ (List.range 30).map (0x100 + ·) ++ (List.range 240).map (0x200 + ·) ++ [0x300] ++ (List.range 16).map (0x400 + ·) ++
  [0x500, 0x501] ++ (List.range 64).map (0x600 + ·) ++ (List.range 10).map (0x700 + ·)

/-- Do MASTER and MASK of an entry match master `m` alone? -/
def Entry.namesOnly (x : Entry) (m : Nat) : Bool := (masters.filter fun a => (a ^^^ x.master) &&& x.mask == 0) == [m]

/-- The VALID host entries that name a session alone become invalid (R369). -/
def State.dropEntries (s : State) (n : Nat) : State :=
  let hit (e : Nat × Nat) : Bool :=
    0x5800 ≤ e.1 / 256 && e.1 / 256 < 0x589E && 10 ≤ e.1 % 256 && e.1 % 256 ≤ 0x40 &&
    (Entry.ofBytes (leBytes 16 e.2)).valid && (Entry.ofBytes (leBytes 16 e.2)).namesOnly (sessionMaster n)
  (s.regs.filter hit).foldl (fun t e => t.setRegAt regAccessEntry (e.1 / 256 - 0x5800) (e.1 % 256 - 1) (e.2 - 2 ^ 39)) s

/-- A session ends (R535): event 0x0804, its transaction expires, its entries become invalid. -/
def State.endSession (s : State) (n : Nat) : State :=
  if (s.session n).opened then
    (((s.modSession n fun _ => Session.reset).supEvent 0x0804 []).expireTx fun m => m == sessionMaster n).dropEntries n
  else s.modSession n fun _ => Session.reset

/-- Do requests of a master reach the server?  None does with no supervisor left (R416); those of a session do while it is open and its
port's link is up. -/
def State.reaches (s : State) (m : Nat) : Bool :=
  s.boot.powered && s.supervised && (m / 256 != 4 || ((s.session (m % 256)).opened && s.reg regT1sLink (s.session (m % 256)).port != 0))

/-- The management keys that a request would write (R535). -/
def State.keysWritten (s : State) (r : DReq) : List Nat :=
  let ks := if r.op = 2 ∧ !r.tx then [r.key] else if r.op = 4 then ((s.txOf r).map fun t => t.staged.map (·.1)).getD [] else []
  (ks.filter fun k => 0x106001 ≤ k && k ≤ 0x106008).map (· - 0x106001)

/-- Sessions of the key slots just written end, after the answer. -/
def State.endKeySessions (s : State) (ks : List Nat) : State := ks.foldl (fun t k => (t.endSession (2 * k)).endSession (2 * k + 1)) s

/-- A frame of a session is counted at its port (R538). -/
def State.sessionFrame (s : State) (m : Nat) : State := if m / 256 = 4 then s.bump regT1sFrames (s.session (m % 256)).port 1 else s

/-- A session keeps the last 16 responses by REQ_ID (R536). -/
def State.keepReply (s : State) (r : DReq) (x : Reply) : State :=
  if r.master / 256 = 4 then
    s.modSession (r.master % 256) fun y => { y with replies := ((r.reqId, x.status, x.gen, x.payload) :: y.replies).take 16 }
  else s

/-- The response that is kept for a request. -/
def State.kept (s : State) (r : DReq) : Option (Nat × Nat × List Byte) :=
  if r.master / 256 = 4 then (s.session (r.master % 256)).replies.lookup r.reqId else none

/-- A request of a master is answered, or answered again (R515, R536). -/
def State.respond (s : State) (r : DReq) : State :=
  let s0 := s.sessionFrame r.master
  match s0.kept r with
  | some x => s0.emit (.response r.master r.reqId x.1 x.2.1 x.2.2)
  | none =>
    let ks := s0.keysWritten r
    let y := s0.serve r
    let s1 := (y.1.keepReply r y.2).emit (.response r.master r.reqId y.2.status y.2.gen y.2.payload)
    if y.2.status = stOk then s1.endKeySessions ks else s1

end Sys2Proof.Machine
end

