-- ==== Sys2Proof/Machine/DictCmds.lean ====
section
/-! DEFINITION. The commands that are dictionary requests: the operations of R513 and the objects that the command table names one by one. -/

namespace Sys2Proof.Machine

/-! ### Requests -/

/-- A request without an object (R512). -/
def opReq (r : Req) (op : Nat) : DReq :=
  { op := op, master := r.master.toNat, span := r.span.toNat, tx := r.tx, reqId := r.reqId.toNat, index := 0, sub := 0, offset := 0
    length := 0, payload := [], own := true }
/-- A READ. -/
def readReq (r : Req) (index sub offset length : Nat) : DReq :=
  { opReq r 1 with index := index, sub := sub, offset := offset, length := length }
/-- A WRITE. -/
def writeReq (r : Req) (index sub : Nat) (value : List Byte) : DReq := { opReq r 2 with index := index, sub := sub, payload := value }

/-- A request reaches the server, if its master's path is up. -/
def State.ask (s : State) (q : DReq) : State := if s.reaches q.master then s.respond q else s

/-! ### Operations (R513) -/

/-- READ. -/
def execDictRead (r : Req) (index : BitVec 16) (sub : BitVec 8) (offset length : Word32) (s : State) : Host.Outcome State Fault Refusal :=
  .next (s.ask (readReq r index.toNat sub.toNat offset.toNat length.toNat))
/-- WRITE. -/
def execDictWrite (r : Req) (index : BitVec 16) (sub : BitVec 8) (value : List Byte) (s : State) : Host.Outcome State Fault Refusal :=
  .next (s.ask (writeReq r index.toNat sub.toNat value))
/-- TX_BEGIN (R516). -/
def execTxBegin (r : Req) (s : State) : Host.Outcome State Fault Refusal := .next (s.ask (opReq r 3))
/-- TX_COMMIT (R518). -/
def execTxCommit (r : Req) (s : State) : Host.Outcome State Fault Refusal := .next (s.ask (opReq r 4))
/-- TX_ABORT (R513). -/
def execTxAbort (r : Req) (s : State) : Host.Outcome State Fault Refusal := .next (s.ask (opReq r 5))
/-- SUMMARY (R520). -/
def execSummary (r : Req) (length : Word32) (s : State) : Host.Outcome State Fault Refusal :=
  .next (s.ask { opReq r 6 with length := length.toNat })
/-- DESCRIBE (R513). -/
def execDescribe (r : Req) (index : BitVec 16) (sub : BitVec 8) (s : State) : Host.Outcome State Fault Refusal :=
  .next (s.ask { opReq r 7 with index := index.toNat, sub := sub.toNat })
/-- NOP (R513). -/
def execNop (r : Req) (s : State) : Host.Outcome State Fault Refusal := .next (s.ask (opReq r 8))
/-- WINDOW_READ (R427). -/
def execWindowRead (r : Req) (s : State) : Host.Outcome State Fault Refusal := .next (s.ask (readReq r 0x9010 0 0 4032))

/-! ### Spans, access and movers -/

/-- SUPERVISOR_SWAP (R351, R370). -/
def execSupervisorSwap (r : Req) (value : List Byte) (s : State) : Host.Outcome State Fault Refusal :=
  .next (s.ask (writeReq r 0x5000 0x02 value))
/-- CREATE (R355, R356). -/
def execCreate (r : Req) (sp : SpanId) (s : State) : Host.Outcome State Fault Refusal :=
  .next (s.ask (writeReq r (0x5100 + sp) 0x25 [1]))
/-- SPAN_RESET (R54, R358). -/
def execSpanReset (r : Req) (sp : SpanId) (s : State) : Host.Outcome State Fault Refusal :=
  .next (s.ask (writeReq r (0x5100 + sp) 0x25 [2]))
/-- SPAN_DELETE (R358). -/
def execSpanDelete (r : Req) (sp : SpanId) (s : State) : Host.Outcome State Fault Refusal :=
  .next (s.ask (writeReq r (0x5100 + sp) 0x25 [3]))
/-- PAUSE (R54). -/
def execPause (r : Req) (sp : SpanId) (value : List Byte) (s : State) : Host.Outcome State Fault Refusal :=
  .next (s.ask (writeReq r (0x5100 + sp) 0x0D value))
/-- STEP_VARIANT (R191). -/
def execStepVariant (r : Req) (sp : SpanId) (value : List Byte) (s : State) : Host.Outcome State Fault Refusal :=
  .next (s.ask (writeReq r (0x5100 + sp) 0x0E value))
/-- CORE_SPAN (R348). -/
def execCoreSpan (r : Req) (f : FieldId) (value : List Byte) (s : State) : Host.Outcome State Fault Refusal :=
  .next (s.ask (writeReq r (0x3000 + f) 0x80 value))
/-- ACCESS_ENTRY (R363 to R368). -/
def execAccessEntry (r : Req) (target : BitVec 8) (e : Fin 64) (value : List Byte) (s : State) : Host.Outcome State Fault Refusal :=
  .next (s.ask (writeReq r (0x5800 + target.toNat) (e + 1) value))
/-- SET_DESC (R253, R255). -/
def execSetDesc (r : Req) (k : SetId) (value : List Byte) (s : State) : Host.Outcome State Fault Refusal :=
  .next (s.ask (writeReq r (0x4040 + k) 0x01 value))
/-- CHECK_PROFILE (R371). -/
def execCheckProfile (r : Req) (sp : SpanId) (value : List Byte) (s : State) : Host.Outcome State Fault Refusal :=
  .next (s.ask (writeReq r (0x5100 + sp) 0x2A value))
/-- PRED_RESET (R239). -/
def execPredReset (r : Req) (sp : SpanId) (value : List Byte) (s : State) : Host.Outcome State Fault Refusal :=
  .next (s.ask (writeReq r (0x5100 + sp) 0x20 value))

/-! ### Piers and power -/

/-- SPIN_ENABLE (R11, R106). -/
def execSpinEnable (r : Req) (f : FieldId) (value : List Byte) (s : State) : Host.Outcome State Fault Refusal :=
  .next (s.ask (writeReq r (0x3000 + f) 0x20 value))
/-- BANK_POWER (R157). -/
def execBankPower (r : Req) (f : FieldId) (value : List Byte) (s : State) : Host.Outcome State Fault Refusal :=
  .next (s.ask (writeReq r (0x3000 + f) 0x40 value))
/-- RETIRE_UNIT (R401). -/
def execRetireUnit (r : Req) (value : List Byte) (s : State) : Host.Outcome State Fault Refusal :=
  .next (s.ask (writeReq r 0x6100 0x04 value))
/-- HISTORY_CLEAR (R430). -/
def execHistoryClear (r : Req) (value : List Byte) (s : State) : Host.Outcome State Fault Refusal :=
  .next (s.ask (writeReq r 0x9000 0x07 value))
/-- VMIN_CLEAR (R464, R481). -/
def execVminClear (r : Req) (f : FieldId) (value : List Byte) (s : State) : Host.Outcome State Fault Refusal :=
  .next (s.ask (writeReq r (0x3000 + f) 0xC7 value))
/-- GUARD_BAND (R11, R468). -/
def execGuardBand (r : Req) (value : List Byte) (s : State) : Host.Outcome State Fault Refusal :=
  .next (s.ask (writeReq r 0x2000 0x03 value))
/-- POWER_CAP (R471, R481). -/
def execPowerCap (r : Req) (value : List Byte) (s : State) : Host.Outcome State Fault Refusal :=
  .next (s.ask (writeReq r 0x2000 0x01 value))
/-- PIER_POWER_REQUEST (R474). -/
def execPierPowerRequest (r : Req) (f : FieldId) (value : List Byte) (s : State) : Host.Outcome State Fault Refusal :=
  .next (s.ask (writeReq r (0x3000 + f) 0xC1 value))

/-! ### Update, identity, ports and media -/

/-- STAGE_OPEN (R497). -/
def execStageOpen (r : Req) (s : State) : Host.Outcome State Fault Refusal := .next (s.ask (writeReq r 0x8100 0x02 [1]))
/-- STAGE_VERIFY (R496, R497). -/
def execStageVerify (r : Req) (s : State) : Host.Outcome State Fault Refusal := .next (s.ask (writeReq r 0x8100 0x02 [2]))
/-- STAGE_ABORT (R507). -/
def execStageAbort (r : Req) (s : State) : Host.Outcome State Fault Refusal := .next (s.ask (writeReq r 0x8100 0x02 [3]))
/-- STAGE_CHUNK (R497). -/
def execStageChunk (r : Req) (value : List Byte) (s : State) : Host.Outcome State Fault Refusal :=
  .next (s.ask (writeReq r 0x8100 0x04 value))
/-- ACTIVATE_TIME (R498). -/
def execActivateTime (r : Req) (value : List Byte) (s : State) : Host.Outcome State Fault Refusal :=
  .next (s.ask (writeReq r 0x8100 0x08 value))
/-- ATTEST_NONCE (R503). -/
def execAttestNonce (r : Req) (value : List Byte) (s : State) : Host.Outcome State Fault Refusal :=
  .next (s.ask (writeReq r 0x8200 0x04 value))
/-- LINK_SAVED_CLEAR (R493). -/
def execLinkSavedClear (r : Req) (value : List Byte) (s : State) : Host.Outcome State Fault Refusal :=
  .next (s.ask (writeReq r 0x8000 0x08 value))
/-- MGMT_KEY (R534, R535). -/
def execMgmtKey (r : Req) (slot : Fin 8) (value : List Byte) (s : State) : Host.Outcome State Fault Refusal :=
  .next (s.ask (writeReq r 0x1060 (slot + 1) value))
/-- ETH_MODE (R541). -/
def execEthMode (r : Req) (e : EthId) (value : List Byte) (s : State) : Host.Outcome State Fault Refusal :=
  .next (s.ask (writeReq r (0xA000 + e) 0x01 value))
/-- STREAM_DESC (R552). -/
def execStreamDesc (r : Req) (value : List Byte) (s : State) : Host.Outcome State Fault Refusal :=
  .next (s.ask (writeReq r 0xA400 0x02 value))
/-- GROUP_DESC (R555). -/
def execGroupDesc (r : Req) (g : MediaGroup) (value : List Byte) (s : State) : Host.Outcome State Fault Refusal :=
  .next (s.ask (writeReq r (0xA240 + g) 0x01 value))

end Sys2Proof.Machine
end

