-- ==== Sys2Proof/Machine/Movers.lean ====
section
/-! DEFINITION. The commands of the mover blocks (R318 to R346). -/

namespace Sys2Proof.Machine

/-- A write of a mover's window reaches the block (R51, R322, R364): a stale packet is dropped, an unreachable field answers NACK
UNREACHABLE, a write without the configure right NACK ACCESS; otherwise `g` performs it, or refuses it with an access error, and ACK
or NACK ACCESS answers; a stream packet has no ACK (R283). -/
def State.windowWrite (s : State) (p : Pkt) (stream : Bool) (f c offset : Nat) (g : State → Option State) : State :=
  if s.stale p then s.dropStale p
  else if !s.reachable f then s.answer p tyNack nackUnreachable []
  else if !s.granted (targetMover f) p.master.toNat p.span.toNat .c [c] then
    (s.violation (targetMover f) p.master.toNat p.span.toNat .c offset).answer p tyNack nackAccess []
  else match g s with
    | some t => t.performed p stream
    | none => s.answer p tyNack nackAccess []

/-- Offset of a channel register in the block's window (R322). -/
def windowOffset (c off : Nat) : Nat := 256 * c + off

/-- GO: an IDLE channel's ACTIVE set is checked and armed, or the channel ends in ERROR with code DESC (R325, R342). -/
def moverGo (f c : Nat) (s : State) : State :=
  let m := (s.field f).mover c
  if m.state ≠ .idle then s
  else if s.moverSetOk f c m.active then (s.modMover f c fun x => { x with state := .armed, pending := 0 }).moverTry f c
  else s.moverError f c 16 0

/-- ARM_SHADOW: SHADOW is checked and marked valid, or the write is refused (R325). -/
def moverArm (f c : Nat) (s : State) : Option State :=
  if s.moverSetOk f c ((s.field f).mover c).shadow then some (s.modMover f c fun x => { x with shadowValid := true }) else none

/-- STOP (R342, R345): an ARMED channel becomes IDLE, one at work stops; otherwise nothing. -/
def moverStop (f c : Nat) (s : State) : State :=
  match ((s.field f).mover c).state with
  | .armed => s.modMover f c fun x => { x with state := .idle }
  | .running | .preempted => s.modMover f c fun x => { x with state := .stopping, stopFault := false, attempt := none }
  | _ => s

/-- CLEAR: leave ERROR (R342). -/
def moverClear (f c : Nat) (s : State) : State :=
  if ((s.field f).mover c).state = .error then
    (s.modMover f c fun x => { x with errCode := 0, overrun := false }).moverReload f c
  else s

/-- GO (R324). -/
def execGo (p : Pkt) (f : FieldId) (ch : Idx16) (s : State) : Host.Outcome State Fault Refusal :=
  .next (s.carried tySmallWrite 1 p fun t => t.windowWrite p false f ch (windowOffset ch 0x80) fun u => some (moverGo f ch u))

/-- ARM_SHADOW (R324, R325). -/
def execArmShadow (p : Pkt) (f : FieldId) (ch : Idx16) (s : State) : Host.Outcome State Fault Refusal :=
  .next (s.carried tySmallWrite 1 p fun t => t.windowWrite p false f ch (windowOffset ch 0x80) (moverArm f ch))

/-- STOP (R324, R342). -/
def execStop (p : Pkt) (f : FieldId) (ch : Idx16) (s : State) : Host.Outcome State Fault Refusal :=
  .next (s.carried tySmallWrite 1 p fun t => t.windowWrite p false f ch (windowOffset ch 0x80) fun u => some (moverStop f ch u))

/-- CLEAR (R324, R342). -/
def execClear (p : Pkt) (f : FieldId) (ch : Idx16) (s : State) : Host.Outcome State Fault Refusal :=
  .next (s.carried tySmallWrite 1 p fun t => t.windowWrite p false f ch (windowOffset ch 0x80) fun u => some (moverClear f ch u))

/-- R322: an access of 1 to 64 B, naturally aligned, inside a set of 64 B. -/
def windowAccessOk (offset n : Nat) : Bool :=
  (n == 1 || n == 2 || n == 4 || n == 8 || n == 16 || n == 32 || n == 64) && offset % n == 0 && offset + n ≤ 64

/-- Does a write at an offset of a set touch TRIG_ARG and leave a bit set in it that the set's trigger reserves (R13, R331)? -/
def trigArgBad (offset n : Nat) (new : List Byte) : Bool :=
  overlaps offset n 24 8 && !trigReservedOk (leAt new 21 1) (leAt new 24 8)

/-- REGISTER_SET_WRITE (R322, R325): refused for ACTIVE unless the channel is IDLE or ERROR, for SHADOW while SHADOW_VALID, and when it
sets a reserved bit (R13). -/
def moverSetWrite (f c : Nat) (shadow : Bool) (offset : Nat) (bytes : List Byte) (s : State) : Option State :=
  let m := (s.field f).mover c
  let new := splice (if shadow then m.shadow else m.active).toBytes offset bytes
  if !windowAccessOk offset bytes.length || !moverReservedOk new || trigArgBad offset bytes.length new then none
  else if shadow then
    if m.shadowValid then none else some (s.modMover f c fun x => { x with shadow := .ofBytes new })
  else if m.state = .idle ∨ m.state = .error then some (s.modMover f c fun x => { x with active := .ofBytes new })
  else none

/-- A write to the ACTIVE or SHADOW set (R322, R325). -/
def execRegisterSetWrite (p : Pkt) (f : FieldId) (ch : Idx16) (shadow : Bool) (offset : BitVec 6) (bytes : List Byte) (s : State) :
    Host.Outcome State Fault Refusal :=
  .next (s.carried tySmallWrite 1 p fun t => t.windowWrite p false f ch (windowOffset ch (boolNat shadow * 64 + offset.toNat)) (moverSetWrite f ch shadow offset.toNat bytes))

/-- Device time reaches a TIMER channel's compare time (R333), in a field that has had its first beacon (R450). -/
def execMoverTimer (f : FieldId) (ch : Idx16) (s : State) : Host.Outcome State Fault Refusal :=
  let m := (s.field f).mover ch
  .next (if m.state = .armed ∧ m.active.trigger = 1 ∧ (s.field f).clock.errors ≠ [] then s.moverStart f ch false else s)

/-- No higher-priority channel has work: a PREEMPTED channel resumes (R335, R342). -/
def execMoverResume (f : FieldId) (ch : Idx16) (s : State) : Host.Outcome State Fault Refusal :=
  let m := (s.field f).mover ch
  let busy := (s.field f).movers.any fun x => (x.state == .running || x.state == .preempted) && Nat.blt m.active.prio x.active.prio
  .next (if m.state = .preempted ∧ !busy then s.modMover f ch fun x => { x with state := .running } else s)

/-- A failed access (R340): the channel stops. -/
def State.moverAccessFailed (s : State) (f c code addr : Nat) : State :=
  match ((s.field f).mover c).state with
  | .running | .preempted | .completing =>
    s.modMover f c fun x => { x with state := .stopping, stopFault := true, errCode := code, errAddr := addr, attempt := none }
  | _ => s

/-- The last write of a transfer is issued (R338, R342): the bytes are written, READBACKs go to every endpoint, and the channel enters
COMPLETING; an access that a target refuses is recorded there and fails the transfer instead (R250, R256, R321, R340, R367).  Packets of a
transfer that belongs to an attempt carry its step and attempt (R334). -/
def moverLast (f c : Nat) (s : State) : State :=
  let m := ((s.field f).mover c).active
  let k := s.moverSpan f c
  match s.moverRefusal f c m with
  | some b => (s.refused (moverMaster f c) k b.2.1 b.2.2.1 b.2.2.2 b.1).moverAccessFailed f c b.1 b.2.2.1
  | none =>
    let ws := s.moverWrites m
    let tab := s.endpointTable m.targets
    let n := (ws.map (·.2.length)).sum
    let s1 := ws.foldl (fun t w => t.pokeAny w.1 w.2) s
    let s2 := { s1 with freeCount := s1.freeCount + m.openBytes }
    let own := (((s.field f).mover c).attempt).getD (0, 0)
    let back := tab.2 ++ tab.1.map (·.2)
    let s3 := back.foldl (fun t a => t.send (moverMaster f c) tyReadback k own.1 own.2 (.addr a) 0 [a]) s2
    let s4 := ((s3.bump regReadbacks f back.length).bump regMoverBytes f n)
    let s5 := s4.countNarrow (m.targets.map fun w => flitsOf w.1 w.2).flatten
    let s6 := s5.modMover f c fun x => { x with state := .completing, bytesDone := moverBytes m, endpoints := tab.1 }
    m.reads.foldl (fun t r => t.readNotes .r r.1 r.2) s6

/-- The last write of a RUNNING channel, which may have to wait for a WAKING bank (R158, R338). -/
def atMoverLastWrite (f : FieldId) (ch : Idx16) (s : State) : State :=
  if ((s.field f).mover ch).state ≠ .running then s
  else if s.moverAsleep ((s.field f).mover ch).active then s.sleep (.moverLastWrite f ch)
  else moverLast f ch s

/-- The last write of a transfer is issued (R338). -/
def execMoverLastWrite (f : FieldId) (ch : Idx16) (s : State) : Host.Outcome State Fault Refusal :=
  .next (atMoverLastWrite f ch s)

/-- Every READBACK and ACK of a COMPLETING channel has been answered (R338): the count, LAST_USER, the interrupt, channels chained on
it, and SHADOW. -/
def moverDone (f c : Nat) (s : State) : State :=
  let m := (s.field f).mover c
  let s1 := (s.modMover f c fun x => { x with doneCount := (x.doneCount + 1) % 2 ^ 32, lastUser := x.active.user, endpoints := []
                                              attempt := none }).bump regMoverTransfers f 1
  let s2 := if m.active.irq then s1.interrupt f 1 [c, m.active.user] else s1
  let s3 := s2.moverEvents f fun x => x.trigger == 2 && x.trigArg == c
  s3.moverReload f c

/-- A transfer completes (R338, R342). -/
def execMoverComplete (f : FieldId) (ch : Idx16) (s : State) : Host.Outcome State Fault Refusal :=
  .next (if ((s.field f).mover ch).state = .completing then moverDone f ch s else s)

/-- The issued writes of a STOPPING channel are all answered (R342, R343): ERROR after a failure, ARMED after an ABORT, IDLE after
STOP. -/
def moverHalt (f c : Nat) (s : State) : State :=
  let m := (s.field f).mover c
  let s1 := if m.bytesDone = moverBytes m.active then s else s.moverTorn f c
  if m.stopFault then s1.moverError f c m.errCode m.errAddr
  else if m.attempt.isSome then s1.modMover f c fun x => { x with state := .armed, pending := 0, attempt := none }
  else s1.modMover f c fun x => { x with state := .idle }

/-- A STOPPING channel has stopped (R342). -/
def execMoverStopped (f : FieldId) (ch : Idx16) (s : State) : Host.Outcome State Fault Refusal :=
  .next (if ((s.field f).mover ch).state = .stopping then moverHalt f ch s else s)

end Sys2Proof.Machine
end

