-- ==== Sys2Proof/Machine/MeshCmds.lean ====
section
/-! DEFINITION. What arrives over the mesh at piers, and the commands of links, routes and timetables (R184, R216, R281 to R317). -/

namespace Sys2Proof.Machine

/-! ### Refusals at a target (R16, R158, R284, R367) -/

/-- A request `c` reaches the target of a device address: a pier drops one of another epoch (R51); a refused one changes nothing and is
answered NACK; one that meets a WAKING bank waits there (R158); otherwise `act` is performed. -/
def State.atTarget (s : State) (c : Instr) (p : Pkt) (right : Right) (a n : Nat) (act : State → State) : State :=
  if addrRegion a = 8 ∧ s.stale p then s.dropStale p
  else
    let code := s.accessCode p.master.toNat p.span.toNat right a n
    if code = 0 then (if s.windowAsleep a n then s.sleep c else act s) else (s.refused p.master.toNat p.span.toNat right a n code).answer p tyNack code []

/-! ### Arrivals at a pier (R184, R216, R306) -/

/-- Rows arrive at pier address `r` of a pier: they are written whole, or refused. -/
def State.rowsArrive (s : State) (c : Instr) (p : Pkt) (f r : Nat) (bytes : List Byte) (act : State → State) : State :=
  s.atTarget c p .w (rowKey f r) bytes.length fun t => act (t.putRows f r bytes)

/-- Count rows on a channel (R184). -/
def State.countRows (s : State) (f chan n : Nat) : State :=
  (s.modSeq f fun q => { q with rowCount := q.rowCount.set chan (q.rowCount.getD chan 0 + n) }).wakeWaiting f

/-- ROWS at its pier. -/
def atRows (p : Pkt) (f : FieldId) (chan : Idx16) (rdst : BitVec 22) (bytes : List Byte) (s : State) : State :=
  s.rowsArrive (.rows p f chan rdst bytes) p f rdst.toNat bytes fun t => t.countRows f chan ((bytes.length + 511) / 512)

/-- ROWS. -/
def execRows (p : Pkt) (f : FieldId) (chan : Idx16) (rdst : BitVec 22) (bytes : List Byte) (s : State) :
    Host.Outcome State Fault Refusal :=
  .next (s.carried tyRows (flitsFor bytes.length) p (atRows p f chan rdst bytes))

/-- MCAST_DATA at a target: the window is written, counted on its channel, and acknowledged (R306); it stops a test segment (R395). -/
def atMcastData (p : Pkt) (f : FieldId) (group : Fin 32) (chan : Idx16) (rdst : BitVec 22) (bytes : List Byte) (s : State) : State :=
  s.rowsArrive (.mcastData p f group chan rdst bytes) p f rdst.toNat bytes fun t =>
    ((t.dropSegment f).countRows f chan ((bytes.length + 511) / 512)).answer p tyMcastAck 0 [group.val]

/-- MCAST_DATA. -/
def execMcastData (p : Pkt) (f : FieldId) (group : Fin 32) (chan : Idx16) (rdst : BitVec 22) (bytes : List Byte) (s : State) :
    Host.Outcome State Fault Refusal :=
  .next (s.carried tyMcastData (flitsFor bytes.length) p (atMcastData p f group chan rdst bytes))

/-- SIGNAL: dropped and counted when its step or attempt is not the open one (R216). -/
def execSignal (p : Pkt) (f : FieldId) (chan : Idx16) (s : State) : Host.Outcome State Fault Refusal :=
  let k := p.span.toNat
  let g (q : Sequencer) : Sequencer := { q with sigCount := q.sigCount.set chan (q.sigCount.getD chan 0 + 1) }
  .next (s.carried tySignal 1 p fun t => if t.stale p then t.dropStale p
    else if !t.reachable f then t.answer p tyNack nackUnreachable []
    else if t.resetting k then t.answer p tyNack nackReset []
    else if (t.field f).power.state.nack ≠ 0 then t.answer p tyNack (t.field f).power.state.nack []
    else if t.openStep f ≠ some (k, p.step.toNat, p.attempt.toNat) then t.bump regSignalDrops f 1
    else ((t.modSeq f g).wakeWaiting f).answer p tyAck 0 [])

/-! ### Responses (R173, R182, R193, R295, R297) -/

/-- Rows of a read have landed: the read ends with its last bytes. -/
def State.readLanded (s : State) (o : Outstanding) (n : Nat) : State :=
  let f := o.field
  if n < o.bytes then
    let g (x : Outstanding) : Outstanding :=
      if x.master == o.master && x.tag == o.tag then { x with bytes := x.bytes - n, dest := x.dest.map fun d => rowAfter d (n / 512) } else x
    s.modMesh fun m => { m with requests := m.requests.map g }
  else
    let s1 := s.endRequest o.master o.tag
    let s2 := if o.serial = 0 then s1 else s1.responded f o.serial
    ((s2.fetchNext f o.span).aheadGo f).wakeWaiting f

/-- READ_DATA lands at the pier that fetched it (R180 to R182); a bank that is not ACTIVE or a locked row fails the attempt (R145,
R158); that of a probe tells that the pier answers (R406). -/
def atReadData (p : Pkt) (bytes : List Byte) (s : State) : State :=
  if s.stale p then s.dropStale p
  else match s.outstanding p.master.toNat p.tag.toNat with
  | none => s
  | some o => match o.dest with
    | none => ((s.endRequest o.master o.tag).probeAnswered o).settle
    | some d =>
      let l := bytes.take o.bytes
      let rows := rowsFrom d ((l.length + 511) / 512)
      if s.rowsAsleep o.field rows then s.sleep (.readData p bytes) else (s.withRows o.field [d] rows fun t => t.putRows o.field d l).readLanded o l.length

/-- READ_DATA. -/
def execReadData (p : Pkt) (bytes : List Byte) (s : State) : Host.Outcome State Fault Refusal :=
  .next (s.carried tyReadData (flitsFor bytes.length) p (atReadData p bytes))

/-- An ACK ends the request it answers (R173, R297); the old value of an ATOMIC is its requester's. -/
def execAck (p : Pkt) (old : Word64) (s : State) : Host.Outcome State Fault Refusal :=
  let _ := old
  .next (s.carried tyAck 1 p fun t => if t.stale p then t.dropStale p
    else match t.outstanding p.master.toNat p.tag.toNat with
    | none => t
    | some o =>
      let s1 := t.endRequest o.master o.tag
      let s2 := if o.write then s1.modSeq o.field fun q => { q with writesOpen := q.writesOpen - 1 } else s1
      if o.serial = 0 then s2 else s2.responded o.field o.serial)

/-- A target of a multicast is dropped (R310): the SEND.MCAST completes with PARTIAL once the others have acknowledged. -/
def State.mcastDrop (s : State) (k g root target : Nat) : State :=
  match (s.span k).mcasts.find? fun m => m.group == g && m.root == root with
  | none => s
  | some m =>
    if m.targets.any (·.1 == target) then
      let drop (x : Mcast) : Mcast := if x = m then { x with targets := x.targets.filter (·.1 != target) } else x
      let s1 := s.modSpan k fun p => { p with mcasts := p.mcasts.map drop }
      let s2 := ((s1.event (pierMaster root) 0x0A11 (items1 [g, target])).bump regMcastPartials 0 1).failed root 0x20 |>.probe target
      match (s2.span k).mcasts.find? fun x => x.group == g && x.root == root with
      | some x => (s2.mcastGo k x).mcastCheck k g root
      | none => s2
    else s

/-- NACK RETIRED or UNREACHABLE to the root of a multicast drops the targets that it can no longer reach (R310). -/
def State.mcastLost (s : State) (k root : Nat) : State :=
  ((s.span k).mcasts.filter (·.root == root)).foldl (fun t m =>
    (m.targets.filter fun x => !t.reachable x.1 || (t.field x.1).power.state.nack == nackRetired).foldl (fun u x =>
      u.mcastDrop k m.group root x.1) t) s

/-- The channel of a mover master that a failed access stops: the one at work of its two (R340, R352); the address is not in the
response, so ERR_ADDR is free. -/
def State.moverNack (s : State) (master code : Nat) : State :=
  let f := (master - 0x200) / 8
  let c := 2 * ((master - 0x200) % 8)
  match [c, c + 1].find? fun x => [MoverState.running, .preempted, .completing].contains ((s.field f).mover x).state with
  | some x => (s.moverAccessFailed f x code (s.free 48).toNat).nextFree
  | none => s

/-- A request has failed with a NACK code (R284, R295): a pier's run-ahead read is given back to its FETCH (R193); any other reports the
code's bit. -/
def State.requestFailed (s : State) (master tag code : Nat) : State :=
  match s.outstanding master tag with
  | none =>
    if 0x200 ≤ master ∧ master < 0x2F0 then s.moverNack master code
    else if 0x100 ≤ master ∧ master < 0x11E ∧ (code = nackRetired ∨ code = nackUnreachable) then
      match s.spanOf (master - 0x100) with
      | some k => s.mcastLost k (master - 0x100)
      | none => s
    else s
  | some o =>
    let s1 := s.endRequest master tag
    if o.master / 256 = 5 then s1
    else if o.ahead.isSome then s1.dropAhead o.field fun a => a.tags.contains tag
    else
      let s2 := if o.write then s1.modSeq o.field fun q => { q with writesOpen := q.writesOpen - 1 } else s1
      s2.failed o.field (nackBit code)

/-- NACK. -/
def execNack (p : Pkt) (code : BitVec 8) (s : State) : Host.Outcome State Fault Refusal :=
  .next (s.carried tyNack 1 p fun t => if t.stale p then t.dropStale p else (t.requestFailed p.master.toNat p.tag.toNat code.toNat).settle)

/-- A request gets no response in 50 µs (R295). -/
def execResponseTimeout (p : Pkt) (s : State) : Host.Outcome State Fault Refusal :=
  let m := p.master.toNat
  let isPier := 0x100 ≤ m && m < 0x11E
  .next (if isPier && (s.outstanding m p.tag.toNat).isNone then s
    else
      let s1 := (s.event m 0x0605 []).bump regLostResponses 0 1
      (s1.requestFailed m p.tag.toNat nackLost).settle)

/-! ### Multicast (R305 to R310) -/

/-- The first multicast of a group in progress that still has a target. -/
def State.mcastOf (s : State) (k g target : Nat) : Option Mcast :=
  (s.span k).mcasts.find? fun m => m.group == g && m.targets.any (·.1 == target)

/-- A target acknowledges a window, which returns its credit (R306, R308). -/
def State.mcastAcked (s : State) (k g target : Nat) : State :=
  match s.mcastOf k g target with
  | none => s
  | some m =>
    let one (t : Nat × Nat × Nat × Nat) : Nat × Nat × Nat × Nat := if t.1 = target then (t.1, t.2.1 + 1, t.2.2.1 + 1, 0) else t
    let new := { m with targets := m.targets.map one }
    let s1 := s.modSpan k fun p => { p with mcasts := p.mcasts.map fun x => if x = m then new else x }
    (s1.mcastGo k new).mcastCheck k g m.root

/-- MCAST_ACK. -/
def execMcastAck (p : Pkt) (group : Fin 32) (target : FieldId) (s : State) : Host.Outcome State Fault Refusal :=
  .next (s.carried tyMcastAck 1 p fun t => if t.stale p then t.dropStale p else t.mcastAcked p.span.toNat group target)

/-- A target has lost its buffers (R309, R310): its credits are restored, and the windows it has not acknowledged are re-sent to it alone; the
third re-send of a window drops it. -/
def State.mcastResend (s : State) (k g target : Nat) : State :=
  match s.mcastOf k g target with
  | none => s
  | some m =>
    let old := (m.targets.find? (·.1 == target)).getD (target, 0, 0, 0)
    if 3 ≤ old.2.2.2 then (s.mcastDrop k g m.root target).settle
    else
      let due := (List.range m.sent).filter (old.2.2.1 ≤ ·)
      let one (t : Nat × Nat × Nat × Nat) : Nat × Nat × Nat × Nat := if t.1 = target then (t.1, 2, t.2.2.1, t.2.2.2 + 1) else t
      let new := { m with targets := m.targets.map one }
      let s1 := s.modSpan k fun p => { p with mcasts := p.mcasts.map fun x => if x = m then new else x }
      let rows := s.rows m.root (rowsFrom m.src m.rows)
      let head (w i : Nat) : List Nat := [m.group, m.chan, rowAfter m.rdst (windowRows * w + i)]
      let s2 := due.foldl (fun t w =>
        t.sendRows m.root tyMcastData k (fun _ => .pier target) true (head w) (slice (512 * windowRows * w) (512 * windowRows) rows)) s1
      (s2.event (pierMaster m.root) 0x0A12 []).bump regMcastResends 0 due.length

/-- CREDIT_RESET (R309). -/
def execCreditReset (p : Pkt) (group : Fin 32) (target : FieldId) (s : State) : Host.Outcome State Fault Refusal :=
  .next (s.carried tyCreditReset 1 p fun t => if t.stale p then t.dropStale p else t.mcastResend p.span.toNat group target)

/-- A target has not acknowledged in 50 µs (R310). -/
def execMcastTargetTimeout (sp : SpanId) (group : Fin 32) (target : FieldId) (s : State) : Host.Outcome State Fault Refusal :=
  .next (match s.mcastOf sp group target with
    | none => s
    | some m => (s.mcastDrop sp group m.root target).settle)

/-! ### Packet types (R283) -/

/-- A packet of a reserved TYPE is dropped and recorded (R283). -/
def execReservedPacketType (s : State) : Host.Outcome State Fault Refusal := .next (s.supEvent 0x0606 [])

/-! ### Links (R299 to R304) -/

/-- Spare wires in use on a port, as the dictionary shows them (R317). -/
def State.addSpare (s : State) (r d g : Nat) : State :=
  let l := leBytes 4 (s.reg regSpareWires r)
  (s.modRouter r fun x => { x with spares := x.spares ++ [(d, g)] }).setReg regSpareWires r (ofLe (splice l d (leBytes 1 (leAt l d 1 + 1))))

/-- Occurrences of a wire of port `d` within the last 24 hours. -/
def Router.wireCount (x : Router) (now d w : Nat) : Nat :=
  (x.wires.filter fun o => o.1 == d && o.2.1 == w && now - o.2.2 ≤ 86400).length

/-- The wires of port `d` marked for a spare: three replays within 24 hours (R300). -/
def Router.marked (x : Router) (now d : Nat) : List Nat :=
  ((x.wires.filter fun o => o.1 == d).map (·.2.1)).eraseDups.filter fun w => 3 ≤ x.wireCount now d w

/-- Does a port need a second spare of one group (R300)? -/
def Router.unrepairable (x : Router) (now d : Nat) : Bool :=
  let gs := (x.marked now d).map (· / 32)
  gs.any (fun g => x.spares.contains (d, g)) || gs.eraseDups.length != gs.length

/-- LINK_REPLAY: a CRC mismatch at input port `d` of router `r`, the wires that differ, and whether the replay fails too. -/
def execLinkReplay (r : RouterId) (d : LinkDir) (wires : List (BitVec 12)) (failed : Bool) (s : State) :
    Host.Outcome State Fault Refusal :=
  let t := s.opSeconds
  .next (if s.linkState r d ≠ .online then s
    else
      let n := (s.router r).replays.getD d 0 + 1
      let seen := wires.map fun w => (d.val, w.toNat, t)
      let s1 := (s.unitEvent (routerHolder r) 0x0601 []).bump regReplays r 1
      let s2 := s1.modRouter r fun x => { x with replays := x.replays.set d (if failed then n else 0), wires := x.wires ++ seen }
      if (failed ∧ 4 ≤ n) ∨ (s2.router r).marked t d ≠ [] then
        ((s2.setLinkState r d .repairing).charge (linkUnit r d) 0x0602).settle
      else s2)

/-- LINK_REPAIR_DONE: spares are switched in, or the link retires. -/
def execLinkRepairDone (r : RouterId) (d : LinkDir) (ok : Bool) (s : State) : Host.Outcome State Fault Refusal :=
  let t := s.opSeconds
  .next (if s.linkState r d ≠ .repairing then s
    else if !ok || (s.router r).unrepairable t d then s.retireLink r d
    else
      let ws := (s.router r).marked t d
      let s1 := ws.foldl (fun u w => u.addSpare r d (w / 32)) s
      let clean (x : Router) : Router :=
        { x with replays := x.replays.set d 0, wires := x.wires.filter fun o => !(o.1 == d.val && ws.contains o.2.1) }
      ((s1.modRouter r clean).setLinkState r d .online).unitEvent (routerHolder r) 0x0602 [])

/-- The barrier bound at a longest route (R293, R317). -/
def barrierBound (h : Nat) : Nat := 2 * h * 25 + 480 + 2 * h * 25 / 2

/-- Is any link retired or any field dark (R303)? -/
def State.detouring (s : State) : Bool :=
  s.mesh.routers.any (fun x => x.links.any (· == .retired)) || s.fields.any fun x => x.state == .dark || x.state == .retired

/-- ROUTE_HOLD_END (R304): injection switches to the new generation. -/
def execRouteHoldEnd (s : State) : Host.Outcome State Fault Refusal :=
  .next (if !s.mesh.holding then s
    else
      let h := s.detours.2
      let s1 := s.modMesh fun m =>
        { m with routeGen := !m.routeGen, holding := false, routers := m.routers.map fun x => { x with table := x.next, next := [] } }
      let s2 := (s1.supEvent 0x0604 []).bump regRouteChanges 0 1
      ((s2.setReg regRouting 0 (boolNat s.detouring)).setReg regMaxHops 0 h).setReg regBarrierBound 0 (barrierBound h))

/-! ### Timetables (R311 to R315) -/

/-- The value of slot `x` in the bytes of one output (R311). -/
def slotNibble (l : List Byte) (x : Nat) : Nat := leAt l (x / 2) 1 / 16 ^ (x % 2) % 16

/-- May a packet that came in by `input` (0 to 3 a link port, 4 injection) leave by `output` (0 to 3, or 4 the pier) on a
dimension-ordered route: along x, then along y (R302, R311)? -/
def dimensionOrdered (input output : Nat) : Bool :=
  output == 4 || input == 4 || (input != output && (input % 2 == 1 || output % 2 == 0))

/-- The sections of a timetable image: router, output mask, and the bytes of each output in port order. -/
def timetableSections (half : Nat) : Nat → List Byte → List (Nat × List (Nat × List Byte))
  | 0, _ => []
  | n + 1, l =>
    let ports := bitList 5 (leAt l 1 1)
    let outs := (List.range ports.length).map fun i => (ports.getD i 0, slice (4 + i * half) half l)
    (leAt l 0 1, outs) :: timetableSections half n (l.drop (4 + ports.length * half))

/-- Does one output of a router keep R311 in every slot? -/
def State.timetableOutOk (s : State) (fields : List Nat) (period r : Nat) (o : Nat × List Byte) : Bool :=
  (List.range period).all fun x =>
    let v := slotNibble o.2 x
    v == 0 || (v ≤ 5 && dimensionOrdered (v - 1) o.1 &&
      (o.1 == 4 || (s.linkState r o.1 != .absent && fields.contains (routerField (neighbour r o.1)))))

/-- Is a timetable image refused (R311)? -/
def State.timetableOk (s : State) (k : Nat) (l : List Byte) : Bool :=
  let period := leAt l 4 2
  let fields := (s.span k).here
  let secs := timetableSections (period / 2) (leAt l 6 1) (l.drop 16)
  leAt l 0 4 == 0x5454594F && 64 ≤ period && period ≤ 4096 && period % 64 == 0 && leAt l 8 4 == l.length &&
  crc32 (l.drop 16) == leAt l 12 4 &&
  secs.all (fun x => x.1 < 120 && fields.contains (routerField x.1) && x.2.all (s.timetableOutOk fields period x.1)) &&
  (secs.map (·.1)).eraseDups.length == secs.length

/-- TIMETABLE_LOAD. -/
def execTimetableLoad (sp : SpanId) (s : State) : Host.Outcome State Fault Refusal :=
  let a := s.reg regTimetableAddr sp
  let n := leAt ((s.peek a 16).getD []) 8 4
  let l := if n ≤ 2 ^ 21 then (s.peek a n).getD [] else []
  let size := if n ≤ 2 ^ 21 then max 16 n else 16
  .next (match (s.span sp).state with
    | .loading | .paused =>
      let s1 := s.noteRead a size
      (if s.timetableOk sp l then
        s1.modSpan sp fun p => { p with timetable := { Timetable.reset with period := leAt l 4 2, loaded := true } }
      else s1.noteOutside a size).settle
    | _ => s)

/-- Device time reaches the window's start W (R312). -/
def execTimetableWindowStart (sp : SpanId) (s : State) : Host.Outcome State Fault Refusal :=
  let t := (s.span sp).timetable
  .next (if t.window.isSome ∧ !t.opened then
      s.modSpan sp fun p => { p with timetable := { p.timetable with opened := true, slot := 0 } }
    else s)

/-- A slot reserved for a pier begins (R313 to R315): its packet goes, or SLIP goes to every pier of the span; a pier that a drawbridge has
stalled is not ready. -/
def execTimetableSlot (f : FieldId) (ready : Bool) (s : State) : Host.Outcome State Fault Refusal :=
  .next (match s.openStep f with
    | none => s
    | some (k, n, a) =>
      let t := (s.span k).timetable
      if !t.opened || t.slipped then s
      else if ready ∧ (s.field f).state ≠ .drawbridge then s.modSpan k fun p => { p with timetable := { p.timetable with slot := p.timetable.slot + 1 } }
      else s.toMembers (pierMaster f) tySlip k n a (s.span k).members [])

/-- SLIP (R315): the first of an attempt frees the span's reservations and is recorded. -/
def execSlip (p : Pkt) (f : FieldId) (s : State) : Host.Outcome State Fault Refusal :=
  let k := p.span.toNat
  .next (s.carried tySlip 1 p fun t => if t.stale p then t.dropStale p
    else if t.openStep f = some (k, p.step.toNat, p.attempt.toNat) ∧ (t.span k).timetable.window.isSome ∧ !(t.span k).timetable.slipped then
      ((t.modSpan k fun q => { q with timetable := { q.timetable with slipped := true } }).event (pierMaster (t.span k).anchor) 0x0A10
        []).bump regTimetableSlips k 1
    else t)

/-- TIMETABLE_WINDOW_END (R312). -/
def execTimetableWindowEnd (sp : SpanId) (s : State) : Host.Outcome State Fault Refusal :=
  .next (if (s.span sp).timetable.opened then
      s.modSpan sp fun p => { p with timetable := { p.timetable with window := none, opened := false } }
    else s)

end Sys2Proof.Machine
end

