-- ==== Sys2Proof/Machine/Pcie.lean ====
section
/-! DEFINITION. The paths to the dictionary: slots, the PCIe function, the field network's handshakes, JTAG requests, and the timers of the server
(R511, R519, R521 to R536, R574). -/

namespace Sys2Proof.Machine

/-! ### Messages (R512, R523) -/

/-- Is a message malformed: MAGIC, VERSION or LENGTH? -/
def malformed (l : List Byte) : Bool := leAt l 0 2 != 0x4459 || leAt l 2 1 != 1 || 4032 < leAt l 20 4

/-- The request of a message of a master. -/
def DReq.ofBytes (l : List Byte) (master span : Nat) (own : Bool) : DReq :=
  { op := leAt l 3 1, master := master, span := span, tx := (leAt l 4 2).testBit 0, reqId := leAt l 8 4, index := leAt l 12 2
    sub := leAt l 14 1, offset := leAt l 16 4, length := leAt l 20 4, payload := slice 32 (leAt l 20 4) l, own := own }

/-- Are the reserved bits of a message 0 (R13)? -/
def headerOk (l : List Byte) : Bool := leAt l 4 2 < 4 && allZero (slice 15 1 l) && allZero (slice 28 4 l)

/-- The message that answers a request (R512): TX as it came, RESPONSE set. -/
def replyMessage (r : DReq) (x : Reply) : List Byte :=
  leBytes 2 0x4459 ++ leBytes 1 1 ++ leBytes 1 r.op ++ leBytes 2 (boolNat r.tx + 2) ++ leBytes 2 x.status ++ leBytes 4 r.reqId ++
  leBytes 2 r.index ++ leBytes 1 r.sub ++ zeros 1 ++ leBytes 4 r.offset ++ leBytes 4 x.payload.length ++ leBytes 4 x.gen ++ zeros 4 ++ x.payload

/-- A message is served: one that sets a reserved bit is refused with ACCESS and not performed (R13). -/
def State.serveMessage (s : State) (l : List Byte) (master span : Nat) (own : Bool) : State × List Byte :=
  let r := DReq.ofBytes l master span own
  let x := if headerOk l then s.serve r else
    (((s.bump regRequests 0 1).bump regRequestErrors 0 1), ⟨stAccess, s.gen32, []⟩)
  (x.1, replyMessage r x.2)

/-! ### Slots (R522, R523) -/

/-- A slot's record. -/
def State.slot (s : State) : Slot → SlotS
  | .pcie i => s.control.pcie.getD i .reset
  | .core f c => (s.control.cores.lookup (coreMaster f c)).getD .reset
/-- Put a slot's record. -/
def State.setSlot (s : State) (x : Slot) (v : SlotS) : State :=
  match x with
  | .pcie i => s.modCtl fun c => { c with pcie := c.pcie.set i v }
  | .core f c => s.modCtl fun y => { y with cores := (coreMaster f c, v) :: y.cores.filter (·.1 != coreMaster f c) }

/-- The span that a request of a core carries (R348). -/
def State.coreTag (s : State) (f c : Nat) : Nat := leAt (leBytes 4 (s.reg regCoreSpan f)) c 1

/-- The keys that a message would write. -/
def State.messageKeys (s : State) (l : List Byte) (master span : Nat) : List Nat :=
  if malformed l then [] else s.keysWritten (DReq.ofBytes l master span true)

/-- SUBMIT of a request in a slot by its own master: it is served at once, and the slot is DONE or MALFORMED; a slot of BAR0 then raises
vector 0 (R528); with no supervisor left it stays BUSY (R416). -/
def State.submit (s : State) (x : Slot) (master span : Nat) (l : List Byte) : State :=
  let l := padTo 4064 l
  let ring (t : State) : State := match x with
    | .pcie _ => t.vector 0
    | .core _ _ => t
  if (s.slot x).state = .busy then s
  else if !s.supervised then s.setSlot x { s.slot x with state := .busy, request := l }
  else if malformed l then ring (s.setSlot x { s.slot x with state := .malformed, request := l })
  else
    let y := s.serveMessage l master span true
    let t := ring (y.1.setSlot x ⟨.done, l, padTo 4064 y.2⟩)
    if leAt y.2 6 2 = stOk then t.endKeySessions (s.messageKeys l master span) else t

/-- May the PCIe function be reached? -/
def State.pcieUp (s : State) : Bool := s.boot.powered && s.reg regPcieLink 0 != 0

/-- SUBMIT (R522, R523): a slot of the control window takes it from its own core alone. -/
def execSubmit (slot : Slot) (master : BitVec 12) (request : List Byte) (s : State) : Host.Outcome State Fault Refusal :=
  .next (match slot with
    | .pcie _ => if s.pcieUp ∧ master = 0x300 then s.submit slot 0x300 0xFF request else s
    | .core f c =>
      if !s.reachable f then s
      else if master.toNat = coreMaster f c then s.submit slot master.toNat (s.coreTag f c) request
      else (s.violation targetDict master.toNat 0xFF .w 0).send s.supervisor tyNack 0xFF 0 0 (.master master.toNat) nackAccess [0])

/-! ### The PCIe function (R524 to R531) -/

/-- SUMMARY_CMD (R527): a snapshot fills the buffer, and vector 1 is raised. -/
def execSummaryCmd (s : State) : Host.Outcome State Fault Refusal :=
  .next (if s.pcieUp then
      (s.modCtl fun c => { c with summaryBuf := s.summary, summaryStatus := 2 + 2 ^ 16 * (s.reg regGeneration 0 % 2 ^ 16) }).vector 1
    else s)

/-- IRQ_STATUS_CLEAR (R526). -/
def execIrqStatusClear (mask : Word32) (s : State) : Host.Outcome State Fault Refusal :=
  .next (if s.pcieUp then s.modCtl fun c => { c with irqStatus := (bitList 32 mask.toNat).foldl clearBit c.irqStatus } else s)

/-- PCIE_FUNCTION_RESET (R531). -/
def execPcieFunctionReset (s : State) : Host.Outcome State Fault Refusal :=
  .next ((s.expireTx fun m => m == 0x300).modCtl fun c =>
    { c with pcie := List.replicate 4 .reset, irqStatus := 0, summaryBuf := [], summaryStatus := 0 })

/-- PCIE_LINK_TRAINED (R405, R524, R538): rate in GT/s and width; field 0 carries it. -/
def execPcieLinkTrained (rate : BitVec 8) (width : BitVec 4) (s : State) : Host.Outcome State Fault Refusal :=
  .next (if s.boot.powered ∧ s.reachable 0 = true then s.setReg regPcieLink 0 (rate.toNat + 256 * width.toNat) else s)

/-- DIAG (R574): a request of master 0x300 by JTAG, while JTAG_DIAG is 1; its answer is shifted out. -/
def execDiag (request : List Byte) (s : State) : Host.Outcome State Fault Refusal :=
  let s1 := { s with jtag := { s.jtag with instr := 5, drives := false } }
  .next (if !s.boot.powered ∨ s.reg regJtagDiag 0 ≠ 1 ∨ malformed request then s1
    else
      let y := s1.serveMessage request 0x300 0xFF false
      y.1.emit (.jtag (8 * y.2.length) (ofLe y.2)))

/-! ### Handshakes of the field network (R532 to R535) -/

/-- The session that a HELLO takes: of the two of its slot, one that is not open, before one with a handshake begun. -/
def State.freeSession (s : State) (slot : Nat) : Option Nat :=
  let l := [2 * slot, 2 * slot + 1].filter fun n => !(s.session n).opened
  (l.find? fun n => (s.session n).hello.isNone).orElse fun _ => l.head?

/-- A key slot's key, empty when it holds none. -/
def State.mgmtKey (s : State) (k : Nat) : List Byte := s.control.keys.getD k []

/-- A handshake message is answered and counted (R538). -/
def State.shake (s : State) (port n status : Nat) (payload : List Byte) : State :=
  ((s.bump regRequests 0 1).bump regRequestErrors 0 (if status = stOk then 0 else 1)).emit (.handshake port n status payload)

/-- May a key slot's handshakes be served now, and if not with what status are they answered? -/
def State.shakeStatus (s : State) (slot : Nat) : Nat :=
  if !s.dictReady ∨ s.boot.fuseFault = true then stNotReady
  else if 8 ≤ slot ∨ (s.mgmtKey slot).isEmpty ∨ s.control.keyLocked.getD slot false = true then stAuth
  else stOk

/-- HELLO (R534): Nc comes from the client and Nd is the device's fresh nonce; the answer holds SESSION, Nd and TD. -/
def execHello (port : Fin 2) (slot : BitVec 8) (clientNonce deviceNonce : List Byte) (s : State) : Host.Outcome State Fault Refusal :=
  let k := slot.toNat
  let s0 := s.bump regT1sFrames port 1
  .next (if !s.boot.powered ∨ s.reg regT1sLink port = 0 then s
    else if s.shakeStatus k ≠ stOk then s0.shake port 0xFF (s.shakeStatus k) []
    else match s.freeSession k with
      | none => s0.shake port 0xFF stAuth []
      | some n =>
        let td := Config.hmacSha384 (s.mgmtKey k)
          (leBytes 1 0x44 ++ clientNonce ++ deviceNonce ++ leBytes 8 (s.reg regSerial 0) ++ leBytes 1 n)
        (s0.modSession n fun x => { x with hello := some (clientNonce, deviceNonce), port := port }).shake port n stOk
          (leBytes 1 n ++ deviceNonce ++ td))

/-- A wrong tag (R369, R535): event 0x0802; the fifth failure of a slot within 60 s locks it. -/
def State.authFailed (s : State) (n : Nat) : State :=
  let k := n / 2
  let recent := s.now :: (s.control.keyFails.getD k []).filter fun t => s.now < t + 60000000000
  let s1 := ((s.bump regAuthFailures 0 1).supEvent 0x0802 []).modCtl fun c =>
    { c with keyFails := c.keyFails.set k recent, keyLocked := if 5 ≤ recent.length then c.keyLocked.set k true else c.keyLocked }
  (s1.modSession n fun x => { x with hello := none }).dropEntries n

/-- A session opens (R534, R535): event 0x0803, its recorder cursor at 0 (R427). -/
def State.openSession (s : State) (n : Nat) (nc nd : List Byte) : State :=
  let ks := Config.hmacSha384 (s.mgmtKey (n / 2)) (leBytes 1 0x4B ++ nc ++ nd ++ leBytes 1 n)
  ((s.modSession n fun x => { x with opened := true, hello := none, key := ks, replies := [] }).supEvent 0x0803 []).setPerMaster
    (sessionMaster n) regCursor 0

/-- AUTH (R534, R535). -/
def execAuth (session : Idx16) (tag : List Byte) (s : State) : Host.Outcome State Fault Refusal :=
  let x := s.session session
  let s0 := s.bump regT1sFrames x.port 1
  .next (match x.hello with
    | none => s
    | some (nc, nd) =>
      if !s.boot.powered ∨ s.reg regT1sLink x.port = 0 then s
      else if s.shakeStatus (session / 2) ≠ stOk then s0.shake x.port session (s.shakeStatus (session / 2)) []
      else if tag = Config.hmacSha384 (s.mgmtKey (session / 2)) (leBytes 1 0x43 ++ nd ++ nc ++ leBytes 1 session) then
        (s0.openSession session nc nd).shake x.port session stOk []
      else (s0.authFailed session).shake x.port session stAuth [])

/-- CLOSE (R535): after an expired transaction it is answered EXPIRED and not performed (R519). -/
def execClose (session : Idx16) (s : State) : Host.Outcome State Fault Refusal :=
  let x := s.session session
  let m := sessionMaster session
  let s0 := s.bump regT1sFrames x.port 1
  .next (if !s.reaches m then s
    else if !s.dictReady ∨ s.boot.fuseFault = true then s0.shake x.port session stNotReady []
    else if s.control.expired.contains m then
      (s0.modCtl fun c => { c with expired := c.expired.filter (· != m) }).shake x.port session stExpired []
    else (s0.shake x.port session stOk []).endSession session)

/-! ### Timers (R511, R519, R535) -/

/-- TX_TIMEOUT. -/
def execTxTimeout (master : BitVec 12) (s : State) : Host.Outcome State Fault Refusal := .next (s.expireTx fun m => m == master.toNat)
/-- SESSION_IDLE_TIMEOUT. -/
def execSessionIdleTimeout (session : Idx16) (s : State) : Host.Outcome State Fault Refusal :=
  .next (if (s.session session).opened then s.endSession session else s)
/-- KEY_SLOT_UNLOCK. -/
def execKeySlotUnlock (slot : Fin 8) (s : State) : Host.Outcome State Fault Refusal :=
  .next (if s.control.keyLocked.getD slot false then
      s.modCtl fun c => { c with keyLocked := c.keyLocked.set slot false, keyFails := c.keyFails.set slot [] }
    else s)
/-- FROZEN_COPY_EXPIRY. -/
def execFrozenCopyExpiry (master : BitVec 12) (s : State) : Host.Outcome State Fault Refusal :=
  .next (s.modCtl fun c => { c with frozen := c.frozen.filter fun x => x.master != master.toNat })

end Sys2Proof.Machine
end

