-- ==== Sys2Proof/Machine/Packets.lean ====
section
/-! DEFINITION. Requests by device address that reach a target over the mesh: READ, ATOMIC, SMALL_WRITE, WRITE and READBACK, on memory and on
the control window (R15, R139, R283, R296, R297, R322, R347, R521, R522). -/

namespace Sys2Proof.Machine

/-! ### The control window (R521) -/

/-- What an offset of the control window names: a slot of a core, a channel of a mover block, or a mailbox, with the offset in it. -/
inductive ControlArea where
  | slot (f c off : Nat)
  | mover (f c off : Nat)
  | mailbox (f off : Nat)
deriving DecidableEq, Repr

/-- The slot of core `c` of field `f`. -/
def coreSlot (f c : Nat) : Slot := .core (Fin.ofNat 30 f) (Fin.ofNat 4 c)

/-- The area that an access of `n` bytes at a control-window address lies in; none is ABSENT (R521). -/
def controlArea (a n : Nat) : Option ControlArea :=
  let o := a % 2 ^ 44
  if o < 0x2000 * 120 then if o % 0x2000 + n ≤ 0x2000 then some (.slot (o / 0x8000) (o / 0x2000 % 4) (o % 0x2000)) else none
  else if 0x100000 ≤ o ∧ o < 0x11E000 then
    if o % 256 + n ≤ 256 then some (.mover ((o - 0x100000) / 0x1000) (o % 0x1000 / 256) (o % 256)) else none
  else if 0x200000 ≤ o ∧ o < 0x21E000 then if o % 0x1000 + n ≤ 0x1000 then some (.mailbox ((o - 0x200000) / 0x1000) (o % 0x1000)) else none
  else none

/-- The field of an area. -/
def areaField : ControlArea → Nat
  | .slot f _ _ | .mover f _ _ | .mailbox f _ => f

/-- The access-table target of an area, and the items that an access touches there (R362, R521). -/
def areaTarget : ControlArea → Nat × List Nat
  | .slot _ _ _ => (targetDict, [])
  | .mover f c _ => (targetMover f, [c])
  | .mailbox f _ => (targetCluster f, [])

/-- May a packet read an area (R322, R362)?  A core reads its own slot. -/
def State.areaReadable (s : State) (p : Pkt) (x : ControlArea) : Bool :=
  (match x with
    | .slot f c _ => p.master.toNat == coreMaster f c
    | _ => false) || s.granted (areaTarget x).1 p.master.toNat p.span.toNat .r (areaTarget x).2

/-- The 8,192 bytes of a slot as a read finds them (R522). -/
def slotBytes (x : SlotS) : List Byte :=
  let code := match x.state with
    | .idle => 0 | .busy => 1 | .done => 2 | .malformed => 3
  padTo 4064 x.request ++ zeros 4 ++ leBytes 4 code ++ zeros 24 ++ padTo 4064 x.response ++ zeros 32

/-- The 256 bytes of a mover channel as a read finds them (R322, R324). -/
def State.channelBytes (s : State) (f c : Nat) : List Byte :=
  let m := (s.field f).mover c
  m.active.toBytes ++ m.shadow.toBytes ++ zeros 4 ++ leBytes 4 m.status ++ leBytes 8 m.bytesDone ++ leBytes 8 m.errAddr ++
  leBytes 4 m.doneCount ++ leBytes 4 m.lastUser ++ leBytes 2 (m.epoch + 256 * s.moverSpan f c) ++ zeros 94

/-- R322: a mover register is read or written 1 to 64 B wide, naturally aligned. -/
def areaAligned (x : ControlArea) (n : Nat) : Bool :=
  match x with
  | .mover _ _ off => windowAccessOk (off % 64) n
  | _ => true

/-- What a read of an area delivers. -/
def State.areaBytes (s : State) (x : ControlArea) (n : Nat) : List Byte :=
  match x with
  | .slot f c off => slice off n (slotBytes (s.slot (coreSlot f c)))
  | .mover f c off => slice off n (s.channelBytes f c)
  | .mailbox f off => s.read (mailboxKey f off) n

/-- A packet of the control window reaches an area: stale ones are dropped, and it is refused where there is none or its field cannot be
reached (R51, R284, R521). -/
def State.atControl (s : State) (p : Pkt) (a n : Nat) (act : ControlArea → State) : State :=
  if s.stale p then s.dropStale p
  else match controlArea a n with
    | none => s.answer p tyNack nackAbsent []
    | some x => if s.reachable (areaField x) then act x else s.answer p tyNack nackUnreachable []

/-- An access to a target without the right it needs (R364, R367). -/
def State.refuseArea (s : State) (p : Pkt) (right : Right) (x : ControlArea) (addr : Nat) : State :=
  (s.violation (areaTarget x).1 p.master.toNat p.span.toNat right addr).answer p tyNack nackAccess []

/-- A write to CONTROL of a channel (R324): the bit that is set acts; several set, or a reserved one, are refused. -/
def controlBits (f c v : Nat) (s : State) : Option State :=
  if v = 0x10 then some (moverGo f c s)
  else if v = 0x20 then moverArm f c s
  else if v = 0x40 then some (moverStop f c s)
  else if v = 0x80 then some (moverClear f c s)
  else if v = 0 then some s
  else none

/-- A write in the 256 bytes of a channel (R322 to R325): to a register set or to CONTROL; the other registers are RO. -/
def channelWrite (f c off : Nat) (bytes : List Byte) (s : State) : Option State :=
  if off < 0x40 then moverSetWrite f c false off bytes s
  else if off < 0x80 then moverSetWrite f c true (off - 0x40) bytes s
  else if off + bytes.length ≤ 0x84 ∧ windowAccessOk (off - 0x80) bytes.length then controlBits f c (256 ^ (off - 0x80) * ofLe bytes) s
  else none

/-- A write in a slot by its own core (R522, R523): to REQUEST, or SUBMIT; anything else is refused. -/
def State.slotWrite (s : State) (p : Pkt) (stream : Bool) (f c off : Nat) (bytes : List Byte) : State :=
  let x := s.slot (coreSlot f c)
  if off + bytes.length ≤ 0xFE0 then
    (s.setSlot (coreSlot f c) { x with request := splice (padTo 4064 x.request) off bytes }).performed p stream
  else if off = 0xFE0 ∧ bytes.length = 4 ∧ ofLe bytes = 1 then
    (s.submit (coreSlot f c) (coreMaster f c) (s.coreTag f c) x.request).performed p stream
  else s.answer p tyNack nackAccess []

/-- A write in the control window. -/
def State.controlWrite (s : State) (p : Pkt) (stream : Bool) (a : Nat) (bytes : List Byte) : State :=
  s.atControl p a bytes.length fun x => match x with
    | .slot f c off => if p.master.toNat = coreMaster f c then s.slotWrite p stream f c off bytes else s.refuseArea p .w x 0
    | .mover f c off => s.windowWrite p stream f c (windowOffset c off) (channelWrite f c off bytes)
    | .mailbox f off => s.mailboxWrite p stream f off bytes

/-! ### Requests (R283, R297) -/

/-- READ_DATA packets of at most 8 flits each (R281). -/
def State.readAnswers (s : State) (p : Pkt) : Nat → List Byte → State
  | 0, _ => s
  | k + 1, l => if l.isEmpty then s else (s.answer p tyReadData 0 ((l.take 2048).map (·.toNat))).readAnswers p k (l.drop 2048)

/-- A read is answered by READ_DATA packets. -/
def State.deliver (s : State) (p : Pkt) (l : List Byte) : State := s.readAnswers p (l.length / 2048 + 1) l

/-- READ at its target. -/
def atRead (p : Pkt) (addr : BitVec 48) (len : BitVec 17) (s : State) : State :=
  let a := addr.toNat
  let n := len.toNat
  if addrRegion a = 12 then
    s.atControl p a n fun x =>
      if !areaAligned x n then s.answer p tyNack nackAccess []
      else if s.areaReadable p x then s.deliver p (s.areaBytes x n)
      else s.refuseArea p .r x (a % 2 ^ 44)
  else s.atTarget (.read p addr len) p .r a n fun t => (t.readNotes .r a n).deliver p (t.peekAny a n)

/-- READ. -/
def execRead (p : Pkt) (addr : BitVec 48) (len : BitVec 17) (s : State) : Host.Outcome State Fault Refusal :=
  .next (s.carried tyRead 1 p (atRead p addr len))

/-- Bytes are written at a device address; parts of scratchpad rows are narrow writes (R138, R140). -/
def State.writeAt (s : State) (a : Nat) (l : List Byte) : State :=
  let t := s.pokeAny a l
  let n := narrowRows a l.length
  if n = 0 then t else t.bump regNarrowWrites (addrField a) n

/-- The new value of an ATOMIC (R283): `a` is the addend, the value swapped in, or the value compared with; `b` the value that a
compare-swap stores. -/
def atomicNew (op : AtomicOp) (old a b : Word64) : Word64 :=
  match op with
  | .fetchAdd => old + a
  | .swap => a
  | .compareSwap => if old = a then b else old

/-- ATOMIC at its target (R139, R283): answered by ACK with the old value; control registers take none. -/
def atAtomic (p : Pkt) (addr : BitVec 48) (op : AtomicOp) (a b : Word64) (s : State) : State :=
  let x := addr.toNat
  if addrRegion x = 12 then s.atControl p x 8 fun _ => s.answer p tyNack nackAccess []
  else s.atTarget (.atomic p addr op a b) p .a x 8 fun t =>
    let old := ofLe (t.peekAny x 8)
    ((t.readNotes .a x 8).writeAt x (leBytes 8 (atomicNew op (BitVec.ofNat 64 old) a b).toNat)).answer p tyAck 0 [old]

/-- ATOMIC. -/
def execAtomic (p : Pkt) (addr : BitVec 48) (op : AtomicOp) (a b : Word64) (s : State) : Host.Outcome State Fault Refusal :=
  .next (s.carried tyAtomic 1 p (atAtomic p addr op a b))

/-- A write request at a device address. -/
def State.writeRequest (s : State) (p : Pkt) (stream : Bool) (addr : BitVec 48) (bytes : List Byte) : State :=
  let a := addr.toNat
  if addrRegion a = 12 then s.controlWrite p stream a bytes
  else s.atTarget (if stream then .write p addr bytes else .smallWrite p addr bytes) p .w a bytes.length fun t => (t.writeAt a bytes).performed p stream

/-- SMALL_WRITE: answered by ACK. -/
def execSmallWrite (p : Pkt) (addr : BitVec 48) (bytes : List Byte) (s : State) : Host.Outcome State Fault Refusal :=
  .next (s.carried tySmallWrite 1 p fun t => t.writeRequest p false addr bytes)

/-- WRITE: a packet of a stream, answered only when it is refused. -/
def execWrite (p : Pkt) (addr : BitVec 48) (bytes : List Byte) (s : State) : Host.Outcome State Fault Refusal :=
  .next (s.carried tyWrite (flitsFor bytes.length) p fun t => t.writeRequest p true addr bytes)

/-- READBACK at its target: answered once the writes before it are performed (R297). -/
def atReadback (p : Pkt) (addr : BitVec 48) (s : State) : State :=
  let a := addr.toNat / 64 * 64
  if addrRegion a = 12 then s.atControl p a 64 fun _ => s.answer p tyAck 0 []
  else s.atTarget (.readback p addr) p .w a 64 fun t => t.answer p tyAck 0 []

/-- READBACK. -/
def execReadback (p : Pkt) (addr : BitVec 48) (s : State) : Host.Outcome State Fault Refusal :=
  .next (s.carried tyReadback 1 p (atReadback p addr))

end Sys2Proof.Machine
end

