-- ==== Sys2Proof/Machine/Scratchpad.lean ====
section
/-! DEFINITION. The commands of the scratchpad banks: accesses, ageing, scrubs, repairs and power states (R138 to R160). -/

namespace Sys2Proof.Machine

/-- The class of a master's accesses (R141). -/
def masterRank : BankMaster → Nat
  | .intake => 1 | .unit => 2 | .turn => 3 | .arrival | .remote _ _ => 4 | .mover _ | .processor _ _ | .supervisor => 5 | .scrub => 6 | .spin => 7

/-- The pass whose intake met an uncorrectable row stops (R101): it completes no more, and no verdict of it comes. -/
def State.passStopped (s : State) (f : Nat) : State :=
  let q := (s.field f).seq
  let flying := q.inFlight.filter (·.unit == .array)
  match flying with
  | [] => s
  | x :: rest =>
    let i := q.passIndex - flying.length
    let s1 := (s.modSeq f fun y => { y with inFlight := y.inFlight.erase x, verdicts := y.verdicts.erase (false, i) }).modArray f fun y =>
      { y.nextTile with checks := y.checks.filter (·.pass != i) }
    if rest.isEmpty then s1.arrayIdle f else s1

/-- An access that delivers no data because of an uncorrectable row ends at its master (R101, R145). -/
def State.bankNoData (s : State) (f b row : Nat) (m : BankMaster) : State :=
  let a := scratchKey f b row
  match m with
  | .intake => (s.passStopped f).failed f 0x10
  | .unit | .turn | .arrival => s.failed f 0x10
  | .remote g c => s.moverAccessFailed g c nackUncorr a
  | .mover c => s.moverAccessFailed f c nackUncorr a
  | .processor g c => s.emit (.accessFault (coreMaster g c) a)
  | .supervisor => s.emit (.accessFault s.supervisor a)
  | .scrub | .spin => s

/-- An access to a bank that is DRAINING, RETAIN or OFF (R158): NACK to its master, event 0x0811, and ACCESS in the pier's report.
Spin reads rows of ACTIVE banks only (R103). -/
def State.bankRefuses (s : State) (f b row : Nat) (m : BankMaster) : State :=
  let s1 := s.event (pierMaster f) 0x0811 []
  let a := scratchKey f b row
  match m with
  | .intake | .unit | .turn | .arrival => s1.failed f 0x40
  | .remote g c => (s1.reportFail f 0x40).moverAccessFailed g c nackOff a
  | .mover c => (s1.reportFail f 0x40).moverAccessFailed f c nackOff a
  | .processor g c => (s1.reportFail f 0x40).emit (.accessFault (coreMaster g c) a)
  | .supervisor => (s1.reportFail f 0x40).emit (.accessFault s.supervisor a)
  | .scrub => s1.reportFail f 0x40
  | .spin => s

/-- What an access leaves in its row once its check bits are good (R138 to R140, R193). -/
def State.bankPerform (s : State) (f b row : Nat) (op : BankOp) : State :=
  let p := pierAddr b row
  match op with
  | .read => s
  | .write l => (s.setRow f p l).rowWritten f p
  | .narrow off l => ((s.write (rowKey f p + off.toNat) (l.take (512 - off.toNat))).bump regNarrowWrites f 1).rowWritten f p

/-- Does an access read its row, so that its check bits are looked at (R138, R144)? -/
def opReads : BankOp → Bool
  | .write _ => false
  | _ => true

/-- An ACTIVE bank performs an access (R144, R145): a corrected row is written back and recorded; an uncorrectable one delivers nothing
and is locked. -/
def State.bankDo (s : State) (f b : Nat) (x : BankWait) : State :=
  let p := pierAddr b x.row
  let what := items1 [f, b] ++ leBytes 2 x.row
  if ((s.field f).bank b).locked.contains x.row then s.bankNoData f b x.row x.master
  else match (if opReads x.op then x.ecc else .clean) with
    | .clean => s.bankPerform f b x.row x.op
    | .corrected =>
      (((s.event (pierMaster f) 0x0310 what).bump regEccCorrected f 1).charge (rowUnit f p) 0x0310).bankPerform f b x.row x.op
    | .uncorrectable =>
      let s1 := (s.event (pierMaster f) 0x0311 what).bump regEccUncorrected f 1
      let s2 := s1.modBank f b fun y => { y with locked := y.locked ++ [x.row] }
      (s2.chargePier f (rowUnit f p) 0x0311).bankNoData f b x.row x.master

/-- BANK_ACCESS (R138, R158): a WAKING bank makes the access wait. -/
def execBankAccess (f : FieldId) (b : BankId) (row : BitVec 16) (m : BankMaster) (op : BankOp) (ecc : EccResult) (s : State) :
    Host.Outcome State Fault Refusal :=
  let x : BankWait := ⟨m, op, row.toNat, ecc, false⟩
  .next (match ((s.field f).bank b).state with
    | .active => (s.bankDo f b x).settle
    | .waking => s.modBank f b fun y => { y with queue := y.queue ++ [x] }
    | .draining | .retain | .off => (s.bankRefuses f b row.toNat m).settle)

/-- The waiting access that has waited longest of those in classes 2 to 6 that are not aged yet becomes aged (R142).  DEDUCED: where several
wait, the one waiting longest is the first to have waited 64 cycles (notes/assumptions/75). -/
def ageFirst : List BankWait → List BankWait
  | [] => []
  | x :: r => if !x.aged && masterRank x.master != 1 && x.master != .spin then { x with aged := true } :: r else x :: ageFirst r

/-- ACCESS_AGED (R142): at an ACTIVE bank no access waits. -/
def execAccessAged (f : FieldId) (b : BankId) (s : State) : Host.Outcome State Fault Refusal :=
  .next (s.modBank f b fun y => { y with queue := ageFirst y.queue })

/-- The place in a queue of the access that the bank performs next (R141 to R143): of those with no earlier access to the same row, an
aged one before all others, then by class, then by arrival. -/
def bankNext (l : List BankWait) : Nat :=
  let free := (List.range l.length).filter fun i => !((l.take i).any fun x => (l[i]?).any fun y => x.row == y.row)
  let rank (i : Nat) : Nat := ((l[i]?).map fun x => if x.aged then 0 else masterRank x.master).getD 8
  free.foldl (fun m i => if rank i < rank m then i else m) (free.headD 0)

/-- The bank performs its queue (R141 to R143): an aged access that goes before a waiting intake read stalls the pass for its cycles, which are
counted. -/
def State.bankRun (s : State) (f b : Nat) : Nat → List BankWait → State
  | 0, _ => s
  | n + 1, l =>
    let i := bankNext l
    match l[i]? with
    | none => s
    | some x =>
      let rest := l.eraseIdx i
      let cycles := match x.op with
        | .narrow _ _ => 2
        | _ => 1
      let s1 := if x.aged && rest.any (·.master == .intake) then s.bump regAgedGrants f cycles else s
      (s1.bankDo f b x).bankRun f b n rest

/-- A bank performs the accesses that wait at it. -/
def State.bankServe (s : State) (f b : Nat) : State :=
  let l := ((s.field f).bank b).queue
  ((s.modBank f b fun x => { x with queue := [] }).bankRun f b l.length l).settle

/-- A bank has woken (R158, R160): it is ACTIVE, waiting accesses are performed, and a request that waited applies. -/
def State.bankAwake (s : State) (f b : Nat) : State :=
  if ((s.field f).bank b).state = .waking then ((((s.bankTo f b .active).bankServe f b)).bankSettle f b).offCheck f else s

/-- BANK_DRAINED (R157, R160): waiting accesses are performed, the rail is lowered or removed, and a request that waited applies; under heat
the request waits for the pier's wake. -/
def execBankDrained (f : FieldId) (b : BankId) (s : State) : Host.Outcome State Fault Refusal :=
  let y := (s.field f).bank b
  .next (if y.state = .draining then
      let s1 := (s.bankServe f b).bankTo f b y.target
      if y.heat then s1 else (s1.bankSettle f b).offCheck f
    else s)

/-- The scrub of a bank moves on to its next row (R146); at the end of a retain scrub the bank has been digested (R384), and returns to
RETAIN unless ACTIVE has been requested (R147). -/
def State.scrubNext (s : State) (f b : Nat) : State :=
  let y := (s.field f).bank b
  let s1 := s.modBank f b fun x => { x with scrubRow := (x.scrubRow + 1) % 65536 }
  if y.scrubRow = 65535 ∧ y.scrubbing then ((s1.keepDigests f (· == b)).modBank f b fun x => { x with scrubbing := false }).bankSettle f b else s1

/-- SCRUB_READ (R146). -/
def execScrubRead (f : FieldId) (b : BankId) (ecc : EccResult) (s : State) : Host.Outcome State Fault Refusal :=
  let y := (s.field f).bank b
  .next (if y.state = .active then
      ((s.bankDo f b ⟨.scrub, .read, y.scrubRow, ecc, false⟩).scrubNext f b).settle
    else s)

/-- RETAIN_SCRUB_DUE (R147): an interval of 0 disables it. -/
def execRetainScrubDue (f : FieldId) (b : BankId) (s : State) : Host.Outcome State Fault Refusal :=
  .next (if ((s.field f).bank b).state = .retain ∧ s.reg regRetainScrub f ≠ 0 then
      (s.modBank f b fun y => { y with scrubbing := true, scrubRow := 0 }).bankTo f b .waking
    else s)

/-! ### Repair (R150 to R152) -/

/-- ROW_REPAIR (R149, R150): test, replacement, refill and unlocking of a locked row of an ACTIVE bank (R156); without its tower copy the row
stays locked. -/
def execRowRepair (f : FieldId) (b : BankId) (row : BitVec 16) (rowGood : Bool) (s : State) : Host.Outcome State Fault Refusal :=
  let r := row.toNat
  .next (if !((s.field f).bank b).locked.contains r ∨ ((s.field f).bank b).state ≠ .active then s
    else
      let s1 := if rowGood then s else s.retireRow (rowUnit f (pierAddr b r))
      if ((s1.field f).bank b).locked.contains r then
        let s2 := s1.noteRefill f b r
        match s1.refill f b r with
        | none => s2.settle
        | some l =>
          (((s2.setRow f (pierAddr b r) l).bump regRefills f 1).modBank f b fun y => { y with locked := y.locked.filter (· != r) }).settle
      else s1.settle)

end Sys2Proof.Machine
end

