-- ==== Sys2Proof/Machine/Sequence.lean ====
section
/-! DEFINITION. The sequencer's own instructions CHECK, PHASE, COMMIT and STEP, and the completion of instructions in the units (R173,
R186 to R190). -/

namespace Sys2Proof.Machine

/-- Write an index register (R174). -/
def Sequencer.setIdx (q : Sequencer) (k v : Nat) : Sequencer := { q with idx := putIdx q.idx k v }

/-- CHECK.WAIT. -/
def execCheckWait (h : Hdr) (s : State) : Host.Outcome State Fault Refusal :=
  .next (s.issue h (checkWord 0 h 0) none fun t =>
    (t.await h (.verdicts (t.field h.field).seq.passIndex (hdrToken h))).wakeWaiting h.field)

/-- CHECK.FORCE. -/
def execCheckForce (h : Hdr) (s : State) : Host.Outcome State Fault Refusal :=
  .next (s.issue h (checkWord 1 h 0) none fun t => t.modSeq h.field fun q => { q with forceCheck := true })

/-- CHECK.WINDOW. -/
def execCheckWindow (h : Hdr) (ireg : Idx16) (s : State) : Host.Outcome State Fault Refusal :=
  .next (s.issue h (checkWord 2 h ireg.val) none fun t => t.modSeq h.field fun q => q.setIdx ireg q.window)

/-- PHASE (R188): codes 5 to 7 are reserved, and R167 refuses an image that holds them. -/
def execPhase (h : Hdr) (code : BitVec 3) (s : State) : Host.Outcome State Fault Refusal :=
  .next (s.issue h (phaseWord h code) none fun t => if code.toNat ≤ 4 then t.declarePhase h.field code.toNat else t)

/-- The request head that an attempt may leave (R48; notes/assumptions/67): a step takes no request that arrived after it opened, and a
re-executed attempt takes what the first attempt that reached COMMIT took. -/
def Span.headFor (p : Span) (head : Nat) : Nat :=
  p.headTaken.getD (if (head + 2 ^ 32 - p.reqHead) % 2 ^ 32 ≤ (p.arrivalAtOpen + 2 ^ 32 - p.reqHead) % 2 ^ 32 then head else p.arrivalAtOpen)

/-- COMMIT reaches the anchor of the span (R35, R56): the step is CLOSING, with the provisional marks that its program left; those that
the accept handler moved stay (R230; notes/assumptions/14). -/
def State.anchorCommits (s : State) (k outTail reqHead : Nat) (more : Bool) : State :=
  if (s.span k).step = some .opened then
    (s.modSpan k fun p => { p with step := some .closing, provOutTail := if p.verified.isEmpty then outTail else p.provOutTail
                                   provReqHead := p.headFor reqHead, headTaken := some (p.headFor reqHead), moreChunks := more }).decide k
  else s

/-- COMMIT (R190). -/
def execCommit (h : Hdr) (outTail reqHead : Word32) (more : Bool) (s : State) : Host.Outcome State Fault Refusal :=
  let f := h.field.val
  .next (if (s.field f).seq.state = .prologue then s
    else s.issue h (commitWord h) none fun t =>
      let t1 := t.modSeq f fun q => { q with state := .committing, issuedCommit := true }.setToken (hdrToken h) true
      match t1.memberOf f with
      | some k => if (t1.span k).anchor = f then t1.anchorCommits k outTail.toNat reqHead.toNat more else t1
      | none => t1)

/-- STEP.NEXT (R189, R190, R198): in PROLOGUE the sequencer becomes WAITING, and its attempt starts at once if a step is open.  In RUNNING it
is a NEXT before the body's COMMIT: it waits for a step that no COMMIT ends, and holds back what follows.  The NEXT after a COMMIT finds
the sequencer WAITING by the keystone advance, which is what it does; the checks of its issue are made. -/
def execStepNext (h : Hdr) (s : State) : Host.Outcome State Fault Refusal :=
  let f := h.field.val
  let q := (s.field f).seq
  .next (match q.state with
    | .waiting => s.issueIf (!q.damagedWord) h (nextWord h) none id
    | .running => s.issue h (nextWord h) none fun t => t.await h (.next (hdrToken h))
    | _ => s.issue h (nextWord h) none fun t =>
      let t1 := (t.modSeq f fun q => { q with prologueFailed := false }).seqWait f
      match t1.openStep f with
      | some (k, n, _) =>
        if (t1.span k).step = some .opened then (t1.attemptStart f n (t1.inForce k regStepVariant)).moverSeqEvent f 1 0 else t1
      | none => t1)

/-- STEP.BASE: an image that names register 0 is refused (R167). -/
def execStepBase (h : Hdr) (ireg : Idx16) (modulus : BitVec 8) (base : BitVec 48) (stride : BitVec 32) (s : State) :
    Host.Outcome State Fault Refusal :=
  .next (s.issue h (baseWord h ireg modulus base stride) none fun t => t.modSeq h.field fun q =>
    let b : BaseRec := ⟨base.toNat, modulus.toNat, signed 32 stride.toNat⟩
    if ireg = 0 then q else { q with bases := q.bases.set ireg (some b) }.setIdx ireg (b.at (q.reg 0)))

/-- STEP.ADD. -/
def execStepAdd (h : Hdr) (ireg : Idx16) (imm : BitVec 48) (s : State) : Host.Outcome State Fault Refusal :=
  .next (s.issue h (addWord h ireg imm) none fun t => t.modSeq h.field fun q => q.setIdx ireg (toTwos 64 ((q.reg ireg : Int) + signed 48 imm.toNat)))

/-- STEP.LOOP. -/
def execStepLoop (h : Hdr) (lc : Fin 4) (iter : BitVec 16) (s : State) : Host.Outcome State Fault Refusal :=
  .next (s.issue h (loopWord h lc iter) none fun t => t.modSeq h.field fun q => { q with loops := q.loops.set lc iter.toNat })

/-- STEP.ENDLOOP. -/
def execStepEndloop (h : Hdr) (lc : Fin 4) (target : BitVec 14) (s : State) : Host.Outcome State Fault Refusal :=
  .next (s.issue h (endloopWord h lc target) none fun t => t.modSeq h.field fun q =>
    let v := (q.loops.getD lc 0 + 65535) % 65536
    { q with loops := q.loops.set lc v, pc := if v = 0 then q.pc else target.toNat })

/-- STEP.JUMP. -/
def execStepJump (h : Hdr) (target : BitVec 14) (s : State) : Host.Outcome State Fault Refusal :=
  .next (s.issue h (jumpWord h target) none fun t => t.modSeq h.field fun q => { q with pc := target.toNat })

/-- The issue cursor has passed an LDX of the step in which the run-ahead cursor stands at one: that cursor goes on from there (R192). -/
def State.aheadPastLdx (s : State) (f : Nat) : State :=
  let q := (s.field f).seq
  match q.runAhead with
  | some r =>
    if r.stop = .atLdx ∧ r.step = q.reg 0 ∧ r.pc + 1 = q.pc then
      (s.modSeq f fun x => { x with runAhead := some { r with pc := q.pc, idx := q.idx, loops := q.loops, nth := q.fetchNth, stop := .going } }).aheadGo f
    else s
  | none => s

/-- STEP.LDX. -/
def execStepLdx (h : Hdr) (ireg : Idx16) (src : Opnd) (word : BitVec 6) (s : State) : Host.Outcome State Fault Refusal :=
  let f := h.field.val
  .next (s.issue h (ldxWord h ireg src word) none fun t =>
    let a := t.opnd f src
    t.withRows f [a] [a] fun u => (u.modSeq f fun q => q.setIdx ireg (leAt (u.row f a) (8 * word.toNat) 8)).aheadPastLdx f)

/-! ### Completion (R173) -/

/-- The oldest instruction of a unit that its unit can complete by itself: a collective once it has what it needs, a SEND or FETCH by its
responses alone. -/
def State.completes (s : State) (f : Nat) (u : PierUnit) : Option InFlight :=
  (s.field f).seq.inFlight.find? fun x => x.unit == u && x.cls != 4 && x.cls != 5 && (x.cls != 7 || s.collReady f x)

/-- UNIT_COMPLETION: an instruction completes in its unit and frees its token; passes and vector operations are counted.  No cycle passes in a drawbridge (R88). -/
def execUnitCompletion (f : FieldId) (done : Completion) (s : State) : Host.Outcome State Fault Refusal :=
  .next (match s.completes f done.unit with
    | none => s
    | some x => if (s.field f).state = .drawbridge then s else match done.unit with
      | .array =>
        if (s.field f).array.spin = .preRamp then s
        else
          let s1 := ((s.finish f x).modArray f ArrayS.nextTile).bump regPasses f 1
          if s1.arrayBusy f then s1 else s1.arrayIdle f
      | .vector => ((s.finish f x).bump regVecOps f 1).vectorNext f
      | .mesh => s.collDone f done.faults x
      | .turn | .fetch => s.finish f x)

end Sys2Proof.Machine
end

