-- ==== Sys2Proof/Machine/ReedSolomon.lean ====
section
/-! DEFINITION. The check code of a tower granule: Reed–Solomon over GF(2⁸), 72 symbols, and its decoder (R246 to R248). -/

namespace Sys2Proof.Machine

/-! ### GF(2⁸) (R247) -/

/-- Multiply by x, modulo x⁸ + x⁴ + x³ + x² + 1. -/
def gfDouble (a : Nat) : Nat := if 128 ≤ a then (2 * a) ^^^ 0x11D else 2 * a
/-- The product of two elements, from the highest bit of `b` down. -/
def gfMul (a b : Nat) : Nat := (List.range 8).foldl (fun r i => gfDouble r ^^^ if b.testBit (7 - i) then a else 0) 0
/-- A power. -/
def gfPow (a : Nat) : Nat → Nat
  | 0 => 1
  | n + 1 => gfMul a (gfPow a n)
/-- The inverse of an element that is not 0: its power 254. -/
def gfInv (a : Nat) : Nat :=
  let r := (List.range 6).foldl (fun (x : Nat × Nat) _ => let y := gfMul x.2 x.2; (gfMul x.1 y, y)) (a, a)
  gfMul r.1 r.1

/-! ### The code (R246, R247) -/

/-- The die of a symbol: data byte i on die i div 4, check bytes on dies 16 and 17 (R246). -/
def dieOf (i : Nat) : Nat := i / 4
/-- The symbols of a die. -/
def dieSymbols (d : Nat) : List Nat := (List.range 4).map (4 * d + ·)
/-- The locator of symbol i, the power of x that it multiplies: symbol 0 is the highest coefficient (notes/assumptions/73). -/
def locator (i : Nat) : Nat := gfPow 2 (71 - i)
/-- The eight syndromes of a word: its values at α⁰ to α⁷. -/
def syndromes (w : List Nat) : List Nat := (List.range 8).map fun j => w.foldl (fun r x => gfMul r (gfPow 2 j) ^^^ x) 0

/-- The coefficients, lowest first, of a polynomial times (x + r). -/
def timesRoot (p : List Nat) (r : Nat) : List Nat := List.zipWith (· ^^^ ·) (0 :: p) (p.map (gfMul r) ++ [0])
/-- The sum of elementwise products. -/
def gfDot (p l : List Nat) : Nat := (List.zipWith gfMul p l).foldl (· ^^^ ·) 0
/-- The powers of an element from 0 up. -/
def gfPowers (n x : Nat) : List Nat := (List.range n).map (gfPow x)

/-- The magnitudes that errors at some symbols must have for the syndromes: the first ones determine them. -/
def magnitudes (symbols syn : List Nat) : List Nat :=
  let xs := symbols.map locator
  (List.range xs.length).map fun k =>
    let x := xs.getD k 0
    let p := (xs.eraseIdx k).foldl timesRoot [1]
    gfMul (gfDot p syn) (gfInv (gfDot p (gfPowers p.length x)))

/-- The errors at some symbols that give exactly the syndromes, if there are such: symbol and magnitude. -/
def fitErrors (symbols syn : List Nat) : Option (List (Nat × Nat)) :=
  let ys := magnitudes symbols syn
  let back := (List.range 8).map fun j => gfDot (ys) (symbols.map fun i => gfPow (locator i) j)
  if back = syn then some (symbols.zip ys) else none

/-- The check bytes of 64 data bytes: those that make every syndrome 0. -/
def checkBytes (data : List Nat) : List Nat :=
  magnitudes ((List.range 8).map (64 + ·)) (syndromes (data ++ List.replicate 8 0))

/-- Errors added to a word. -/
def addErrors (w : List Nat) (errs : List (Nat × Nat)) : List Nat := errs.foldl (fun l e => l.modify e.1 (· ^^^ e.2)) w

/-! ### The decoder (R247, R248) -/

/-- What the decoder makes of a word: a codeword; errors it corrects; a die whose symbols it restores (step 2); or no result. -/
inductive Decode where
  | clean
  | fixed (errs : List (Nat × Nat))
  | die (d : Nat) (errs : List (Nat × Nat))
  | lost
deriving DecidableEq, Repr

/-- The symbol pairs of a word. -/
def symbolPairs : List (List Nat) := (List.range 72).flatMap fun i => (List.range i).map fun j => [j, i]

/-- Decode a word by its syndromes: steps 1 and 2 of R247, or with a die erased, that die's symbols and up to one more (R248). -/
def decodeGranule (erased : Option Nat) (syn : List Nat) : Decode :=
  if syn.all (· == 0) then .clean
  else match erased with
    | some d =>
      match fitErrors (dieSymbols d) syn with
      | some e => .fixed e
      | none =>
        match ((List.range 72).filter fun i => dieOf i != d).findSome? fun i => fitErrors (dieSymbols d ++ [i]) syn with
        | some e => .fixed e
        | none => .lost
    | none =>
      match ((List.range 72).map fun i => [i]).findSome? fun l => fitErrors l syn with
      | some e => .fixed e
      | none =>
        match symbolPairs.findSome? fun l => fitErrors l syn with
        | some e => .fixed e
        | none =>
          match (List.range 18).filterMap fun d => (fitErrors (dieSymbols d) syn).map fun e => (d, e) with
          | [x] => .die x.1 x.2
          | _ => .lost

end Sys2Proof.Machine
end

