-- ==== Sys2Proof/Machine/Towers.lean ====
section
/-! DEFINITION. The tower controllers: accesses to granules, correction, erased dies, row repair, replays and retrains, training, the memory
test, and the fills of sets that have lost channels (R246 to R274). -/

namespace Sys2Proof.Machine

/-! ### Correction (R248, R249) -/

/-- Entries of a log of 24 hours of operating time (86,400 s). -/
def recent (now : Nat) (l : List (Nat × Nat)) : List (Nat × Nat) := l.filter fun e => now ≤ e.2 + 86400

/-- A die meets the condition of R248: it is marked erased for its tower, or where another die is marked already, every channel of the tower
is permanent. -/
def State.dieMarked (s : State) (t d : Nat) : State :=
  if s.reg regErasedDie t = d then s
  else if s.reg regErasedDie t = 0xFF then ((s.setReg regErasedDie t d).unitEvent (towerHolder t) 0x0506 []).charge (towerUnit t) 0x0506
  else
    (towerChannels t).foldl (fun u x => if (u.channel x).state = .retired then u else u.declare (channelUnit x) 0x0506 false)
      (s.charge (towerUnit t) 0x0506)

/-- A correction falls in a row of die `d` (R249): at the third in 24 hours a spare row replaces it; a die with none left is handled under
R248. -/
def State.dieRow (s : State) (c g d : Nat) : State :=
  let t := towerOf c
  let key := (d, c, Config.dieRow c g)
  let log := (key, s.opSeconds) :: ((s.tower t).rowLog.filter fun e => s.opSeconds ≤ e.2 + 86400)
  if (log.filter (·.1 == key)).length < 3 then s.modTower t fun x => { x with rowLog := log }
  else
    let s1 := s.modTower t fun x => { x with rowLog := log.filter (·.1 != key) }
    if ((s.tower t).repaired.filter (·.1 == d)).length < Config.dieSpareRows t d then
      ((s1.modTower t fun x => { x with repaired := x.repaired ++ [key] }).bump regRowRepairs t 1).unitEvent (towerHolder t) 0x0507 []
    else s1.dieMarked t d

/-- A granule is corrected at some symbols (R249, R398). -/
def State.granuleCorrected (s : State) (c g : Nat) (errs : List (Nat × Nat)) : State :=
  let dies := ((errs.filter (·.2 != 0)).map fun e => dieOf e.1).eraseDups
  let s1 := (s.unitEvent (towerHolder (towerOf c)) 0x0501 (granuleData c g)).bump regCorrected (towerOf c) 1
  (dies.foldl (fun t d => t.dieRow c g d) s1).charge (channelUnit c) 0x0501

/-- A granule was decoded by erasing die `d` (R248): the condition is met at the third granule in 24 hours. -/
def State.dieFault (s : State) (c g d : Nat) : State :=
  let t := towerOf c
  let key := d + 18 * (c * 2 ^ 28 + g)
  let log := recent s.opSeconds ((key, s.opSeconds) :: (s.tower t).dieLog.filter (·.1 != key))
  if (log.filter (·.1 % 18 == d)).length < 3 then s.modTower t fun x => { x with dieLog := log }
  else (s.modTower t fun x => { x with dieLog := log.filter (·.1 % 18 != d) }).dieMarked t d

/-! ### Accesses (R246, R258) -/

/-- The 72 bytes of a granule as its dies hold them: the data, and the check bytes that every write gives them (R246, R247). -/
def State.granuleWord (s : State) (c g : Nat) : List Nat :=
  let data := (s.read (towerKey (c, 64 * g)) 64).map (·.toNat)
  data ++ checkBytes data

/-- The die that a tower's decoders treat as erased (R248). -/
def State.erasedDie (s : State) (t : Nat) : Option Nat := if s.reg regErasedDie t = 0xFF then none else some (s.reg regErasedDie t)

/-- Disturbed symbols as numbers. -/
def symbolErrors (errs : SymbolErrors) : List (Nat × Nat) := errs.map fun e => (e.1.val, e.2.toNat)

/-- What the decoder makes of a granule that is read with some symbols disturbed (R247, R248).  The granule's word is a codeword, so that its
syndromes are those of the disturbances. -/
def State.decoded (s : State) (c : Nat) (errs : SymbolErrors) : Decode :=
  decodeGranule (s.erasedDie (towerOf c)) (syndromes (addErrors (List.replicate 72 0) (symbolErrors errs)))

/-- The data bytes that a read delivers: those of the word with its disturbances, and what the decoder corrects (R247). -/
def State.delivered (s : State) (c g : Nat) (errs : SymbolErrors) : List Byte :=
  let fix := match s.decoded c errs with
    | .fixed e | .die _ e => e
    | _ => []
  ((addErrors (addErrors (s.granuleWord c g) (symbolErrors errs)) fix).take 64).map (BitVec.ofNat 8)

/-- A granule is read (R247 to R250).  The symbols of an erased die are no correction (notes/assumptions/39). -/
def State.granuleRead (s : State) (c g : Nat) (errs : SymbolErrors) : State :=
  if (s.channel c).bad.contains g then s.granuleLost c g
  else match s.decoded c errs with
    | .clean => s
    | .fixed e =>
      let further := e.filter fun x => x.2 != 0 && s.erasedDie (towerOf c) != some (dieOf x.1)
      if further.isEmpty then s else s.granuleCorrected c g further
    | .die d e => (s.granuleCorrected c g e).dieFault c g d
    | .lost => s.granuleLost c g

/-- A granule of a channel is written whole; it is no longer uncorrectable (R250). -/
def State.granuleStore (s : State) (c g : Nat) (l : List Byte) : State :=
  (s.write (towerKey (c, 64 * g)) (padTo 64 l)).modChannel c fun x => { x with bad := x.bad.filter (· != g) }

/-- A write of a granule, and of its mirror where the set is mirrored and the mirror's channel is ONLINE (R258, R264). -/
def State.granuleWrite (s : State) (c g : Nat) (l : List Byte) : State :=
  let s1 := s.granuleStore c g l
  match s.mirrorOf c (64 * g) with
  | some (_, m) => if (s.channel m).state = .online then s1.granuleStore m g l else s1
  | none => s1

/-- TOWER_ACCESS (R246, R262, R264): an access to a channel that is not ONLINE performs nothing; a narrow write is a granule read, a merge
and a granule write, and is refused where the granule is uncorrectable. -/
def execTowerAccess (c : ChannelId) (granule : BitVec 28) (op : GranuleOp) (errs : SymbolErrors) (s : State) : Host.Outcome State Fault Refusal :=
  let g := granule.toNat
  .next (if (s.channel c).state ≠ .online then s
    else
      let s0 := s.modChannel c fun x => { x with aged := false }
      (match op with
        | .read => s0.granuleRead c g errs
        | .write bytes => s0.granuleWrite c g bytes
        | .narrow offset bytes =>
          let s1 := s0.granuleRead c g errs
          let old := if (s0.channel c).bad.contains g || s0.decoded c errs == Decode.lost then s1.read (towerKey (c.val, 64 * g)) 64 else s0.delivered c g errs
          if (s1.channel c).bad.contains g ∨ (s1.channel c).state ≠ ChannelState.online then s1
          else s1.granuleWrite c g ((splice old offset.toNat bytes).take 64)).settle)

/-- TOWER_ACCESS_AGED (R264): the oldest access is served next. -/
def execTowerAccessAged (c : ChannelId) (s : State) : Host.Outcome State Fault Refusal :=
  .next (if (s.channel c).state = .online then s.modChannel c fun x => { x with aged := true } else s)

/-- PATROL_SCRUB (R252): the next granule of the channel is read. -/
def execPatrolScrub (c : ChannelId) (errs : SymbolErrors) (s : State) : Host.Outcome State Fault Refusal :=
  let g := (s.channel c).scrubAt
  .next (if (s.channel c).state ≠ .online then s
    else ((s.modChannel c fun x => { x with scrubAt := (g + 1) % 2 ^ 28 }).granuleRead c g errs).settle)

/-! ### Replays and retrains (R251, R270) -/

/-- EDC_REPLAY: one replay of a burst.  The burst's event and count come at its end; when the fourth replay fails too, the channel enters
RETRAINING, which charges the one occurrence. -/
def execEdcReplay (c : ChannelId) (failed : Bool) (s : State) : Host.Outcome State Fault Refusal :=
  let n := (s.channel c).replays + 1
  let t := towerOf c
  .next (if (s.channel c).state ≠ .online then s
    else if failed ∧ n < 4 then s.modChannel c fun x => { x with replays := n }
    else
      let s1 := ((s.unitEvent (towerHolder t) 0x0503 (leBytes 1 c ++ leBytes 1 n)).bump regEdcReplays t 1).modChannel c fun x => { x with replays := 0 }
      if failed then
        ((((s1.setChannelState c .retraining).modChannel c fun x => { x with tries := 1 }).bump regRetrains t 1).charge (channelUnit c)
          0x0503).settle
      else (s1.charge (channelUnit c) 0x0503).settle)

/-- RETRAIN_DONE: a try passes within 2 ms. -/
def execRetrainDone (c : ChannelId) (micros : Word32) (s : State) : Host.Outcome State Fault Refusal :=
  .next (if (s.channel c).state = .retraining then
      (((s.setChannelState c .online).modChannel c fun x => { x with tries := 0 }).unitEvent (towerHolder (towerOf c)) 0x0504
        (leBytes 1 c ++ zeros 3 ++ leBytes 4 micros.toNat)).settle
    else s)

/-- RETRAIN_TRY_TIMEOUT: the next try starts, or the channel retires after the third. -/
def execRetrainTryTimeout (c : ChannelId) (s : State) : Host.Outcome State Fault Refusal :=
  let n := (s.channel c).tries
  .next (if (s.channel c).state ≠ .retraining then s
    else if n < 3 then s.modChannel c fun x => { x with tries := n + 1 }
    else (s.retireChannel c).settle)

/-! ### Training and the memory test (R270 to R273) -/

/-- CHANNEL_TRAINING_DONE: training passes, or has failed a third time. -/
def execChannelTrainingDone (c : ChannelId) (passed : Bool) (s : State) : Host.Outcome State Fault Refusal :=
  .next (if (s.channel c).state ≠ .training then s
    else if passed then
      let s1 := s.setChannelState c .testing
      if 9 ≤ s.boot.step then s1.nextRound else s1
    else ((s.retireChannel c).settle).fastCheck.serveAll.settle)

/-- TOWER_TEST_DONE: every channel of the tower leaves TESTING at once; sets that become decided let their spans serve. -/
def execTowerTestDone (t : TowerId) (passed : Bool) (s : State) : Host.Outcome State Fault Refusal :=
  .next (if (s.tower t).result ≠ 3 then s
    else
      let mine := (towerChannels t).filter fun c => (s.channel c).state == .testing
      let s1 := (s.modTower t fun x => { x with result := if passed then 1 else 2 }).supEvent (if passed then 0x0510 else 0x0511) (leBytes 1 t)
      let s2 := if passed then mine.foldl (fun u c => u.setChannelState c .online) s1 else mine.foldl State.retireChannel s1
      let s3 := (List.range 16).foldl State.setTested s2
      ((s3.settle).nextRound.fastCheck).serveAll.settle)

/-! ### Fills (R261, R274) -/

/-- The lost channels of a DEGRADED set whose remapped units are not filled yet. -/
def State.toFill (s : State) (k : Nat) : List Nat :=
  (s.setDesc k).list.filter fun c =>
    (s.channel c).state == .retired && s.reg regLostField k == channelField c && !(s.set k).filled.contains c

/-- The lost channel, of some given ones, whose remapped unit holds a channel-local address of a live channel (R259). -/
def SetDesc.remapped (d : SetDesc) (lost : List Nat) (c a : Nat) : Bool :=
  match lost with
  | [] => false
  | l :: _ =>
    let live := d.list.filter fun x => channelField x != channelField l
    let i := live.findIdx (· == c)
    let unit := a / d.unit
    let q := (unit - d.resBase) * live.length + i
    i < live.length && d.resBase ≤ unit && q / 16 < d.perChannel && lost.any fun x => channelIndex x == q % 16

/-- The remapped units of lost channels read as zeros. -/
def State.zeroRemapped (s : State) (k : Nat) (lost : List Nat) : State :=
  let d := s.setDesc k
  { s with mem := s.mem.filter fun e => !(e.1 < 192 * 2 ^ 34 && d.remapped lost (e.1 / 2 ^ 34) (e.1 % 2 ^ 34)) }

/-- A remapped unit row of a lost channel takes the bytes of its mirror. -/
def State.copyMirror (s : State) (k lost : Nat) : State :=
  let d := s.setDesc k
  let pos := d.list.findIdx (· == lost)
  let m := d.list.getD ((pos + d.nc / 2) % d.nc) 0
  let here := s.mem.filter fun e => e.1 / 2 ^ 34 == m && d.chBase ≤ e.1 % 2 ^ 34 / d.unit && e.1 % 2 ^ 34 / d.unit < d.chBase + d.perChannel
  here.foldl (fun t e =>
    let row := e.1 % 2 ^ 34 / d.unit - d.chBase
    let x := d.remap lost row 0
    t.write (towerKey (x.1, x.2 + e.1 % d.unit)) [e.2]) s

/-- The fill of the lost channels of a set is done. -/
def State.fillDone (s : State) (k : Nat) (lost : List Nat) : State := s.modSet k fun x => { x with filled := x.filled ++ lost }

/-- REMAP_FILL: zeros in the remapped units of a set that is not mirrored. -/
def execRemapFill (k : SetId) (s : State) : Host.Outcome State Fault Refusal :=
  let lost := s.toFill k
  .next (if (s.set k).state = .degraded ∧ !(s.setDesc k).mirror then (s.zeroRemapped k lost).fillDone k lost else s)

/-- RESERVE_REFILL: the remapped units of a mirrored set from the mirrors. -/
def execReserveRefill (k : SetId) (s : State) : Host.Outcome State Fault Refusal :=
  let lost := s.toFill k
  .next (if (s.set k).state = .degraded ∧ (s.setDesc k).mirror then
      (lost.foldl (fun t c => t.copyMirror k c) (s.zeroRemapped k lost)).fillDone k lost
    else s)

end Sys2Proof.Machine
end

