-- ==== Sys2Proof/Machine/Wake.lean ====
section
/-! DEFINITION. A bank wakes: the accesses that waited for it are performed (R158, R160). -/

namespace Sys2Proof.Machine

/-- A command whose access waited for a WAKING bank is performed, or waits for the next bank to wake. -/
def State.awaken (s : State) (c : Instr) : State :=
  match c with
  | .read p addr len => atRead p addr len s
  | .atomic p addr op a b => atAtomic p addr op a b s
  | .smallWrite p addr bytes => s.writeRequest p false addr bytes
  | .write p addr bytes => s.writeRequest p true addr bytes
  | .readback p addr => atReadback p addr s
  | .readData p bytes => atReadData p bytes s
  | .rows p f chan rdst bytes => atRows p f chan rdst bytes s
  | .mcastData p f group chan rdst bytes => atMcastData p f group chan rdst bytes s
  | .moverLastWrite f ch => atMoverLastWrite f ch s
  | _ => s

/-- BANK_WAKE_DONE (R158, R160): the bank is ACTIVE, and everything that waited for it is performed. -/
def execBankWakeDone (f : FieldId) (b : BankId) (s : State) : Host.Outcome State Fault Refusal :=
  let t := s.bankAwake f b
  .next (if ((s.field f).bank b).state = .waking then t.sleepers.foldl State.awaken { t with sleepers := [] } else s)

end Sys2Proof.Machine
end

