-- ==== Sys2Proof/Machine/Dispatch.lean ====
section
/-! DEFINITION. The dispatch of a command to its meaning: one arm for each constructor of Instr. -/

namespace Sys2Proof.Machine

/-- The effect of one command on everything but the queue. -/
def exec (i : Instr) (s : State) : Host.Outcome State Fault Refusal :=
  match i with
  | .pass h o => Sys2Proof.Machine.execPass h o s
  | .vecConvert h o => Sys2Proof.Machine.execVecConvert h o s
  | .vecAdd h o => Sys2Proof.Machine.execVecAdd h o s
  | .vecMul h o => Sys2Proof.Machine.execVecMul h o s
  | .vecRmsnorm h o => Sys2Proof.Machine.execVecRmsnorm h o s
  | .vecAddnorm h o => Sys2Proof.Machine.execVecAddnorm h o s
  | .vecLayernorm h o => Sys2Proof.Machine.execVecLayernorm h o s
  | .vecSoftmax h o => Sys2Proof.Machine.execVecSoftmax h o s
  | .vecSwiglu h o => Sys2Proof.Machine.execVecSwiglu h o s
  | .vecGelu h o => Sys2Proof.Machine.execVecGelu h o s
  | .vecRotary h o => Sys2Proof.Machine.execVecRotary h o s
  | .vecTreemask h o => Sys2Proof.Machine.execVecTreemask h o s
  | .vecTopk h o => Sys2Proof.Machine.execVecTopk h o s
  | .vecSample h o => Sys2Proof.Machine.execVecSample h o s
  | .vecGather h o => Sys2Proof.Machine.execVecGather h o s
  | .vecNotify h o sampled => Sys2Proof.Machine.execVecNotify h o sampled s
  | .moveCopy h count src dst => Sys2Proof.Machine.execMoveCopy h count src dst s
  | .moveTurn h count esize src dst faults => Sys2Proof.Machine.execMoveTurn h count esize src dst faults s
  | .moveFill h count dst => Sys2Proof.Machine.execMoveFill h count dst s
  | .fetchLinear h ra t dst => Sys2Proof.Machine.execFetchLinear h ra t dst s
  | .fetchList h ra count list dst => Sys2Proof.Machine.execFetchList h ra count list dst s
  | .sendRows h o => Sys2Proof.Machine.execSendRows h o s
  | .sendSignal h target chan => Sys2Proof.Machine.execSendSignal h target chan s
  | .sendStore h t src => Sys2Proof.Machine.execSendStore h t src s
  | .sendMcast h o => Sys2Proof.Machine.execSendMcast h o s
  | .recvRows h chan count => Sys2Proof.Machine.execRecvRows h chan count s
  | .recvSignal h chan count => Sys2Proof.Machine.execRecvSignal h chan count s
  | .collReduce h o => Sys2Proof.Machine.execCollReduce h o s
  | .collAllreduce h o => Sys2Proof.Machine.execCollAllreduce h o s
  | .collAllgather h o => Sys2Proof.Machine.execCollAllgather h o s
  | .collBroadcast h o => Sys2Proof.Machine.execCollBroadcast h o s
  | .syncSpan h => Sys2Proof.Machine.execSyncSpan h s
  | .syncGroup h group => Sys2Proof.Machine.execSyncGroup h group s
  | .syncLocal h => Sys2Proof.Machine.execSyncLocal h s
  | .checkWait h => Sys2Proof.Machine.execCheckWait h s
  | .checkForce h => Sys2Proof.Machine.execCheckForce h s
  | .checkWindow h ireg => Sys2Proof.Machine.execCheckWindow h ireg s
  | .phase h code => Sys2Proof.Machine.execPhase h code s
  | .commit h outTail reqHead more => Sys2Proof.Machine.execCommit h outTail reqHead more s
  | .stepNext h => Sys2Proof.Machine.execStepNext h s
  | .stepBase h ireg modulus base stride => Sys2Proof.Machine.execStepBase h ireg modulus base stride s
  | .stepAdd h ireg imm => Sys2Proof.Machine.execStepAdd h ireg imm s
  | .stepLoop h lc iter => Sys2Proof.Machine.execStepLoop h lc iter s
  | .stepEndloop h lc target => Sys2Proof.Machine.execStepEndloop h lc target s
  | .stepJump h target => Sys2Proof.Machine.execStepJump h target s
  | .stepLdx h ireg src word => Sys2Proof.Machine.execStepLdx h ireg src word s
  | .unitCompletion f done => Sys2Proof.Machine.execUnitCompletion f done s
  | .progmemScrub f found => Sys2Proof.Machine.execProgmemScrub f found s
  | .progmemRewriteDone f => Sys2Proof.Machine.execProgmemRewriteDone f s
  | .programLoad f image => Sys2Proof.Machine.execProgramLoad f image s
  | .checksumVerdict f pass faults => Sys2Proof.Machine.execChecksumVerdict f pass faults s
  | .vectorVerdict f q faults => Sys2Proof.Machine.execVectorVerdict f q faults s
  | .readyReport f => Sys2Proof.Machine.execReadyReport f s
  | .keystoneReadbackDone sp => Sys2Proof.Machine.execKeystoneReadbackDone sp s
  | .commitTimeout sp => Sys2Proof.Machine.execCommitTimeout sp s
  | .pierCommitTimeout f => Sys2Proof.Machine.execPierCommitTimeout f s
  | .abortDone f => Sys2Proof.Machine.execAbortDone f s
  | .epochWaitEnd sp => Sys2Proof.Machine.execEpochWaitEnd sp s
  | .spanDrained sp => Sys2Proof.Machine.execSpanDrained sp s
  | .weightLoadDone sp result => Sys2Proof.Machine.execWeightLoadDone sp result s
  | .requestArrival sp => Sys2Proof.Machine.execRequestArrival sp s
  | .spinThresholdExpiry f => Sys2Proof.Machine.execSpinThresholdExpiry f s
  | .spinRampEnd f => Sys2Proof.Machine.execSpinRampEnd f s
  | .preRampDone f => Sys2Proof.Machine.execPreRampDone f s
  | .bankAccess f b row m op ecc => Sys2Proof.Machine.execBankAccess f b row m op ecc s
  | .accessAged f b => Sys2Proof.Machine.execAccessAged f b s
  | .scrubRead f b ecc => Sys2Proof.Machine.execScrubRead f b ecc s
  | .retainScrubDue f b => Sys2Proof.Machine.execRetainScrubDue f b s
  | .rowRepair f b row rowGood => Sys2Proof.Machine.execRowRepair f b row rowGood s
  | .bankDrained f b => Sys2Proof.Machine.execBankDrained f b s
  | .bankWakeDone f b => Sys2Proof.Machine.execBankWakeDone f b s
  | .read p addr len => Sys2Proof.Machine.execRead p addr len s
  | .atomic p addr op a b => Sys2Proof.Machine.execAtomic p addr op a b s
  | .smallWrite p addr bytes => Sys2Proof.Machine.execSmallWrite p addr bytes s
  | .signal p f chan => Sys2Proof.Machine.execSignal p f chan s
  | .arrive p group seq count => Sys2Proof.Machine.execArrive p group seq count s
  | .report p kind count status window => Sys2Proof.Machine.execReport p kind count status window s
  | .release p f group seq => Sys2Proof.Machine.execRelease p f group seq s
  | .advance p dest windowStart => Sys2Proof.Machine.execAdvance p dest windowStart s
  | .abort p f => Sys2Proof.Machine.execAbort p f s
  | .openMsg p f windowStart => Sys2Proof.Machine.execOpenMsg p f windowStart s
  | .slip p f => Sys2Proof.Machine.execSlip p f s
  | .creditReset p group target => Sys2Proof.Machine.execCreditReset p group target s
  | .readData p bytes => Sys2Proof.Machine.execReadData p bytes s
  | .ack p old => Sys2Proof.Machine.execAck p old s
  | .nack p code => Sys2Proof.Machine.execNack p code s
  | .mcastAck p group target => Sys2Proof.Machine.execMcastAck p group target s
  | .write p addr bytes => Sys2Proof.Machine.execWrite p addr bytes s
  | .rows p f chan rdst bytes => Sys2Proof.Machine.execRows p f chan rdst bytes s
  | .readback p addr => Sys2Proof.Machine.execReadback p addr s
  | .mcastData p f group chan rdst bytes => Sys2Proof.Machine.execMcastData p f group chan rdst bytes s
  | .collData p f c bytes => Sys2Proof.Machine.execCollData p f c bytes s
  | .eventNotice src => Sys2Proof.Machine.execEventNotice src s
  | .pairingNotice dst src step => Sys2Proof.Machine.execPairingNotice dst src step s
  | .proposalTimeout sp => Sys2Proof.Machine.execProposalTimeout sp s
  | .linkReplay r d wires failed => Sys2Proof.Machine.execLinkReplay r d wires failed s
  | .linkRepairDone r d ok => Sys2Proof.Machine.execLinkRepairDone r d ok s
  | .responseTimeout p => Sys2Proof.Machine.execResponseTimeout p s
  | .mcastTargetTimeout sp group target => Sys2Proof.Machine.execMcastTargetTimeout sp group target s
  | .timetableLoad sp => Sys2Proof.Machine.execTimetableLoad sp s
  | .timetableWindowStart sp => Sys2Proof.Machine.execTimetableWindowStart sp s
  | .timetableSlot f ready => Sys2Proof.Machine.execTimetableSlot f ready s
  | .timetableWindowEnd sp => Sys2Proof.Machine.execTimetableWindowEnd sp s
  | .go p f ch => Sys2Proof.Machine.execGo p f ch s
  | .armShadow p f ch => Sys2Proof.Machine.execArmShadow p f ch s
  | .stop p f ch => Sys2Proof.Machine.execStop p f ch s
  | .clear p f ch => Sys2Proof.Machine.execClear p f ch s
  | .registerSetWrite p f ch shadow offset bytes => Sys2Proof.Machine.execRegisterSetWrite p f ch shadow offset bytes s
  | .moverTimer f ch => Sys2Proof.Machine.execMoverTimer f ch s
  | .moverResume f ch => Sys2Proof.Machine.execMoverResume f ch s
  | .moverLastWrite f ch => Sys2Proof.Machine.execMoverLastWrite f ch s
  | .moverComplete f ch => Sys2Proof.Machine.execMoverComplete f ch s
  | .moverStopped f ch => Sys2Proof.Machine.execMoverStopped f ch s
  | .mailboxWrite p f offset bytes => Sys2Proof.Machine.execMailboxWrite p f offset bytes s
  | .supervisorSwap r value => Sys2Proof.Machine.execSupervisorSwap r value s
  | .create r sp => Sys2Proof.Machine.execCreate r sp s
  | .spanReset r sp => Sys2Proof.Machine.execSpanReset r sp s
  | .spanDelete r sp => Sys2Proof.Machine.execSpanDelete r sp s
  | .pause r sp value => Sys2Proof.Machine.execPause r sp value s
  | .stepVariant r sp value => Sys2Proof.Machine.execStepVariant r sp value s
  | .coreSpan r f value => Sys2Proof.Machine.execCoreSpan r f value s
  | .accessEntry r target e value => Sys2Proof.Machine.execAccessEntry r target e value s
  | .setDesc r k value => Sys2Proof.Machine.execSetDesc r k value s
  | .checkProfile r sp value => Sys2Proof.Machine.execCheckProfile r sp value s
  | .predReset r sp value => Sys2Proof.Machine.execPredReset r sp value s
  | .spinEnable r f value => Sys2Proof.Machine.execSpinEnable r f value s
  | .bankPower r f value => Sys2Proof.Machine.execBankPower r f value s
  | .retireUnit r value => Sys2Proof.Machine.execRetireUnit r value s
  | .digestPassEnd f => Sys2Proof.Machine.execDigestPassEnd f s
  | .weightRewriteDone f b result => Sys2Proof.Machine.execWeightRewriteDone f b result s
  | .segmentStart f unit pattern => Sys2Proof.Machine.execSegmentStart f unit pattern s
  | .segmentEnd f passed charged => Sys2Proof.Machine.execSegmentEnd f passed charged s
  | .coverageOverdue f => Sys2Proof.Machine.execCoverageOverdue f s
  | .diagnosticTestDone unit found => Sys2Proof.Machine.execDiagnosticTestDone unit found s
  | .probeTimeout f => Sys2Proof.Machine.execProbeTimeout f s
  | .spareReloadDone sp result => Sys2Proof.Machine.execSpareReloadDone sp result s
  | .planReloadDone sp result => Sys2Proof.Machine.execPlanReloadDone sp result s
  | .windowRead r => Sys2Proof.Machine.execWindowRead r s
  | .historyClear r value => Sys2Proof.Machine.execHistoryClear r value s
  | .refCopyBad c => Sys2Proof.Machine.execRefCopyBad c s
  | .refCopyGood c => Sys2Proof.Machine.execRefCopyGood c s
  | .drawbridgeStart f => Sys2Proof.Machine.execDrawbridgeStart f s
  | .drawbridgeEnd f ns => Sys2Proof.Machine.execDrawbridgeEnd f ns s
  | .pllLockTimeout f => Sys2Proof.Machine.execPllLockTimeout f s
  | .droopDetect f => Sys2Proof.Machine.execDroopDetect f s
  | .stretchEnd f periods overQuarter => Sys2Proof.Machine.execStretchEnd f periods overQuarter s
  | .beacon f error => Sys2Proof.Machine.execBeacon f error s
  | .beaconNotice f value => Sys2Proof.Machine.execBeaconNotice f value s
  | .ptpSync offset => Sys2Proof.Machine.execPtpSync offset s
  | .ptpDelayResponse delay => Sys2Proof.Machine.execPtpDelayResponse delay s
  | .ptpAnnounce identity => Sys2Proof.Machine.execPtpAnnounce identity s
  | .inputUndervoltage millivolts => Sys2Proof.Machine.execInputUndervoltage millivolts s
  | .inputOvervoltage millivolts => Sys2Proof.Machine.execInputOvervoltage millivolts s
  | .regCellTrip f cell => Sys2Proof.Machine.execRegCellTrip f cell s
  | .regCellRestart f cell => Sys2Proof.Machine.execRegCellRestart f cell s
  | .contactCheck f g departure => Sys2Proof.Machine.execContactCheck f g departure s
  | .contactCalibration models => Sys2Proof.Machine.execContactCalibration models s
  | .vminSample f rail millivolts => Sys2Proof.Machine.execVminSample f rail millivolts s
  | .vminClear r f value => Sys2Proof.Machine.execVminClear r f value s
  | .ageingCheck f mhz => Sys2Proof.Machine.execAgeingCheck f mhz s
  | .voltageSlewDone f => Sys2Proof.Machine.execVoltageSlewDone f s
  | .phaseHoldExpiry f => Sys2Proof.Machine.execPhaseHoldExpiry f s
  | .guardBand r value => Sys2Proof.Machine.execGuardBand r value s
  | .powerCap r value => Sys2Proof.Machine.execPowerCap r value s
  | .capControlInterval milliwatts pierMilliamps => Sys2Proof.Machine.execCapControlInterval milliwatts pierMilliamps s
  | .pierPowerRequest r f value => Sys2Proof.Machine.execPierPowerRequest r f value s
  | .admissionCheck f zoneMilliamps => Sys2Proof.Machine.execAdmissionCheck f zoneMilliamps s
  | .admissionTimeout f => Sys2Proof.Machine.execAdmissionTimeout f s
  | .pierStageDone f => Sys2Proof.Machine.execPierStageDone f s
  | .junctionSample f millidegrees => Sys2Proof.Machine.execJunctionSample f millidegrees s
  | .thermalRelease f => Sys2Proof.Machine.execThermalRelease f s
  | .heatKeystoneTimeout sp => Sys2Proof.Machine.execHeatKeystoneTimeout sp s
  | .heatSwapExpiry f => Sys2Proof.Machine.execHeatSwapExpiry f s
  | .fieldHeatRelease f => Sys2Proof.Machine.execFieldHeatRelease f s
  | .fieldUp f => Sys2Proof.Machine.execFieldUp f s
  | .fieldWakeTimeout f => Sys2Proof.Machine.execFieldWakeTimeout f s
  | .bringupStepDone report => Sys2Proof.Machine.execBringupStepDone report s
  | .spanlinkRetry p => Sys2Proof.Machine.execSpanlinkRetry p s
  | .stageOpen r => Sys2Proof.Machine.execStageOpen r s
  | .stageVerify r => Sys2Proof.Machine.execStageVerify r s
  | .stageAbort r => Sys2Proof.Machine.execStageAbort r s
  | .stageChunk r value => Sys2Proof.Machine.execStageChunk r value s
  | .stagingWindowWrite offset bytes => Sys2Proof.Machine.execStagingWindowWrite offset bytes s
  | .activateTime r value => Sys2Proof.Machine.execActivateTime r value s
  | .fieldRestart f => Sys2Proof.Machine.execFieldRestart f s
  | .fieldRestartDone f => Sys2Proof.Machine.execFieldRestartDone f s
  | .fieldRestartTimeout f => Sys2Proof.Machine.execFieldRestartTimeout f s
  | .attestNonce r value => Sys2Proof.Machine.execAttestNonce r value s
  | .linkSavedClear r value => Sys2Proof.Machine.execLinkSavedClear r value s
  | .dictRead r index sub offset length => Sys2Proof.Machine.execDictRead r index sub offset length s
  | .dictWrite r index sub value => Sys2Proof.Machine.execDictWrite r index sub value s
  | .txBegin r => Sys2Proof.Machine.execTxBegin r s
  | .txCommit r => Sys2Proof.Machine.execTxCommit r s
  | .txAbort r => Sys2Proof.Machine.execTxAbort r s
  | .summary r length => Sys2Proof.Machine.execSummary r length s
  | .describe r index sub => Sys2Proof.Machine.execDescribe r index sub s
  | .nop r => Sys2Proof.Machine.execNop r s
  | .hello port slot clientNonce deviceNonce => Sys2Proof.Machine.execHello port slot clientNonce deviceNonce s
  | .auth session tag => Sys2Proof.Machine.execAuth session tag s
  | .close session => Sys2Proof.Machine.execClose session s
  | .txTimeout master => Sys2Proof.Machine.execTxTimeout master s
  | .sessionIdleTimeout session => Sys2Proof.Machine.execSessionIdleTimeout session s
  | .keySlotUnlock slot => Sys2Proof.Machine.execKeySlotUnlock slot s
  | .frozenCopyExpiry master => Sys2Proof.Machine.execFrozenCopyExpiry master s
  | .mgmtKey r slot value => Sys2Proof.Machine.execMgmtKey r slot value s
  | .submit slot master request => Sys2Proof.Machine.execSubmit slot master request s
  | .irqStatusClear mask => Sys2Proof.Machine.execIrqStatusClear mask s
  | .ethMode r e value => Sys2Proof.Machine.execEthMode r e value s
  | .ethLinkUp e => Sys2Proof.Machine.execEthLinkUp e s
  | .ethLinkDown e retiredLane => Sys2Proof.Machine.execEthLinkDown e retiredLane s
  | .start d => Sys2Proof.Machine.execStart d s
  | .append d => Sys2Proof.Machine.execAppend d s
  | .endSeq d => Sys2Proof.Machine.execEndSeq d s
  | .cancel d => Sys2Proof.Machine.execCancel d s
  | .rtpPacket st p => Sys2Proof.Machine.execRtpPacket st p s
  | .rtcpPacket st roundTrip => Sys2Proof.Machine.execRtcpPacket st roundTrip s
  | .rtcpIntervalTimer engine => Sys2Proof.Machine.execRtcpIntervalTimer engine s
  | .streamTimeout st => Sys2Proof.Machine.execStreamTimeout st s
  | .mediaTick g => Sys2Proof.Machine.execMediaTick g s
  | .txSendPoint g => Sys2Proof.Machine.execTxSendPoint g s
  | .streamDesc r value => Sys2Proof.Machine.execStreamDesc r value s
  | .groupDesc r g value => Sys2Proof.Machine.execGroupDesc r g value s
  | .spanlinkTrainingDone p answered goodLanes serial peerPort crossNs => Sys2Proof.Machine.execSpanlinkTrainingDone p answered goodLanes serial peerPort crossNs s
  | .spanlinkFlitReplay p failed => Sys2Proof.Machine.execSpanlinkFlitReplay p failed s
  | .spanlinkFault p => Sys2Proof.Machine.execSpanlinkFault p s
  | .spanlinkRetrainTimeout p => Sys2Proof.Machine.execSpanlinkRetrainTimeout p s
  | .spanlinkPacket p inbound type k addr => Sys2Proof.Machine.execSpanlinkPacket p inbound type k addr s
  | .towerAccess c granule op errs => Sys2Proof.Machine.execTowerAccess c granule op errs s
  | .towerAccessAged c => Sys2Proof.Machine.execTowerAccessAged c s
  | .edcReplay c failed => Sys2Proof.Machine.execEdcReplay c failed s
  | .patrolScrub c errs => Sys2Proof.Machine.execPatrolScrub c errs s
  | .channelTrainingDone c passed => Sys2Proof.Machine.execChannelTrainingDone c passed s
  | .towerTestDone t passed => Sys2Proof.Machine.execTowerTestDone t passed s
  | .retrainDone c micros => Sys2Proof.Machine.execRetrainDone c micros s
  | .retrainTryTimeout c => Sys2Proof.Machine.execRetrainTryTimeout c s
  | .remapFill k => Sys2Proof.Machine.execRemapFill k s
  | .reserveRefill k => Sys2Proof.Machine.execReserveRefill k s
  | .coolantSample inlet outlet flow => Sys2Proof.Machine.execCoolantSample inlet outlet flow s
  | .samplePreload preload => Sys2Proof.Machine.execSamplePreload preload s
  | .diag request => Sys2Proof.Machine.execDiag request s
  | .towerDieTemperatureSample t millidegrees => Sys2Proof.Machine.execTowerDieTemperatureSample t millidegrees s
  | .admissionRecheck f zoneMilliamps => Sys2Proof.Machine.execAdmissionRecheck f zoneMilliamps s
  | .frameReceived port kind => Sys2Proof.Machine.execFrameReceived port kind s
  | .t1sLinkChange p up plca => Sys2Proof.Machine.execT1sLinkChange p up plca s
  | .pcieLinkTrained rate width => Sys2Proof.Machine.execPcieLinkTrained rate width s
  | .spanlinkPeerNotice p retired => Sys2Proof.Machine.execSpanlinkPeerNotice p retired s
  | .restartKeystoneTimeout sp => Sys2Proof.Machine.execRestartKeystoneTimeout sp s
  | .supervisorControlPacket sp device c => Sys2Proof.Machine.execSupervisorControlPacket sp device c s
  | .bridgedTakeoverTimeout sp device => Sys2Proof.Machine.execBridgedTakeoverTimeout sp device s
  | .routeHoldEnd => Sys2Proof.Machine.execRouteHoldEnd s
  | .heartbeat => Sys2Proof.Machine.execHeartbeat s
  | .heartbeatTimeout => Sys2Proof.Machine.execHeartbeatTimeout s
  | .flashPageWrite => Sys2Proof.Machine.execFlashPageWrite s
  | .pageBucketRefill => Sys2Proof.Machine.execPageBucketRefill s
  | .refRevert => Sys2Proof.Machine.execRefRevert s
  | .ptpAnnounceTimeout => Sys2Proof.Machine.execPtpAnnounceTimeout s
  | .undervoltageRelease => Sys2Proof.Machine.execUndervoltageRelease s
  | .powerLoss => Sys2Proof.Machine.execPowerLoss s
  | .alertAssert => Sys2Proof.Machine.execAlertAssert s
  | .alertRelease => Sys2Proof.Machine.execAlertRelease s
  | .alertHoldExpiry => Sys2Proof.Machine.execAlertHoldExpiry s
  | .persistCounts => Sys2Proof.Machine.execPersistCounts s
  | .powerGood => Sys2Proof.Machine.execPowerGood s
  | .activationStart => Sys2Proof.Machine.execActivationStart s
  | .attestTokenRefill => Sys2Proof.Machine.execAttestTokenRefill s
  | .summaryCmd => Sys2Proof.Machine.execSummaryCmd s
  | .pcieFunctionReset => Sys2Proof.Machine.execPcieFunctionReset s
  | .modResetN => Sys2Proof.Machine.execModResetN s
  | .leakDetect => Sys2Proof.Machine.execLeakDetect s
  | .bypass => Sys2Proof.Machine.execBypass s
  | .idcode => Sys2Proof.Machine.execIdcode s
  | .extest => Sys2Proof.Machine.execExtest s
  | .clamp => Sys2Proof.Machine.execClamp s
  | .supervisorRestartDone => Sys2Proof.Machine.execSupervisorRestartDone s
  | .supervisorStartTimeout => Sys2Proof.Machine.execSupervisorStartTimeout s
  | .reservedPacketType => Sys2Proof.Machine.execReservedPacketType s

end Sys2Proof.Machine
end

