-- ==== Sys2Proof/Machine/Tick.lean ====
section
/-! DEFINITION. What passes with time when no command waits. -/

namespace Sys2Proof.Machine

/-- 10 ns pass on the device timebase; the PTP servo slews what is left of an offset at up to 500 ppm, 5 ps in 10 ns (R454). -/
def Clocks.pass (c : Clocks) : Clocks :=
  let d := max (-5) (min 5 c.slew)
  let total := ((c.frac : Int) + 10000 + d).toNat
  { c with time := c.time + total / 1000, frac := total % 1000, slew := c.slew - d }

/-- One tick (notes/assumptions/1): 10 ns, a period of the 100 MHz references of R433, pass on the module's operating time while it is
powered, and on the device timebase once it runs (R447). -/
def tick (s : State) : State :=
  let s1 := s.when s.boot.powered fun t => t.modSupply fun p => { p with opNanos := p.opNanos + 10 }
  s1.when s.clocks.running fun t => t.modClocks Clocks.pass

end Sys2Proof.Machine
end

