-- ==== Sys2Proof/Safety.lean ====
section
/-! DEFINITION. What counts as a well-kept state: the canonical forms of the sparse parts of State, the numbers of units, and the numbering
of the event records. -/

namespace Sys2Proof.Machine

/-- Object values are listed once each, keys rising. -/
def RegFile.wf (r : RegFile) : Bool := decide (r.Pairwise fun a b => a.1 < b.1)

/-- The records that no flash page holds yet are the newest of the on-die ring (R425, R426). -/
def Recorder.unwritten (r : Recorder) : List EventRec := r.die.drop (r.die.length - r.pendingN)

/-- The numbering of R423 in terms of what the recorder holds: SEQ rises from record to record in the ring and in flash, every record held
was given a SEQ below the next one, what waits for a page is newer than every page, and the next SEQ lies below the ceiling.
Without a ceiling the event area is blank, and the first SEQ will be 1 (R431). -/
def Recorder.numbered (r : Recorder) : Bool :=
  decide (r.die.Pairwise fun a b => a.seq < b.seq) && decide (r.flash.flatten.Pairwise fun a b => a.seq < b.seq) &&
  r.die.all (fun e => Nat.blt e.seq r.nextSeq) && r.flash.flatten.all (fun e => Nat.blt e.seq r.nextSeq) &&
  Nat.ble r.pendingN r.die.length && r.flash.flatten.all (fun e => r.unwritten.all fun d => Nat.blt e.seq d.seq) &&
  match r.ceiling with
  | none => r.die.isEmpty && r.flash.isEmpty && r.nextSeq == 1
  | some c => Nat.blt r.nextSeq c

/-- The numbers of units that the spec gives the device (R2, R6, R243, R253). -/
def State.sized (s : State) : Bool :=
  s.fields.length == 30 && s.spans.length == 8 && s.towers.length == 24 && s.channels.length == 192 && s.sets.length == 16

/-- A well-kept state. -/
def State.wf (s : State) : Bool := s.mem.wf && s.regs.wf && s.sized && s.recorder.numbered

/-! ### When a pier instruction executes normally -/

/-- The field is not in a drawbridge (R88), the sequencer can issue (R198), its next word is `w` (R169, R195), the checks of issue find nothing
(R168, R196), and R170 and R171 let the instruction issue. -/
def State.issues (s : State) (h : Hdr) (w : Nat) (u : Option PierUnit) : Bool :=
  let q := (s.field h.field).seq
  (s.field h.field).state != .drawbridge && q.issuing && q.nextIs w && h.fault == .clean && q.mayIssue h u

/-- The state with the instruction index of a pier moved past an instruction. -/
def State.advanced (s : State) (h : Hdr) : State := s.modSeq h.field fun q => { q with pc := q.pc + 1 }

/-- Every operand names a bank (R175), and every row is in an ACTIVE bank and not locked (R101, R145, R158). -/
def State.rowsFree (s : State) (f : Nat) (operands rows : List Nat) : Bool :=
  !(operands.any badBank) && !s.rowsAsleep f rows && s.rowsStatus f rows == 0

/-- `t` is `s` but for the sequencer of field `f`. -/
def State.onlySeq (s t : State) (f : Nat) : Prop := t = s.modSeq f fun _ => (t.field f).seq

/-! ### The dictionary (R512 to R519) -/

/-- A request of a master without a session reaches the server, which a supervisor runs and which performs it. -/
def State.serves (s : State) (q : DReq) : Bool :=
  s.boot.powered && s.supervised && q.master / 256 != 4 && s.dictReady && !s.boot.fuseFault && q.own && !s.control.expired.contains q.master

/-- The state `t` after an answer with a status and a payload (R512, R538). -/
def State.answered (t : State) (q : DReq) (status : Nat) (payload : List Byte) : State :=
  ((t.bump regRequests 0 1).bump regRequestErrors 0 (if status = stOk then 0 else 1)).emit
    (.response q.master q.reqId status t.gen32 payload)

/-- The state with the one value of a write in place (R518). -/
def State.placed (s : State) (q : DReq) (o : Obj) : State :=
  (s.setReg regGeneration 0 ((s.reg regGeneration 0 + boolNat (!o.own)) % 2 ^ 64)).applyAll q.master [(q.key, q.payload)]

/-- The server accepts a write of object `o` at index offset `i` and subindex offset `j` outside a transaction: it exists and may be written, the
master has the rights, the value is good, and nothing holds the object (R509, R510, R513, R518). -/
def State.accepts (s : State) (q : DReq) (o : Obj) (i j : Nat) : Bool :=
  s.serves q && q.op == 2 && !q.tx && findObj q.index q.sub == some (o, i, j) && (o.access == .rw || o.access == .wo) && s.dictMay q .w &&
  (!needsC q.index q.sub || s.dictMay q .c) && valueStatus o i q.payload == stOk && !s.claimed q o && !s.nvBusy o q.key &&
  s.ruleStatus (s.placed q o) q.master o i j q.payload == stOk && (!o.acts || ((s.placed q o).command o i q.payload).2 == stOk)

/-- What an accepted write leaves when `act` is the effect of its value: the generation counts a change once, the commit lets what waited go on,
vector 3 is raised, the answer is OK, and sessions of a key slot just written end (R58, R510, R518, R528, R535). -/
def State.afterWrite (s : State) (q : DReq) (o : Obj) (act : State → State) : State :=
  let gen := (s.reg regGeneration 0 + boolNat (!o.own)) % 2 ^ 64
  let t := act (s.setReg regGeneration 0 gen)
  let u := ((t.commitRest s).noteNv [(q.key, q.payload)]).setReg regGeneration 0 gen
  let w := if o.own then u else u.vector 3
  (w.answered q stOk []).endKeySessions (s.keysWritten q)

/-- A transaction with one more staged write, which replaces an earlier one of the same object (R516). -/
def Transaction.staging (t : Transaction) (q : DReq) : Transaction :=
  { t with staged := if t.staged.any (·.1 == q.key) then t.staged.map fun w => if w.1 = q.key then (q.key, q.payload) else w
                     else t.staged ++ [(q.key, q.payload)] }

/-- The server stages a write of object `o` in the open transaction `t` of its master: it exists and may be written, the master has the rights, the
value passes the checks of staging, nothing else holds the object, and the transaction has room (R509, R510, R513, R516, R517). -/
def State.stages (s : State) (q : DReq) (o : Obj) (i j : Nat) (t : Transaction) : Bool :=
  let rest := t.staged.filter (·.1 != q.key)
  s.serves q && q.op == 2 && q.tx && s.txOf q == some t && findObj q.index q.sub == some (o, i, j) && o.access != .ro && s.dictMay q .w &&
  (!needsC q.index q.sub || s.dictMay q .c) && valueStatus o i q.payload == stOk && s.stageStatus q.master o i j q.payload == stOk &&
  !s.claimed q o && !s.nvBusy o q.key && Nat.blt rest.length 64 && Nat.ble ((rest.map fun w => w.2.length).sum + q.payload.length) 16384

/-- The transaction of a master holds one staged write, of object `o`, which passes the checks of commit (R518). -/
def State.commits (s : State) (q : DReq) (o : Obj) (i j : Nat) : Bool :=
  let c := s.endTx q.master
  s.serves q && (s.txOf q).map (·.staged) == some [(q.key, q.payload)] && findObj q.index q.sub == some (o, i, j) && !o.acts &&
  c.ruleStatus (c.placed q o) q.master o i j q.payload == stOk

/-- What the commit of that transaction leaves when `act` is the effect of its value (R58, R517, R518, R535). -/
def State.afterCommit (s : State) (r : Req) (q : DReq) (o : Obj) (act : State → State) : State :=
  let c := s.endTx q.master
  let gen := (s.reg regGeneration 0 + boolNat (!o.own)) % 2 ^ 64
  let u := (((act (c.setReg regGeneration 0 gen)).commitRest c).noteNv [(q.key, q.payload)]).setReg regGeneration 0 gen
  let w := if o.own then u else u.vector 3
  (w.answered (opReq r 4) stOk (leBytes 8 w.now)).endKeySessions (s.keysWritten (opReq r 4))

end Sys2Proof.Machine
end

