-- ==== Sys2Proof/Certificates/Slice0/Obligations.lean ====
section
/-! DEFINITION. The statements for the provers. -/

open Sys2Proof Sys2Proof.Machine

/-! ### Pier programs -/

/-- The instructions of a pier program with the header, the word and the unit of each (R169, R170, R173, R178): those that any sequencer that can
issue takes up (COMMIT and STEP.NEXT have rules of their own). -/
def Sys2Proof.Instr.issued : Instr → Option (Hdr × Nat × Option PierUnit)
  | .pass h o => some (h, passWord h o, some .array)
  | .vecConvert h o => some (h, vecWord 0x01 h o, some .vector)
  | .vecAdd h o => some (h, vecWord 0x02 h o, some .vector)
  | .vecMul h o => some (h, vecWord 0x03 h o, some .vector)
  | .vecRmsnorm h o => some (h, vecWord 0x10 h o, some .vector)
  | .vecAddnorm h o => some (h, vecWord 0x11 h o, some .vector)
  | .vecLayernorm h o => some (h, vecWord 0x12 h o, some .vector)
  | .vecSoftmax h o => some (h, vecWord 0x18 h o, some .vector)
  | .vecSwiglu h o => some (h, vecWord 0x1A h o, some .vector)
  | .vecGelu h o => some (h, vecWord 0x1B h o, some .vector)
  | .vecRotary h o => some (h, vecWord 0x20 h o, some .vector)
  | .vecTreemask h o => some (h, vecWord 0x28 h o, some .vector)
  | .vecTopk h o => some (h, vecWord 0x30 h o, some .vector)
  | .vecSample h o => some (h, vecWord 0x31 h o, some .vector)
  | .vecGather h o => some (h, vecWord 0x38 h o, some .vector)
  | .vecNotify h o _ => some (h, vecWord 0x40 h o, some .vector)
  | .moveCopy h n src dst => some (h, moveWord 0 h n 0 (opndWord src) dst, some .turn)
  | .moveTurn h n e src dst _ => some (h, moveWord 1 h n e (opndWord src) dst, some .turn)
  | .moveFill h n dst => some (h, moveWord 2 h n 0 0 dst, some .turn)
  | .fetchLinear h ra t dst => some (h, fetchLinearWord h ra t dst, some .fetch)
  | .fetchList h ra n list dst => some (h, fetchListWord h ra n list dst, some .fetch)
  | .sendRows h o => some (h, sendWord 0 h o, some .mesh)
  | .sendSignal h m c => some (h, sendSignalWord h m c, some .mesh)
  | .sendStore h t src => some (h, sendStoreWord h t src, some .mesh)
  | .sendMcast h o => some (h, sendWord 3 h o, some .mesh)
  | .recvRows h c n => some (h, recvWord 0 h c n, some .mesh)
  | .recvSignal h c n => some (h, recvWord 1 h c n, some .mesh)
  | .collReduce h o => some (h, collWord 0 h o, some .mesh)
  | .collAllreduce h o => some (h, collWord 1 h o, some .mesh)
  | .collAllgather h o => some (h, collWord 2 h o, some .mesh)
  | .collBroadcast h o => some (h, collWord 3 h o, some .mesh)
  | .syncSpan h => some (h, syncWord 0 h 0, none)
  | .syncGroup h g => some (h, syncWord 1 h g.toNat, none)
  | .syncLocal h => some (h, syncWord 2 h 0, none)
  | .checkWait h => some (h, checkWord 0 h 0, none)
  | .checkForce h => some (h, checkWord 1 h 0, none)
  | .checkWindow h r => some (h, checkWord 2 h r, none)
  | .phase h code => some (h, phaseWord h code, none)
  | .stepBase h r m b d => some (h, baseWord h r m b d, none)
  | .stepAdd h r imm => some (h, addWord h r imm, none)
  | .stepLoop h c n => some (h, loopWord h c n, none)
  | .stepEndloop h c a => some (h, endloopWord h c a, none)
  | .stepJump h a => some (h, jumpWord h a, none)
  | .stepLdx h r src w => some (h, ldxWord h r src w, none)
  | _ => none

/-- R88, R169 to R171, R195, R196, R198 over every instruction of a pier program: a pier in a drawbridge does nothing; a difference of the twins
stops issue in both; a sequencer that cannot issue, or whose next word is another, does nothing; a word that is uncorrectable in both copies stops the
pier; an instruction that may not issue yet counts one waiting cycle of ISSUE_WAITS and changes nothing else. -/
def Obligations.IssueHoldsBack : Prop :=
  ∀ (i : Instr) (h : Hdr) (w : Nat) (u : Option PierUnit) (s : State), i.issued = some (h, w, u) →
    let q := (s.field h.field).seq
    ((s.field h.field).state = .drawbridge → exec i s = .next s) ∧
    ((s.field h.field).state ≠ .drawbridge →
      (∀ b, h.fault = .twin b → q.state ≠ .empty → exec i s = .next (s.twinFault h.field b.toNat)) ∧
      ((∀ b, h.fault ≠ .twin b) → q.issuing = false ∨ q.nextIs w = false → exec i s = .next s) ∧
      (h.fault = .uncorrectable → q.issuing = true → q.nextIs w = true → exec i s = .next (s.wordFault h.field)) ∧
      (h.fault = .clean → q.issuing = true → q.nextIs w = true → q.mayIssue h u = false →
        exec i s = .next (s.setReg regIssueWaits h.field (satAdd regIssueWaits.size (s.reg regIssueWaits h.field) 1))))

/-- CHECK.FORCE, CHECK.WINDOW, STEP.BASE, STEP.ADD, STEP.LOOP, STEP.ENDLOOP and STEP.JUMP (R174, R187, R189): each, when it issues, completes, with
the registers of its sequencer as its rule says and everything else as it was.  `t` is the state with the instruction index moved past the instruction.
BASE keeps its record for the steps to come; index register 0 keeps its value, and loads and sums are taken modulo 2^64. -/
def Obligations.SequencerRegisters : Prop :=
  ∀ (h : Hdr) (s : State), let f := h.field.val
    let t := s.advanced h
    let q := (s.field f).seq
    (s.issues h (checkWord 1 h 0) none = true →
      exec (.checkForce h) s = .next (t.modSeq f fun x => { x with forceCheck := true })) ∧
    (∀ r : Idx16, s.issues h (checkWord 2 h r) none = true → s.wf = true →
      exec (.checkWindow h r) s = .next (t.modSeq f fun x => { x with idx := if r = 0 then q.idx else q.idx.set r (q.window % 2 ^ 64) })) ∧
    (∀ (r : Idx16) m b d, s.issues h (baseWord h r m b d) none = true → s.wf = true →
      exec (.stepBase h r m b d) s = .next (if r = 0 then t else t.modSeq f fun x =>
        { x with bases := q.bases.set r (some ⟨b.toNat, m.toNat, d.toInt⟩)
                 idx := q.idx.set r ((((b.toNat : Int) +
                   ((if m.toNat = 0 then q.reg 0 else q.reg 0 % m.toNat : Nat) : Int) * d.toInt) % 2 ^ 64).toNat) })) ∧
    (∀ (r : Idx16) (imm : BitVec 48), s.issues h (addWord h r imm) none = true → s.wf = true →
      exec (.stepAdd h r imm) s = .next (t.modSeq f fun x =>
        { x with idx := if r = 0 then q.idx else q.idx.set r ((((q.reg r : Int) + imm.toInt) % 2 ^ 64).toNat) })) ∧
    (∀ (c : Fin 4) (n : BitVec 16), s.issues h (loopWord h c n) none = true → s.wf = true →
      exec (.stepLoop h c n) s = .next (t.modSeq f fun x => { x with loops := q.loops.set c n.toNat })) ∧
    (∀ (c : Fin 4) (a : BitVec 14), s.issues h (endloopWord h c a) none = true → s.wf = true →
      exec (.stepEndloop h c a) s = .next (t.modSeq f fun x =>
        { x with loops := q.loops.set c ((q.loops.getD c 0 + 65535) % 65536)
                 pc := if (q.loops.getD c 0 + 65535) % 65536 = 0 then q.pc + 1 else a.toNat })) ∧
    (∀ a : BitVec 14, s.issues h (jumpWord h a) none = true →
      exec (.stepJump h a) s = .next (t.modSeq f fun x => { x with pc := a.toNat }))

/-- CHECK.WAIT, RECV.ROWS, RECV.SIGNAL and SYNC.LOCAL (R184, R186, R187): the instruction waits in its sequencer with its token busy, and
the waiting instructions of the pier are looked at again at once; nothing else changes. -/
def Obligations.WaitingInstructions : Prop :=
  ∀ (h : Hdr) (s : State), s.wf = true →
    let q := (s.field h.field).seq
    let waits (w : Waiting) : Sequencer :=
      let r := ({ q with pc := q.pc + 1, waiting := q.waiting ++ [w] }).setToken (hdrToken h) true
      Sequencer.drainWaiting (s.fetchSlots h.field == 0) (r.waiting.length + 1) r
    (s.issues h (checkWord 0 h 0) none = true → ∃ t, exec (.checkWait h) s = .next t ∧ s.onlySeq t h.field ∧
      (t.field h.field).seq = waits (.verdicts q.passIndex (hdrToken h))) ∧
    (s.issues h (syncWord 2 h 0) none = true → ∃ t, exec (.syncLocal h) s = .next t ∧ s.onlySeq t h.field ∧
      (t.field h.field).seq = waits (.localSync (hdrToken h))) ∧
    (∀ (c : Idx16) (n : BitVec 12),
      (s.issues h (recvWord 0 h c n) (some .mesh) = true → ∃ t, exec (.recvRows h c n) s = .next t ∧ s.onlySeq t h.field ∧
        (t.field h.field).seq = waits (.recv false c (n.toNat + 1) (hdrToken h))) ∧
      (s.issues h (recvWord 1 h c n) (some .mesh) = true → ∃ t, exec (.recvSignal h c n) s = .next t ∧ s.onlySeq t h.field ∧
        (t.field h.field).seq = waits (.recv true c (n.toNat + 1) (hdrToken h))))

/-- PHASE, COMMIT, STEP.NEXT and STEP.LDX (R188 to R190, R198): a phase that differs from the one in force is declared and the power manager
takes its point; COMMIT leaves the sequencer COMMITTING with its token busy, and at the anchor of an open step the step is CLOSING with
the provisional marks of the instruction (the request head that the attempt may leave is the model's reading of R48, notes/assumptions/67); STEP.NEXT in
PROLOGUE with no step open leaves the sequencer WAITING, in RUNNING it waits and holds back what follows, and WAITING it is passed; STEP.LDX
loads an index register from a scratchpad row. -/
def Obligations.SequencerControl : Prop :=
  ∀ (h : Hdr) (s : State), s.wf = true →
    let f := h.field.val
    let t := s.advanced h
    (∀ code : BitVec 3, s.issues h (phaseWord h code) none = true → code.toNat ≤ 4 →
      exec (.phase h code) s = .next (if s.reg regPhase f = code.toNat then t else
        let u := t.setReg regPhase f code.toNat
        (u.modPower f fun p => { p with phasePoint := u.phaseRequest f }).powerUpdate f)) ∧
    (∀ (o r : Word32) (m : Bool), s.issues h (commitWord h) none = true → (s.field f).seq.state = .running →
      ((∀ k, s.memberOf f = some k → (s.span k).anchor ≠ f) →
        ∃ v, exec (.commit h o r m) s = .next v ∧ s.onlySeq v f ∧
          (v.field f).seq = { (s.field f).seq with pc := (s.field f).seq.pc + 1, state := .committing, issuedCommit := true }.setToken
            (hdrToken h) true) ∧
      (∀ k, s.memberOf f = some k → (s.span k).anchor = f → (s.span k).step = some .opened → (s.span k).verified = [] →
        exec (.commit h o r m) s = .next (((t.modSeq f fun q => { q with state := .committing, issuedCommit := true }.setToken (hdrToken h)
          true).modSpan k fun p => { p with step := some .closing, provOutTail := o.toNat, provReqHead := p.headFor r.toNat
                                            headTaken := some (p.headFor r.toNat), moreChunks := m }).decide k))) ∧
    (s.issues h (nextWord h) none = true →
      ((s.field f).seq.state = .prologue → s.openStep f = none →
        exec (.stepNext h) s = .next ((t.modSeq f fun q => { q with prologueFailed := false }).seqWait f)) ∧
      ((s.field f).seq.state = .running → exec (.stepNext h) s = .next (t.await h (.next (hdrToken h))))) ∧
    ((s.field f).state ≠ .drawbridge → (s.field f).seq.state = .waiting → (s.field f).seq.damagedWord = false →
      (s.field f).seq.nextIs (nextWord h) = true → h.fault = .clean → (s.field f).seq.mayIssue h none = true → exec (.stepNext h) s = .next t) ∧
    (∀ (r : Idx16) (src : Opnd) (w : BitVec 6), s.issues h (ldxWord h r src w) none = true → r ≠ 0 →
      t.rowsFree f [t.opnd f src] [t.opnd f src] = true →
      exec (.stepLdx h r src w) s = .next ((t.modSeq f fun q =>
        { q with idx := q.idx.set r (leAt (t.row f (t.opnd f src)) (8 * w.toNat) 8 % 2 ^ 64) }).aheadPastLdx f))

/-- A VEC operation that maps each source vector to a result vector (R200, R203, R204): SRC1 is read, `g` makes each result, the results are
written from DST in the output format, saturated and non-finite values are counted, rows of one bank stall, and the instruction enters the vector unit. -/
def Sys2Proof.Instr.mapsVectors (i : Instr) (op : Nat) (h : Hdr) (o : VecOp) (outLen : VecDesc → Nat) (extra : State → VecDesc → List (List Nat))
    (when : State → VecDesc → Bool) (g : State → VecDesc → Nat → List FV → List FV) : Prop :=
  ∀ s : State, s.issues h (vecWord op h o) (some .vector) = true →
    let f := h.field.val
    let t := s.advanced h
    let d := VecDesc.ofBytes (t.descriptor f o.vdesc.toNat)
    let p := vecPlan h o outLen extra t d
    t.rowsFree f p.operands (p.reads ++ p.writes) = true → when t d = true →
    let src := (t.vecSource f h d (t.opnd f o.src1)).vectors d
    exec i s = .next ((((t.putVectors f (t.opnd f o.dst) d.ofmt d.outScale (nanTails (op == 1 && d.ifmt == 6) (t.vecKey h o d))
      (src.1.zipIdx.map fun v => g t d v.2 v.1)).vecCount f 0 src.2).vecStalls f (p.reads ++ p.writes)).vecLaunch h .lanes)

/-- The operations of the vector unit on vectors (R203, R207, R209): CONVERT gives the values themselves; ADD and MUL combine each element
with that of SRC2 in FP32; RMSNORM, LAYERNORM, SOFTMAX and SWIGLU are the functions of their rules, with EPS, TEMPERATURE, gains and masks
where the rules place them (a SOFTMAX whose PREFIX comes from a register, behind another operation in the unit, is held until it starts); GELU maps each
element; ROTARY turns pairs by the position and the node's depth. -/
def Obligations.VectorMaps : Prop :=
  ∀ (h : Hdr) (o : VecOp), let always : State → VecDesc → Bool := fun _ _ => true
    (Instr.vecConvert h o).mapsVectors 0x01 h o sameLen noExtra always (fun _ _ _ x => x) ∧
    (Instr.vecAdd h o).mapsVectors 0x02 h o sameLen (src2Vectors h o) always
      (fun t d r x => (x.zip (t.bfAt h.field (t.opnd h.field o.src2) d.len r)).map fun p => f32.add p.1 p.2) ∧
    (Instr.vecMul h o).mapsVectors 0x03 h o sameLen (src2Vectors h o) always
      (fun t d r x => (x.zip (t.bfAt h.field (t.opnd h.field o.src2) d.len r)).map fun p => f32.mul p.1 p.2) ∧
    (Instr.vecRmsnorm h o).mapsVectors 0x10 h o sameLen (src2Vector h o) always
      (fun t d _ x => rmsnorm (f32.value (d.p32 0)) (t.bfAt h.field (t.opnd h.field o.src2) d.len 0) x) ∧
    (Instr.vecLayernorm h o).mapsVectors 0x12 h o sameLen
      (fun t d => src2Vector h o t d ++ [vectorRows (t.paramOperand h.field (d.p32 4)) 5 d.len 1]) always
      (fun t d _ x => layernorm (f32.value (d.p32 0)) (t.bfAt h.field (t.opnd h.field o.src2) d.len 0)
        (t.bfAt h.field (t.paramOperand h.field (d.p32 4)) d.len 0) x) ∧
    (Instr.vecSoftmax h o).mapsVectors 0x18 h o sameLen (fun t d => if d.masked then [[t.opnd h.field o.src2]] else [])
      (fun t d => !(d.masked && d.prefixReg && t.vectorBusy h.field))
      (fun t d r x => softmax (f32.value (d.p32 0)) (fun k => !d.masked || keyAllowed (t.keyPrefix h.field d)
        (leAt (t.row h.field (t.opnd h.field o.src2)) (8 * (r % d.p8 8)) 8) k) x) ∧
    (∀ s : State, s.issues h (vecWord 0x18 h o) (some .vector) = true →
      let t := s.advanced h
      let d := VecDesc.ofBytes (t.descriptor h.field o.vdesc.toNat)
      let p := vecPlan h o sameLen (fun t d => if d.masked then [[t.opnd h.field o.src2]] else []) t d
      t.rowsFree h.field p.operands (p.reads ++ p.writes) = true → d.masked = true → d.prefixReg = true → t.vectorBusy h.field = true →
      exec (.vecSoftmax h o) s = .next (((t.modSeq h.field fun q => { q with held := q.held ++ [⟨(t.field h.field).seq.serial,
        t.descriptor h.field o.vdesc.toNat, t.vecSource h.field h d (t.opnd h.field o.src1), t.row h.field (t.opnd h.field o.src2),
        t.opnd h.field o.dst⟩] }).vecStalls h.field (p.reads ++ p.writes)).vecLaunch h .lanes)) ∧
    (Instr.vecSwiglu h o).mapsVectors 0x1A h o (fun d => d.len / 2) noExtra always (fun _ _ _ x => swiglu x) ∧
    (Instr.vecGelu h o).mapsVectors 0x1B h o sameLen noExtra always (fun _ _ _ x => x.map geluF) ∧
    (Instr.vecRotary h o).mapsVectors 0x20 h o sameLen
      (fun t d => [tableRows h t d] ++ if d.p32 8 = 0 then [] else [[t.paramOperand h.field (d.p32 8)]]) always
      (fun t d r x => rotary ((d.p8 1).testBit 0) (d.headDim)
        ((t.field h.field).seq.reg (d.p8 0 % 16) +
          if d.p32 8 = 0 then 0 else leAt (t.row h.field (t.paramOperand h.field (d.p32 8))) (r % 64) 1)
        (fun i => leAt (t.rows h.field (tableRows h t d)) (8 * i) 8) x)

/-- The other operations of the vector unit (R203, R208, R210 to R214, R216): ADDNORM writes h + x at RESID and its RMSNORM at DST; TREEMASK writes
the mask words and depths of a tree that R208 admits; TOPK writes the rows of R210; SAMPLE writes the token of R211 to R213 drawn from SHAKE
output; GATHER packs the elements that its indices name. -/
def Obligations.VectorOthers : Prop :=
  ∀ (h : Hdr) (o : VecOp) (s : State),
    let f := h.field.val
    let t := s.advanced h
    let d := VecDesc.ofBytes (t.descriptor f o.vdesc.toNat)
    let src := (t.vecSource f h d (t.opnd f o.src1)).vectors d
    let issues (op : Nat) : Bool := s.issues h (vecWord op h o) (some .vector)
    (issues 0x11 = true → let p := vecPlan h o sameLen (fun t d => src2Vector h o t d ++ [residRows h t d]) t d
      let key := t.vecKey h o d ++ t.rows f (residRows h t d)
      let sums := src.1.zipIdx.map fun v => residSum h t d v.2 v.1
      t.rowsFree f p.operands (p.reads ++ p.writes) = true →
      exec (.vecAddnorm h o) s = .next (((((t.putVectors f (t.paramOperand f (d.p32 4)) 7 0 (nanTails false (0#8 :: key)) sums).putVectors f
        (t.opnd f o.dst) d.ofmt d.outScale (nanTails false key)
        (sums.map fun v => rmsnorm (f32.value (d.p32 0)) (t.bfAt f (t.opnd f o.src2) d.len 0) v)).vecCount f 0 src.2).vecStalls f
          (p.reads ++ p.writes)).vecLaunch h .lanes)) ∧
    (issues 0x28 = true → ∀ m ds, let rows := [t.opnd f o.src1, t.opnd f o.dst, rowAfter (t.opnd f o.dst) 1]
      t.rowsFree f [t.opnd f o.src1, t.opnd f o.dst] rows = true →
      treemask d.len ((List.range d.len).map fun j => leAt (t.row f (t.opnd f o.src1)) j 1) = .ok (m, ds) →
      ∃ rest1 rest2, exec (.vecTreemask h o) s = .next (((t.putRows f (t.opnd f o.dst)
        (((m.map (leBytes 8)).flatten ++ rest1).take 512 ++ (ds.map (BitVec.ofNat 8) ++ rest2).take 512)).vecStalls f rows).vecLaunch h .whole)) ∧
    (issues 0x30 = true → let from1 := t.sourceRows f h d (t.opnd f o.src1)
      let dst := rowsFrom (t.opnd f o.dst) (2 * d.rows)
      let res := src.1.map (topk (f32.value (d.p32 0)) (d.p32 4))
      t.rowsFree f ([from1, dst].filterMap List.head?) (from1 ++ dst) = true →
      exec (.vecTopk h o) s = .next ((((t.putRows f (t.opnd f o.dst) (res.map topkRows).flatten).vecCount f ((res.map fun r => r.2.2.2).sum)
        src.2).vecStalls f (from1 ++ dst)).vecLaunch h .lanes)) ∧
    (issues 0x31 = true → let n := d.p8 9
      let from1 := rowsFrom (t.opnd f o.src1) (2 * n)
      let k := (t.memberOf f).getD 0
      let seed := if (t.span k).step.isSome then t.inForce k regSamplerSeed else t.reg regSamplerSeed k
      let draw := shake64 (drawMessage seed k ((t.field f).seq.reg 0) (d.p32 12) (leAt d.params 10 2))
      let r := sampleToken (f32.value (d.p32 0)) (f32.value (d.p32 4)) (d.p8 8)
        ((List.range n).map fun i => shardOf (slice (1024 * i) 1024 (t.rows f from1))) draw
      t.rowsFree f ([from1, [t.opnd f o.dst]].filterMap List.head?) (from1 ++ [t.opnd f o.dst]) = true →
      exec (.vecSample h o) s = .next ((((if r.2 then t.bump regToppTruncations f 1 else t).putRows f (t.opnd f o.dst)
        (padTo 512 (leBytes 4 r.1))).vecStalls f (from1 ++ [t.opnd f o.dst])).vecLaunch h .whole)) ∧
    (issues 0x38 = true → let index := rowsFrom (t.paramOperand f (d.p32 0)) ((4 * d.rows + 511) / 512)
      let dst := rowsFrom (t.opnd f o.dst) ((d.rows * d.len * elemBytes d.ofmt + 511) / 512)
      let bytes := (t.gatherRows f d).map fun p => slice (leAt d.params 4 2) (d.len * elemBytes d.ifmt) (t.row f p)
      let values := ((t.gatherRows f d).map fun p => (List.range d.len).map
        (VecSource.elem ⟨t.row f p, true, [t.scalesAt f p]⟩ d.ifmt d.inScale (leAt d.params 4 2))).flatten
      t.rowsFree f ([index, dst].filterMap List.head?) (index ++ t.gatherRows f d ++ dst) = true → d.ifmt = d.ofmt →
      exec (.vecGather h o) s = .next (((((t.bump regGatherElements f (d.rows * d.len)).putRows f (t.opnd f o.dst) bytes.flatten).vecCount f
        (values.filter (·.1.nonfinite)).length 0).vecStalls f (index ++ t.gatherRows f d ++ dst)).vecLaunch h .whole))

/-- NOTIFY (R216, R331) at a pier with no open step as an anchor: the count, the interrupt with the code, span, step and attempt, and the
movers that wait for the code. -/
def Obligations.VectorNotify : Prop :=
  ∀ (h : Hdr) (o : VecOp) (l : List SampledSeq) (s : State), s.issues h (vecWord 0x40 h o) (some .vector) = true →
    let f := h.field.val
    let t := s.advanced h
    let code := (VecDesc.ofBytes (t.descriptor f o.vdesc.toNat)).p8 0
    let at' := (t.openStep f).getD ((t.spanOf f).getD 0xFF, 0, 0)
    t.openStep f = none ∨ (t.span at'.1).anchor ≠ f →
    exec (.vecNotify h o l) s =
      .next ((((t.bump regNotifies f 1).interrupt f 2 [code, at'.1, at'.2.1, at'.2.2]).moverSeqEvent f 2 code).vecLaunch h .none)

/-- MOVE (R153, R179, R374): COPY writes COUNT + 1 source rows at the destination, with the scales that PARTIAL entries in them were drained with
(R125); FILL writes zeros; TURN without a fault of the turn unit writes each transposed tile, in order, and its check finds nothing.  Each enters the
turn unit. -/
def Obligations.MoveInstructions : Prop :=
  ∀ (h : Hdr) (n : BitVec 12) (src dst : Opnd) (s : State),
    let f := h.field.val
    let t := s.advanced h
    let a := t.opnd f src
    let b := t.opnd f dst
    (s.issues h (moveWord 0 h n 0 (opndWord src) dst) (some .turn) = true →
      t.rowsFree f [a, b] (rowsFrom a (n.toNat + 1) ++ rowsFrom b (n.toNat + 1)) = true →
      ((b + 2 ^ 22 - a) % 2 ^ 22 = 0 ∨ n.toNat + 1 ≤ (b + 2 ^ 22 - a) % 2 ^ 22) →
      exec (.moveCopy h n src dst) s = .next (((List.range (n.toNat + 1)).foldl (fun v i =>
        v.tagRows f [rowAfter b i] (t.scalesAt f (rowAfter a i)))
          (t.putRows f b ((List.range (n.toNat + 1)).map fun i => t.row f (rowAfter a i)).flatten)).launch h .turn 3 0 [])) ∧
    (s.issues h (moveWord 2 h n 0 0 dst) (some .turn) = true → t.rowsFree f [b] (rowsFrom b (n.toNat + 1)) = true →
      exec (.moveFill h n dst) s = .next ((t.putRows f b (zeros (512 * (n.toNat + 1)))).launch h .turn 3 0 [])) ∧
    (∀ e : Fin 4, let k := tileRows e
      s.issues h (moveWord 1 h n e (opndWord src) dst) (some .turn) = true →
      t.rowsFree f [a, b] (rowsFrom a ((n.toNat + 1) * k) ++ rowsFrom b ((n.toNat + 1) * k)) = true →
      exec (.moveTurn h n e src dst []) s = .next (((List.range (n.toNat + 1)).foldl (fun v i =>
        v.putRows f (rowAfter b (i * k)) (padTo (512 * k) (transposeTile (tileBits e)
          ((v.rows f (rowsFrom (rowAfter a (i * k)) k)).take (128 * tileBits e))))) t).launch h .turn 3 0 []))

/-- FETCH (R175, R180 to R182, R191 to R193): the range of the register and offset, or each range of the list, is read into consecutive rows from
the destination, the instruction waiting for as many responses; a destination in no bank reports ACCESS with event 0x0812, and a range that R180 does
not admit ACCESS.  A FETCH that allows run-ahead counts itself; one whose reads run-ahead has made, with none outstanding and none left to make,
reads nothing. -/
def Obligations.FetchInstructions : Prop :=
  ∀ (h : Hdr) (ra : Bool) (s : State),
    let f := h.field.val
    let t := s.advanced h
    let q := (t.field f).seq
    let here := q.ahead.find? fun a => ra && a.step == q.reg 0 && a.nth == q.fetchNth
    let u := if ra then t.modSeq f fun x => { x with fetchNth := x.fetchNth + 1 } else t
    let reads := fun l : List (Nat × Nat × Nat) => ((u.launch h .fetch 4 l.length []).fetchIssue f (t.pierSpan f) q.serial l).aheadGo f
    (∀ (o : TowerOpnd) (dst : Opnd), s.issues h (fetchLinearWord h ra o dst) (some .fetch) = true →
      let a := towerAddr q.idx o.treg o.toff.toNat
      (badBank (t.opnd f dst) = true → exec (.fetchLinear h ra o dst) s = .next (t.operandFault f)) ∧
      (badBank (t.opnd f dst) = false →
        (t.rangeOk a (o.len.toNat + 1) = true → here = none →
          exec (.fetchLinear h ra o dst) s = .next (reads [(a, o.len.toNat + 1, t.opnd f dst)])) ∧
        (∀ x, t.rangeOk a (o.len.toNat + 1) = true → here = some x →
          ((q.runAhead.filter fun r => r.step == x.step && r.nth == x.nth).all fun r => r.rest.isEmpty) = true →
          let v := u.modSeq f fun x' => { x' with ahead := x'.ahead.filter fun y => !(y.step == x.step && y.nth == x.nth)
                                                  runAhead := x'.runAhead.map (·.without [x]) }
          v.readsLeft f x.tags = 0 → exec (.fetchLinear h ra o dst) s = .next (v.aheadGo f)) ∧
        (t.rangeOk a (o.len.toNat + 1) = false → exec (.fetchLinear h ra o dst) s = .next (t.failed f 0x40)))) ∧
    (∀ (n : BitVec 6) (list dst : Opnd), s.issues h (fetchListWord h ra n list dst) (some .fetch) = true →
      t.rowsFree f [t.opnd f list, t.opnd f dst] [t.opnd f list] = true →
      let es := listEntries (t.row f (t.opnd f list)) n.toNat
      ((es.all fun e => t.rangeOk e.1 e.2) = true → here = none →
        exec (.fetchList h ra n list dst) s = .next (reads (listReads (t.opnd f dst) es))) ∧
      ((es.all fun e => t.rangeOk e.1 e.2) = false → exec (.fetchList h ra n list dst) s = .next (t.failed f 0x40)))

/-- SEND (R180, R183, R296, R297, R306): ROWS sends the source rows to the target's rows in packets of at most four, STORE sends them to the tower
range, each followed by the read-backs of R297; SIGNAL sends one SIGNAL with its channel; MCAST with a multicast group opens its windows at once.
Each waits for its responses; a target that is no member, and a range that R180 does not admit, report ACCESS. -/
def Obligations.SendInstructions : Prop :=
  ∀ (h : Hdr) (s : State),
    let f := h.field.val
    let t := s.advanced h
    let k := t.pierSpan f
    let serial := (t.field f).seq.serial
    let at' := (t.openStep f).getD (k, (t.field f).seq.reg 0, 0)
    (∀ (o : SendOp), let a := t.opnd f o.src
      let r := t.opnd f o.rdst
      let n := o.count.toNat + 1
      s.issues h (sendWord 0 h o) (some .mesh) = true → t.rowsFree f [a, r] (rowsFrom a n) = true →
      (∀ d, (t.span k).memberDst o.target.toNat = some d →
        let m := readbacks d ((n + 3) / 4)
        exec (.sendRows h o) s = .next (((List.range m).foldl (fun v i => v.sendReadback f k i d r serial)
          (t.sendRows f tyRows k (fun _ => d) false (fun i => [o.chan, rowAfter r i]) (t.rows f (rowsFrom a n)))).launch h .mesh 5 m [])) ∧
      ((t.span k).memberDst o.target.toNat = none → exec (.sendRows h o) s = .next (t.failed f 0x40))) ∧
    (∀ (m : BitVec 8) (c : Idx16), s.issues h (sendSignalWord h m c) (some .mesh) = true →
      (∀ d, (t.span k).memberDst m.toNat = some d →
        exec (.sendSignal h m c) s = .next (((t.request { tag := 0, master := pierMaster f, span := k, field := f, mover := none, dest := none
                                                          bytes := 0, ahead := none, write := false, serial := serial }).send (pierMaster f)
          tySignal k at'.2.1 at'.2.2 d 0 [t.mesh.nextTag, c]).launch h .mesh 5 1 [])) ∧
      ((t.span k).memberDst m.toNat = none → exec (.sendSignal h m c) s = .next (t.failed f 0x40))) ∧
    (∀ (o : TowerOpnd) (src : Opnd), let a := towerAddr (t.field f).seq.idx o.treg o.toff.toNat
      let b := t.opnd f src
      let n := o.len.toNat + 1
      let l := t.endpointAddrs a n
      s.issues h (sendStoreWord h o src) (some .mesh) = true → badBank b = false →
      (t.rowsFree f [b] (rowsFrom b n) = true → t.rangeOk a n = true →
        exec (.sendStore h o src) s = .next ((l.foldl (fun v x => v.sendReadback f k 0 (.addr x) x serial)
          (t.sendRows f tyWrite k (fun i => .addr (a + 512 * i)) false (fun i => [a + 512 * i]) (t.rows f (rowsFrom b n)))).launch h .mesh 5
            l.length [])) ∧
      (t.rangeOk a n = false → exec (.sendStore h o src) s = .next (t.failed f 0x40))) ∧
    (∀ (o : SendOp), let a := t.opnd f o.src
      let r := t.opnd f o.rdst
      let n := o.count.toNat + 1
      s.issues h (sendWord 3 h o) (some .mesh) = true → t.rowsFree f [a, r] (rowsFrom a n) = true →
      (∀ root members, t.groupOf k true o.target.toNat = some (root, members) →
        let u := (t.writeOpens f).launch h .mesh 5 1 [o.target.toNat]
        let m : Mcast :=
          { group := o.target.toNat, root := f, chan := o.chan, rows := n, windows := (n + windowRows - 1) / windowRows, sent := 0, src := a
            rdst := r
            targets := ((members.filterMap fun m => ((t.span k).members[m]?).map (·.2)).filter (· != f)).map fun g => (g, 2, 0, 0) }
        let v := u.modSpan k fun p => { p with mcasts := p.mcasts ++ [m] }
        exec (.sendMcast h o) s = .next (if (t.span k).mcasts.any fun x => x.group == m.group && x.root == f then v
          else (v.mcastGo k m).mcastCheck k m.group f)) ∧
      (t.groupOf k true o.target.toNat = none → exec (.sendMcast h o) s = .next (t.failed f 0x40)))

/-- A COLL of one of the four kinds at a member of the group (R185, R378): the contribution goes where the kind says, the sequence number of
the group moves on, and the instruction waits in the mesh interface. -/
def Sys2Proof.Instr.collective (i : Instr) (h : Hdr) (o : CollOp) (sub : Nat) (sends : Nat → Nat → Bool) (dsts : Nat → List Nat → List Nat)
    (rowsOut : Nat → Nat → Nat) (lands : Nat → Nat → Bool) : Prop :=
  ∀ (s : State) rank root ms, s.issues h (collWord sub h o) (some .mesh) = true →
    let f := h.field.val
    let t := s.advanced h
    let k := t.pierSpan f
    let a := t.opnd f o.src
    let b := t.opnd f o.dst
    let n := o.count.toNat + 1
    let g := o.group.toNat
    let me := ms.getD rank 0
    t.rankIn k g f = some (rank, root, ms) →
    t.rowsFree f [a, b] ((if sends me root then rowsFrom a n else []) ++ (if lands me root then rowsFrom b (rowsOut n ms.length) else []))
      = true →
    let seq := (t.field f).seq.collSeq.getD g 0
    let u := if sends me root then ((dsts root ms).filter (· != me)).foldl (fun v m =>
      v.sendColl f k g seq rank m (wordsOf sub) (t.rows f (rowsFrom a n))) t else t
    exec i s = .next ((u.modSeq f fun q => { q with collSeq := q.collSeq.set g (seq + 1) }).launch h .mesh 7 0 [g, seq, sub, n, a, b])

/-- COLL.REDUCE sends to the root and lands there; ALLREDUCE and ALLGATHER send to every member and land at every member, ALLGATHER as many
rows as members; BROADCAST sends from the root (R185). -/
def Obligations.Collectives : Prop :=
  ∀ (h : Hdr) (o : CollOp),
    (Instr.collReduce h o).collective h o 0 (fun _ _ => true) (fun root _ => [root]) (fun n _ => n) (fun me root => me == root) ∧
    (Instr.collAllreduce h o).collective h o 1 (fun _ _ => true) (fun _ ms => ms) (fun n _ => n) (fun _ _ => true) ∧
    (Instr.collAllgather h o).collective h o 2 (fun _ _ => true) (fun _ ms => ms) (fun n m => n * m) (fun _ _ => true) ∧
    (Instr.collBroadcast h o).collective h o 3 (fun me root => me == root) (fun _ ms => ms) (fun n _ => n) (fun _ _ => true)

/-- SYNC.SPAN and SYNC.GROUP (R186, R290): ARRIVE with count 1 goes to the root of the span or group with the next sequence number, and the
instruction waits for the release. -/
def Obligations.Barriers : Prop :=
  ∀ (h : Hdr) (s : State),
    let f := h.field.val
    let t := s.advanced h
    let k := t.pierSpan f
    let at' := (t.openStep f).getD (k, (t.field f).seq.reg 0, 0)
    let arrives (slot id root : Nat) : State :=
      let seq := (t.field f).seq.syncSeq.getD slot 0
      (((t.send (pierMaster f) tyArrive k at'.2.1 at'.2.2 (((t.span k).memberDst root).getD (.pier f)) 1 [id, seq]).modSeq f fun q =>
        { q with syncSeq := q.syncSeq.set slot (seq + 1) }).await h (.sync id seq (hdrToken h)))
    (s.issues h (syncWord 0 h 0) none = true → ∀ root ms, t.groupOf k false 0 = some (root, ms) →
      exec (.syncSpan h) s = .next (arrives 16 0xFF root)) ∧
    (∀ (g : BitVec 8), s.issues h (syncWord 1 h g.toNat) none = true →
      (∀ root ms, t.groupOf k false g.toNat = some (root, ms) → exec (.syncGroup h g) s = .next (arrives g.toNat g.toNat root)) ∧
      (t.groupOf k false g.toNat = none → exec (.syncGroup h g) s = .next (t.failed f 0x40)))

/-- PASS (R67 to R72, R77, R89, R96, R118 to R123).  Every form whose descriptor, weight, activation and destination rows are free is performed.  One
without DRAIN, of an unchecked pass: the entries that the pass makes replace those of the same numbers, the values that fell outside the window are
counted, a STATIONARY pass has its tile in the weight registers, a DIAGONAL one is counted, the pass index moves on, and the instruction enters the
array. -/
def Obligations.PassAccumulates : Prop :=
  ∀ (h : Hdr) (o : PassOp) (s : State), s.issues h (passWord h o) (some .array) = true →
    let f := h.field.val
    let t := s.advanced h
    let d := PassDesc.ofBytes (t.descriptor f o.desc.toNat)
    let w := d.weightRows (t.opnd f o.wsrc)
    let a := d.actRows (t.opnd f o.asrc)
    let dst := t.drainRows f o d
    let q := (t.field f).seq
    t.rowsFree f ([t.opnd f o.wsrc, t.opnd f o.asrc] ++ dst.take 1) (w.flatten ++ a.flatten ++ dst) = true →
    exec (.pass h o) s = .next (t.runPass f h o d w a) ∧
    (o.drain = false → passChecked (t.profileOf f) q.passIndex (q.reg 0) q.forceCheck = false →
      let x : PassInput := ⟨w.map (t.rows f), a.map (t.rows f)⟩
      let es := (d.entries o.chain (t.field f).array.accum x).flatten
      let drops := (es.map (·.drops)).sum
      let u := ((t.arrayEnter f).modArray f fun y =>
        { (if !d.diagonal && d.flow == 0 then y.loadTile (t.arrayBusy f) (x.weights.headD []) else y) with
          accum := y.accum.filter (fun e => !(es.map (·.num)).contains e.1) ++ es.map fun e => (e.num, e.sum)
          lastMode := some (d.mode, d.flow) }).modSeq f fun y => { y with window := y.window + drops, forceCheck := false }
      let total := (u.field f).seq.window - q.window
      let v := if total = 0 then u else (u.bump regWindowPasses f 1).bump regWindowDrops f total
      exec (.pass h o) s = .next (((if d.diagonal then v.bump regDiagonalPasses f 1 else v).modSeq f fun y =>
        { y with passIndex := q.passIndex + 1 }).launch h .array 1 0 []))

/-! ### The commit protocol -/

/-- READY_REPORT, ABORT_DONE and REPORT (R31 to R34, R40): a pier whose report is due sends it with its status and WINDOW total to the anchor; an
aborting pier with nothing left open sets its provisional marks back and sends abort-done;
a clean ready report counts toward the quorum; one with a failing bit aborts the attempt with its bits; any other report of an attempt that
is aborting adds its bits to LAST_ABORT_CAUSE; abort-done counts; a report for another step or attempt aborts with ORDER. -/
def Obligations.Reports : Prop :=
  ∀ (s : State),
    (∀ (f : FieldId) k n a, s.openStep f = some (k, n, a) → (s.field f).seq.readyDue = true →
      exec (.readyReport f) s = .next ((s.modSeq f fun q => { q with reported := true }).send (pierMaster f) tyReport k n a (s.anchorDst k)
        ((s.field f).seq.failedBits + if (s.field f).seq.window ≠ 0 then 256 else 0) [0, 1, (s.field f).seq.window])) ∧
    (∀ (f : FieldId) k n a, s.openStep f = some (k, n, a) → (s.span k).step = some .aborting → (s.field f).seq.abortDue = true →
      s.abortClear f k = true →
      let u := ((s.modSpan k Span.unmarked).modSeq f fun q => { q with abortDue := false, window := 0, failedBits := 0, reported := false }).send
        (pierMaster f) tyReport k n a (s.anchorDst k) 0 [2, 1, 0]
      exec (.abortDone f) s = .next (u.prologueAgain f) ∧
      ((s.field f).seq.prologueFailed = false → exec (.abortDone f) s = .next u)) ∧
    (∀ (p : Pkt) (count status : BitVec 16) (w : BitVec 32), s.delivers p = true →
      let t := s.hauled p 1
      let k := p.span.toNat
      let adds (n : Nat) : State := (t.modSpan k fun x => { x with status := (t.span k).status ||| n }).setReg regLastAbortCause k
        ((t.span k).status ||| n)
      t.stale p = false → (t.span k).step ≠ none →
      ((t.span k).isOpen p.step.toNat p.attempt.toNat = true →
        ((t.span k).step = some .aborting →
          exec (.report p .ready count status w) s = .next (adds status.toNat) ∧ exec (.report p .failed count status w) s = .next (adds status.toNat) ∧
          exec (.report p .abortDone count status w) s = .next (((t.modSpan k fun x =>
            { x with doneCount := x.doneCount + count.toNat }).abortQuorum k).settle)) ∧
        ((t.span k).step ≠ some .aborting →
          (status.toNat % 256 = 0 → exec (.report p .ready count status w) s = .next ((t.modSpan k fun x =>
            { x with clean := x.clean + count.toNat, status := x.status ||| status.toNat, windowSum := x.windowSum + w.toNat }).decide k)) ∧
          (status.toNat % 256 ≠ 0 → exec (.report p .ready count status w) s = .next (t.abortSpan k status.toNat)) ∧
          exec (.report p .failed count status w) s = .next (t.abortSpan k status.toNat))) ∧
      ((t.span k).isOpen p.step.toNat p.attempt.toNat = false → ∀ kind, exec (.report p kind count status w) s =
        .next (if (t.span k).step = some .aborting then adds 1 else t.abortSpan k 1)))

/-- KEYSTONE_READBACK_DONE, ADVANCE, COMMIT_TIMEOUT and PIER_COMMIT_TIMEOUT (R29, R32, R35, R36, R38, R39, R54): with the read-backs of a decided
step both copies take its record, every mark moves, the span goes on and the advance goes out, WINDOW recorded when a report set it; an advance reaches
a member pier, the engine or the supervisor; the timeouts abort the attempt or count the anchor as lost. -/
def Obligations.Keystones : Prop :=
  ∀ (s : State),
    (∀ k : SpanId, (s.span k).state = .running → (s.span k).step = some .decided → s.copiesReachable k = true →
      let t := s.writeKeystone k (s.span k).nextRecord
      let u := if (s.span k).status.testBit 8 then (t.event (pierMaster (s.span k).anchor) 0x0A06 []).bump regWindowSteps k 1 else t
      exec (.keystoneReadbackDone k) s = .next (((((u.closeStep k).afterKeystone k).sendAdvance k).sendNotice k).settle)) ∧
    (∀ k : SpanId, (s.span k).state = .running → (s.span k).step ≠ some .decided ∨ s.copiesReachable k = false →
      exec (.keystoneReadbackDone k) s = .next s) ∧
    (∀ k : SpanId, (s.span k).state ≠ .running → exec (.keystoneReadbackDone k) s =
      .next (s.supEvent 0x0A07 (leBytes 1 k ++ leBytes 1 (s.span k).state.code ++ leBytes 1 6))) ∧
    (∀ (p : Pkt) (w : Word64), s.delivers p = true →
      let t := s.hauled p 1
      let k := p.span.toNat
      let u := t.advanceAway k p.step.toNat
      t.stale p = false → (t.span k).state ≠ .unused → (u.span k).committed = p.step.toNat →
      (∀ f : FieldId, exec (.advance p (.pier f) w) s =
        .next (if (u.span k).here.contains f.val then ((u.windowAt k w.toNat).advancePier f k p.step.toNat).settle else u.settle)) ∧
      exec (.advance p .engine w) s = .next ((u.engineAdvance k).settle) ∧
      exec (.advance p .supervisor w) s = .next ((u.advanceSupervisor k).settle)) ∧
    (∀ k : SpanId, exec (.commitTimeout k) s = .next (if (s.span k).step = some .closing then s.abortSpan k 0x80 else s)) ∧
    (∀ (f : FieldId) k, s.memberOf f = some k → (s.field f).seq.state = .committing → (s.field f).seq.reported = true →
      exec (.pierCommitTimeout f) s = .next
        (((if s.anchorAway k then s else s.probe (s.span k).anchor).loseMember k (s.anchorDevice k) (s.span k).anchor).settle))

/-- What the commit of a step moves (R20, R22, R36, R57): the step number, the keystone time and every provisional mark of the span, in one step. -/
def Obligations.CommitMovesMarks : Prop :=
  ∀ (s : State) (k : SpanId), s.wf = true →
    let p := s.span k
    let q := (s.closeStep k).span k
    q.committed = p.committed + 1 ∧ q.step = none ∧ q.select = !p.select ∧ q.outTail = p.provOutTail ∧ q.reqHead = p.provReqHead ∧
    q.keyTime = p.writeTime ∧ q.working = q.seqs ∧ q.pred = p.predWork ∧ q.shape = p.shapeWork ∧ q.attempt = p.attempt ∧ q.epoch = p.epoch ∧
    q.members = p.members ∧
    (∀ j : SpanId, j ≠ k → (s.closeStep k).span j = s.span j) ∧ (s.closeStep k).mem = s.mem ∧ (s.closeStep k).fields = s.fields

/-- ABORT and OPEN (R34, R40, R54, R197, R198, R312): ABORT for the open step stops the pier, and in a span that is not RUNNING it is ignored with
0x0A07; OPEN for the attempt that is open starts it at the variant in force. -/
def Obligations.AbortAndOpen : Prop :=
  ∀ (s : State) (p : Pkt) (f : FieldId), s.delivers p = true →
    let t := s.hauled p 1
    let k := p.span.toNat
    let u := t.openAway k p.attempt.toNat
    t.stale p = false →
    ((t.span k).state ≠ .running → exec (.abort p f) s = .next (t.supEvent 0x0A07 (leBytes 1 k ++ leBytes 1 (t.span k).state.code ++ leBytes 1 7))) ∧
    ((t.span k).state = .running → (t.span k).here.contains f.val = true → (t.span k).committed + 1 = p.step.toNat →
      exec (.abort p f) s = .next ((t.abortAway k).pierAbort f k)) ∧
    (∀ w : Word64, (t.span k).here.contains f.val = true → (u.span k).step = some .opened →
      (u.span k).isOpen p.step.toNat p.attempt.toNat = true →
      let v := u.windowAt k w.toNat
      exec (.openMsg p f w) s = .next
        (((v.dropSegment f).attemptStart f p.step.toNat (v.inForce k regStepVariant)).moverSeqEvent f 1 0))

/-- What an abort discards (R32, R40, R41, R43): at the anchor's broadcast the attempt is ABORTING, the count and cause of aborts are kept, and the
committed step and every mark stay; with the writes of the attempt over, the provisional marks fall back to the committed ones. -/
def Obligations.AbortDiscards : Prop :=
  ∀ (s : State) (k : SpanId) (cause : Nat), s.wf = true → (s.span k).step = some .opened ∨ (s.span k).step = some .closing →
    let p := s.span k
    let t := s.abortSpan k cause
    let q := (t.modSpan k Span.unmarked).span k
    (t.span k).step = some .aborting ∧ (t.span k).status = (p.status ||| cause) ∧ (t.span k).committed = p.committed ∧
    (t.span k).attempt = p.attempt ∧ (t.span k).provOutTail = p.provOutTail ∧ (t.span k).provReqHead = p.provReqHead ∧ (t.span k).seqs = p.seqs ∧
    t.reg regLastAbortCause k = (p.status ||| cause) % 256 ^ regLastAbortCause.size ∧ t.mem = s.mem ∧ t.fields = s.fields ∧
    q.provOutTail = p.outTail ∧ q.provReqHead = p.reqHead ∧ q.working = p.seqs ∧ q.predWork = p.pred ∧ q.shapeWork = p.shape ∧ q.verified = [] ∧
    q.committed = p.committed

/-- EPOCH_WAIT_END, WEIGHT_LOAD_DONE, SPAN_DRAINED, REQUEST_ARRIVAL, PAIRING_NOTICE and PROPOSAL_TIMEOUT (R48, R50, R52, R54, R220, R221, R238, R383, R544): a new epoch
follows its wait, one higher for each cause, and the notices go out again; weights that match give the landing digests and let the span become READY, others fail the load; a drained span starts again at
step 0 with both copies rewritten; ARRIVAL moves past the oldest request; a notice for a new step is kept and a step may open; a verify step
whose proposal has not come opens late, with event 0x0A0D the first time; in a state that R54 does not list each is ignored with 0x0A07. -/
def Obligations.SpanEvents : Prop :=
  ∀ (s : State) (k : SpanId), let p := s.span k
    let ignores (n : Nat) : State := s.supEvent 0x0A07 (leBytes 1 k ++ leBytes 1 p.state.code ++ leBytes 1 n)
    (p.state = .paused → p.epochDue ≠ 0 → p.recovery = [] →
      let e := (p.epoch + p.epochDue) % 256
      exec (.epochWaitEnd k) s = .next ((((s.installEpoch k e).tellPeers k [k, 1, e]).noticesAgain k).settle)) ∧
    (p.state = .loading → exec (.weightLoadDone k .matches) s = .next
      ((((p.here.foldl State.landDigests s).modSpan k fun x => { x with weightsLoaded := true }).sendLoaded k).tryReady k)) ∧
    (p.state = .loading → ∃ code, exec (.weightLoadDone k .mismatch) s = .next (((s.supEvent code []).nextFree).setSpanState k .stopped)) ∧
    (p.state ≠ .loading → exec (.weightLoadDone k .matches) s = .next (ignores 2) ∧ exec (.weightLoadDone k .mismatch) s = .next (ignores 3)) ∧
    (p.state = .resetting →
      let t := (((s.discardSpan k).poke p.reqQueue (zeros 4)).poke p.outQueue (zeros 4)).newEpoch k 1
      exec (.spanDrained k) s = .next (((t.writeKeystone k (t.span k).record).showCommitted k).setSpanState k .loading)) ∧
    (p.state ≠ .resetting → exec (.spanDrained k) s = .next (ignores 13)) ∧
    (∀ n r, p.unarrived = n :: r →
      let t := (s.modSpan k fun q => { q with unarrived := r, arrival := (q.arrival + n) % 2 ^ 32 }).poke p.reqQueue
        (leBytes 4 ((p.arrival + n) % 2 ^ 32))
      (p.state = .ready ∨ p.state = .running → exec (.requestArrival k) s = .next (t.tryOpen k)) ∧
      (p.state ≠ .ready → p.state ≠ .running → exec (.requestArrival k) s =
        .next (t.supEvent 0x0A07 (leBytes 1 k ++ leBytes 1 (t.span k).state.code ++ leBytes 1 4)))) ∧
    (∀ (src : SpanId) (n : Word64), (s.pairOf k).map (·.2) = some src.val → p.draftActed < n.toNat → p.noticeStep ≤ n.toNat →
      (p.draftGone = false → exec (.pairingNotice k src n) s = .next ((s.modSpan k fun q =>
        { q with noticeStep := n.toNat, proposalLate := false, lateSeen := false, draftGone := false, seqs := if q.draftGone then q.seqs.map SeqEntry.disabled else q.seqs }).tryOpen k)) ∧
      (p.draftGone = true → exec (.pairingNotice k src n) s = .next (((s.modSpan k fun q =>
        { q with noticeStep := n.toNat, proposalLate := false, lateSeen := false, draftGone := false, seqs := if q.draftGone then q.seqs.map SeqEntry.disabled else q.seqs }).event
          (pierMaster p.anchor) 0x0A0E []).tryOpen k))) ∧
    (s.verifyNext k = true → s.turn k = false → p.step = none →
      let t := if p.lateSeen then s else s.event (pierMaster p.anchor) 0x0A0D []
      exec (.proposalTimeout k) s = .next ((t.modSpan k fun q =>
        { q with proposalLate := true, lateSeen := true, draftGone := q.draftGone || s.draftAway k
                 seqs := if s.draftAway k then q.seqs.map SeqEntry.disabled else q.seqs }).tryOpen k))
/-! ### Programs, verdicts and spin -/

/-- PROGRAM_LOAD, PROGMEM_SCRUB, PROGMEM_REWRITE_DONE and UNIT_COMPLETION (R88, R167, R168, R173): a checked image is loaded into both twins, a
refused one gives event 0x0A08 with the check and the index; the scrub counts a corrected word and reports a damaged one, which its
rewrite heals; outside a drawbridge a completed instruction frees its token and is counted, a vector operation that waited starts, and a pass
delivers its tile;
and program, indices and instruction index of the sequencer stay. -/
def Obligations.Programs : Prop :=
  ∀ (s : State) (f : FieldId),
    (∀ (image : BitVec 48) head l, s.mayLoad f = true → s.peek image.toNat 256 = some head → imageBytes head ≤ 262144 →
      s.peek image.toNat (imageBytes head) = some l →
      let t := s.noteImage image.toNat
      (imageRefusal l = none → exec (.programLoad f image) s = .next ((t.loadImage f (Image.ofBytes image.toNat l)).settle)) ∧
      (∀ n pc, imageRefusal l = some (n, pc) → exec (.programLoad f image) s =
        .next (((t.noteOutside image.toNat (imageBytes head)).supEvent 0x0A08 (leBytes 1 n ++ leBytes 2 pc)).settle))) ∧
    ((s.field f).seq.image ≠ none → exec (.progmemScrub f .clean) s = .next s ∧
      exec (.progmemScrub f .corrected) s = .next (s.bump regProgEccCorrected f 1) ∧
      exec (.progmemScrub f .uncorrectable) s = .next (s.wordFault f)) ∧
    ((s.field f).seq.damagedWord = true →
      exec (.progmemRewriteDone f) s = .next (s.modSeq f fun x => { x with damagedWord := false })) ∧
    ((s.field f).state ≠ .drawbridge → ∀ l,
      (∀ x, s.completes f .vector = some x → exec (.unitCompletion f ⟨.vector, l⟩) s = .next (((s.finish f x).bump regVecOps f 1).vectorNext f)) ∧
      (∀ x, s.completes f .turn = some x → exec (.unitCompletion f ⟨.turn, l⟩) s = .next (s.finish f x)) ∧
      (∀ x, s.completes f .fetch = some x → exec (.unitCompletion f ⟨.fetch, l⟩) s = .next (s.finish f x)) ∧
      (∀ x, s.completes f .mesh = some x → exec (.unitCompletion f ⟨.mesh, l⟩) s = .next (s.collDone f l x)) ∧
      (∀ x, s.completes f .array = some x → (s.field f).array.spin ≠ .preRamp →
        let t := ((s.finish f x).modArray f ArrayS.nextTile).bump regPasses f 1
        exec (.unitCompletion f ⟨.array, l⟩) s = .next (if t.arrayBusy f then t else t.arrayIdle f))) ∧
    (∀ u l, s.completes f u = none ∨ (s.field f).state = .drawbridge → exec (.unitCompletion f ⟨u, l⟩) s = .next s) ∧
    (∀ x l, s.wf = true → (s.field f).state ≠ .drawbridge → s.completes f .turn = some x →
      ∃ t, exec (.unitCompletion f ⟨.turn, l⟩) s = .next t ∧ s.onlySeq t f ∧
        (t.field f).seq.inFlight = (s.field f).seq.inFlight.erase x ∧ (t.field f).seq.pc = (s.field f).seq.pc ∧
        (t.field f).seq.idx = (s.field f).seq.idx ∧ (t.field f).seq.image = (s.field f).seq.image)

/-- CHECKSUM_VERDICT, VECTOR_VERDICT, SPIN_THRESHOLD_EXPIRY, SPIN_RAMP_END and PRE_RAMP_DONE (R90 to R97, R104, R105, R373, R375): a verdict compares the
check results that the array holds of its pass with what its cells delivered; a clean one only
leaves the list of those awaited; a failing one records its event, counts it and sets CHECKSUM in the pier's report; spinning becomes ramping
down, then rest, and a pre-ramp ends with the waiting pass admitted. -/
def Obligations.VerdictsAndSpin : Prop :=
  ∀ (s : State) (f : FieldId),
    (∀ (pass : BitVec 16) l v c, (s.field f).state ≠ .drawbridge →
      ((s.field f).seq.verdicts.find? fun v => !v.1 && v.2 % 65536 == pass.toNat) = some v →
      ((s.field f).array.checks.find? fun c => c.pass == v.2) = some c →
      let t := ((s.modSeq f fun x => { x with verdicts := x.verdicts.erase v }).modArray f fun x =>
        { x with checks := x.checks.filter (·.pass != v.2) }).bump regBoundedChecks f c.bounded
      let blocks := c.failing l
      (blocks = 0 → exec (.checksumVerdict f pass l) s = .next (t.wakeWaiting f)) ∧
      (blocks ≠ 0 →
        let u := ((t.event (pierMaster f) 0x0301 (s.stepLow f ++ leBytes 2 pass.toNat ++ leBytes 2 blocks)).bump regChecksumFails f
          1).setReg regLastFailBlocks f blocks
        exec (.checksumVerdict f pass l) s =
          .next ((((bitList 16 blocks).foldl (fun a b => a.chargePier f (blockUnit f b) 0x0301) (u.failed f 2)).settle).wakeWaiting f))) ∧
    (∀ (q : BitVec 16) l v, ((s.field f).seq.verdicts.find? fun v => v.1 && v.2 % 65536 == q.toNat) = some v →
      let t := s.modSeq f fun y => { y with verdicts := y.verdicts.erase v, wholeChecks := y.wholeChecks.erase v.2 }
      let g := laneGroup (s.profileOf f) v.2 ((s.field f).seq.reg 0)
      (l.any (LaneFault.seen ((s.field f).seq.wholeChecks.contains v.2) g) = false → exec (.vectorVerdict f q l) s = .next t) ∧
      (l.any (LaneFault.seen ((s.field f).seq.wholeChecks.contains v.2) g) = true → exec (.vectorVerdict f q l) s = .next
        (((((t.event (pierMaster f) 0x0302 (s.stepLow f ++ leBytes 2 q.toNat ++ leBytes 1 g)).bump regVecCheckFails f 1).failed f 2).chargePier f
          (pierUnit f) 0x0302).settle))) ∧
    ((s.field f).array.spin = .spinning → exec (.spinThresholdExpiry f) s = .next (s.spinTo f .ramping)) ∧
    ((s.field f).array.spin = .ramping → exec (.spinRampEnd f) s = .next (s.spinTo f .rest)) ∧
    ((s.field f).array.spin = .preRamp → exec (.preRampDone f) s = .next (s.spinTo f .rest)) ∧
    ((s.field f).array.spin = .rest → exec (.spinThresholdExpiry f) s = .next s ∧ exec (.spinRampEnd f) s = .next s ∧
      exec (.preRampDone f) s = .next s)

/-! ### Scratchpad banks -/

/-- BANK_ACCESS, ACCESS_AGED and SCRUB_READ (R138, R142, R144 to R146, R158): an ACTIVE bank performs the access, a WAKING one makes it wait, one
that is DRAINING, RETAIN or OFF refuses it with event 0x0811. -/
def Obligations.BankAccesses : Prop :=
  ∀ (s : State) (f : FieldId) (b : BankId) (row : BitVec 16) (m : BankMaster) (op : BankOp) (ecc : EccResult),
    let x : BankWait := ⟨m, op, row.toNat, ecc, false⟩
    let y := (s.field f).bank b
    let p := pierAddr b row.toNat
    let what := items1 [f.val, b.val] ++ leBytes 2 row.toNat
    (y.state = .active → y.locked.contains row.toNat = false → (opReads op = false ∨ ecc = .clean) →
      exec (.bankAccess f b row m op ecc) s = .next (s.bankPerform f b row.toNat op).settle) ∧
    (y.state = .active → y.locked.contains row.toNat = true →
      exec (.bankAccess f b row m op ecc) s = .next (s.bankNoData f b row.toNat m).settle) ∧
    (y.state = .active → y.locked.contains row.toNat = false → opReads op = true →
      exec (.bankAccess f b row m op .corrected) s = .next
        ((((s.event (pierMaster f) 0x0310 what).bump regEccCorrected f 1).charge (rowUnit f p) 0x0310).bankPerform f b row.toNat op).settle ∧
      exec (.bankAccess f b row m op .uncorrectable) s = .next
        ((((((s.event (pierMaster f) 0x0311 what).bump regEccUncorrected f 1).modBank f b fun z =>
          { z with locked := z.locked ++ [row.toNat] }).chargePier f (rowUnit f p) 0x0311).bankNoData f b row.toNat m).settle)) ∧
    (y.state = .waking → exec (.bankAccess f b row m op ecc) s = .next (s.modBank f b fun z => { z with queue := z.queue ++ [x] })) ∧
    (y.state = .retain ∨ y.state = .off ∨ y.state = .draining →
      exec (.bankAccess f b row m op ecc) s = .next (s.bankRefuses f b row.toNat m).settle) ∧
    exec (.accessAged f b) s = .next (s.modBank f b fun z => { z with queue := ageFirst z.queue }) ∧
    (y.state = .active →
      exec (.scrubRead f b ecc) s = .next ((s.bankDo f b ⟨.scrub, .read, y.scrubRow, ecc, false⟩).scrubNext f b).settle)

/-- The bytes an access writes (R138, R139), before the spans go on: a row write stores its 512 bytes at the row and nothing else; a narrow
write stores its bytes at its offset in the row; a read stores nothing. -/
def Obligations.BankStores : Prop :=
  ∀ (s : State) (f : FieldId) (b : BankId) (row : BitVec 16) (m : BankMaster) (l : List Byte) (off : BitVec 9), s.wf = true →
    ((s.field f).bank b).state = .active → ((s.field f).bank b).locked.contains row.toNat = false →
    (∃ t : State, exec (.bankAccess f b row m (.write l) .clean) s = .next t.settle ∧
      ∀ a, a < rowKey f (pierAddr b row.toNat) ∨ rowKey f (pierAddr b row.toNat) + 512 ≤ a → t.mem.byte a = s.mem.byte a) ∧
    (∃ t : State, exec (.bankAccess f b row m (.narrow off l) .clean) s = .next t.settle ∧
      ∀ a, a < rowKey f (pierAddr b row.toNat) + off.toNat ∨ rowKey f (pierAddr b row.toNat) + off.toNat + l.length ≤ a ∨
        rowKey f (pierAddr b row.toNat) + 512 ≤ a → t.mem.byte a = s.mem.byte a) ∧
    (∃ t : State, exec (.bankAccess f b row m .read .clean) s = .next t.settle ∧ t = s)

/-- RETAIN_SCRUB_DUE, BANK_DRAINED, BANK_WAKE_DONE and ROW_REPAIR (R147, R150, R157, R158, R160): a retain scrub wakes its bank; a drained bank
performs what waits and takes its target state; a woken bank performs what waited, and so do the packets and movers that met it WAKING; a repaired row of an ACTIVE bank
is refilled from its tower copy and unlocked. -/
def Obligations.BankStates : Prop :=
  ∀ (s : State) (f : FieldId) (b : BankId), let y := (s.field f).bank b
    (y.state = .retain → s.reg regRetainScrub f ≠ 0 →
      exec (.retainScrubDue f b) s = .next ((s.modBank f b fun z => { z with scrubbing := true, scrubRow := 0 }).bankTo f b .waking)) ∧
    (s.reg regRetainScrub f = 0 → exec (.retainScrubDue f b) s = .next s) ∧
    (y.state = .draining → let t := (s.bankServe f b).bankTo f b y.target
      exec (.bankDrained f b) s = .next (if y.heat then t else (t.bankSettle f b).offCheck f)) ∧
    (y.state = .waking → let t := (((s.bankTo f b .active).bankServe f b).bankSettle f b).offCheck f
      exec (.bankWakeDone f b) s = .next (t.sleepers.foldl State.awaken { t with sleepers := [] })) ∧
    (y.state ≠ .waking → exec (.bankWakeDone f b) s = .next s) ∧
    (∀ (row : BitVec 16) l, y.state = .active → y.locked.contains row.toNat = true → s.refill f b row.toNat = some l →
      exec (.rowRepair f b row true) s = .next (((((s.noteRefill f b row.toNat).setRow f (pierAddr b row.toNat) l).bump regRefills f 1).modBank f b fun z =>
        { z with locked := z.locked.filter (· != row.toNat) }).settle)) ∧
    (∀ row : BitVec 16, y.state = .active → y.locked.contains row.toNat = true → s.refill f b row.toNat = none →
      exec (.rowRepair f b row true) s = .next ((s.noteRefill f b row.toNat).settle))

/-! ### Digests, tests and reloads -/

/-- DIGEST_PASS_END, WEIGHT_REWRITE_DONE, SEGMENT_START, SEGMENT_END and COVERAGE_OVERDUE (R384, R385, R388 to R390): a pass ends only with every RESIDENT row of
the ACTIVE banks unlocked; a rewrite that matches releases its bank, a first mismatch is made again from the mirror half, and a second stops the
span with event 0x0322; one segment runs at a time and only where R388 allows one; a first failure holds the span for two reruns, of which a
lone failure is a soft error; an overdue coverage is recorded and counted. -/
def Obligations.DigestsAndTests : Prop :=
  ∀ (s : State) (f : FieldId) (b : BankId), let y := (s.field f).bank b
    (s.passMayEnd f = false → exec (.digestPassEnd f) s = .next s) ∧
    (s.passMayEnd f = true → residentBanks (s.regionTable f) = [] → exec (.digestPassEnd f) s = .next
      (((s.keepDigests f fun c => ((s.field f).bank c).state == .active).showDigests f).settle)) ∧
    (y.rewriting ≠ 0 → s.memberOf f = none → exec (.weightRewriteDone f b .matches) s = .next
      ((((s.badRegions f b).foldl (fun t i => t.reloadBank f i b true) s).modBank f b fun z => { z with rewriting := 0 }).settle)) ∧
    (y.rewriting = 1 → exec (.weightRewriteDone f b .mismatch) s = .next
      (((s.badRegions f b).foldl (fun t i => t.reloadBank f i b false) s).modBank f b fun z => { z with rewriting := 2 })) ∧
    (∀ k, y.rewriting = 2 → s.memberOf f = some k → exec (.weightRewriteDone f b .mismatch) s = .next
      ((((((s.badRegions f b).foldl (fun t i => t.reloadBank f i b false) s).modBank f b fun z => { z with rewriting := 0 }).event (pierMaster f)
        0x0322 []).stopSpan k).settle)) ∧
    (y.rewriting = 0 → ∀ r, exec (.weightRewriteDone f b r) s = .next s) ∧
    (∀ (unit : BitVec 8) (pattern : BitVec 32), s.tests.segment = none → s.tests.confirm = none → s.reg regTestsEnable 0 ≠ 0 →
      s.segmentAllowed f = true → 1 < unit.toNat →
      exec (.segmentStart f unit pattern) s = .next (s.modTests fun t => { t with segment := some (f, unit.toNat, pattern.toNat) })) ∧
    (∀ unit pattern, s.reg regTestsEnable 0 = 0 → exec (.segmentStart f unit pattern) s = .next s) ∧
    (∀ unit pattern charged, s.tests.segment = some (f.val, unit, pattern) → s.tests.confirm = none → 1 < unit →
      exec (.segmentEnd f true charged) s = .next
        ((((((s.modTests fun t => { t with segment := none }).bump regTestRuns f 1).cover f pattern true)).testPauseEnds f).settle)) ∧
    (∀ unit pattern charged, s.tests.segment = some (f.val, unit, pattern) → s.tests.confirm = some (f.val, 1, 1) → 1 < unit →
      exec (.segmentEnd f true charged) s = .next
        (((((s.modTests fun t => { t with segment := none }).bump regTestRuns f 1).cover f pattern true)).modTests fun t =>
          { t with confirm := some (f, 2, 1) })) ∧
    (∀ unit pattern charged, s.tests.segment = some (f.val, unit, pattern) → s.tests.confirm = some (f.val, 2, 1) → 1 < unit →
      exec (.segmentEnd f true charged) s = .next
        (((((((((s.modTests fun t => { t with segment := none }).bump regTestRuns f 1).cover f pattern true).modTests fun t =>
          { t with confirm := none }).fieldTested f)).supEvent 0x0334 []).testPauseEnds f).settle)) ∧
    (s.memberOf f = none → exec (.coverageOverdue f) s = .next ((s.supEvent 0x0331 []).bump regCoverageOverdue 0 1))

/-- DIAGNOSTIC_TEST_DONE, PROBE_TIMEOUT, SPARE_RELOAD_DONE and PLAN_RELOAD_DONE (R403, R404, R406, R409, R412, R413, R587): a located test that finds a
unit forgets the counts of the blocks and retires it; a test of a suspect counts for the spans that wait for it; an unanswered probe declares its
pier; a matching reload brings the span back at a new epoch, a mismatch stops it. -/
def Obligations.Recoveries : Prop :=
  ∀ (s : State),
    (∀ (u v : BitVec 32), s.faults.located.contains u.toNat = true → unitExists v.toNat = true →
      let t := (s.modFaults fun x => { x with located := x.located.erase u.toNat }).testsOver u.toNat
      let w := (t.unitSpans u.toNat).foldl State.testWaitOver t
      exec (.diagnosticTestDone u [v]) s = .next
        (((w.modFaults fun x => { x with blocks := x.blocks.filter (·.1 != u.toNat) }).retireDue v.toNat).settle) ∧
      exec (.diagnosticTestDone u []) s = .next ((w.foundNothing u.toNat).settle)) ∧
    (∀ (u : BitVec 32) (found : Findings), s.faults.located.contains u.toNat = false →
      exec (.diagnosticTestDone u found) s = .next ((((List.range 8).filter fun k => (s.span k).testing.contains u.toNat).foldl (fun t k =>
        t.suspectDone u.toNat ((found.map (·.toNat)).filter unitExists) k) s).settle)) ∧
    (∀ f : FieldId, s.faults.probes.contains f.val = true → exec (.probeTimeout f) s = .next
      (((s.modFaults fun x => { x with probes := x.probes.filter (· != f.val) }).declare (pierUnit f) 2 true).settle)) ∧
    (∀ (k : SpanId) l g, s.supervised = true → (s.span k).state = .paused → (s.span k).recovery = [.spare l] → (s.span k).spare = some g →
      exec (.spareReloadDone k .matches) s = .next (((s.spareTakes k l g).reloadRegions g true).recoveryDone k) ∧
      exec (.spareReloadDone k .mismatch) s = .next (((s.reloadRegions g false).stopSpan k).settle)) ∧
    (∀ (k : SpanId) l i head bytes, s.supervised = true → (s.span k).state = .paused → (s.span k).recovery = [.plan l i] →
      let u := s.noteImage (leAt (s.plan k i) 8 8)
      u.peek (leAt (s.plan k i) 8 8) 256 = some head → imageBytes head ≤ 262144 → u.peek (leAt (s.plan k i) 8 8) (imageBytes head) = some bytes →
      imageRefusal bytes = none →
      let t := u.installPlan k l i bytes
      exec (.planReloadDone k .matches) s = .next
        (((t.span k).here.foldl (fun u f => (u.reloadRegions f true).landDigests f) t).recoveryDone k) ∧
      exec (.planReloadDone k .mismatch) s = .next ((((t.span k).here.foldl (fun u f => u.reloadRegions f false) t).stopSpan k).settle))

/-! ### The mesh -/

/-- COLL_DATA, ARRIVE, RELEASE, ROWS, MCAST_DATA and SIGNAL (R51, R158, R184, R186, R216, R290, R306, R379 to R381, R395): a contribution of the open attempt whose digest
holds joins those of its collective, another records 0x0307 and sets DIGEST; the arrivals of a barrier add up, and the last sends RELEASE to
every member; a release completes the SYNC that waits for it; rows land and count on their channel, at a WAKING bank once it is awake; a multicast window also stops a test
segment and is acknowledged; a signal of the open attempt counts and is acknowledged, another is dropped and counted.  `s` is the state once the packet
has come to its unit. -/
def Obligations.Arrivals : Prop :=
  ∀ (u : State) (p : Pkt) (f : FieldId) (n : Nat), u.delivers p = true → let s := u.hauled p n
    let k := p.span.toNat
    s.stale p = false →
    (∀ (c : CollHdr) l, n = flitsFor l.length → s.resetting k = false → s.openStep f = some (k, p.step.toNat, p.attempt.toNat) →
      let r := s.digestR k p.step.toNat c.group.toNat c.seq.toNat
      (digestOf r c.row.toNat c.words l = c.digest.toNat → exec (.collData p f c l) u = .next (s.modSeq f fun q =>
        { q with colls := q.colls ++ [⟨c.group.toNat, c.seq.toNat, c.sender, c.rank.toNat, c.row.toNat, c.words, c.lossy || c.nonfin, l⟩] })) ∧
      (digestOf r c.row.toNat c.words l ≠ c.digest.toNat → exec (.collData p f c l) u = .next
        ((((((s.event (pierMaster f) 0x0307 (leBytes 1 c.group.toNat ++ leBytes 1 0 ++ leBytes 2 c.seq.toNat ++ leBytes 1 c.sender ++
          leBytes 1 k)).bump regDigestFails k 1).failed f 8).chargePier f (pathUnit c.sender f) 0x0307).settle)))) ∧
    (∀ (g : BitVec 8) (q c : BitVec 16), n = 1 → s.resetting k = false → (s.span k).step ≠ none → (s.span k).committed + 1 = p.step.toNat →
      (s.span k).attempt = p.attempt.toNat →
      let rest := (s.span k).barriers.filter fun b => !(b.1 == g.toNat && b.2.1 == q.toNat)
      let total := (((s.span k).barriers.find? fun b => b.1 == g.toNat && b.2.1 == q.toNat).map (·.2.2)).getD 0 + c.toNat
      (total < s.barrierSize k g.toNat → exec (.arrive p g q c) u = .next (s.modSpan k fun x =>
        { x with barriers := (g.toNat, q.toNat, total) :: rest })) ∧
      (∀ root ms, s.groupOf k false (if g.toNat = 0xFF then 0 else g.toNat) = some (root, ms) → s.barrierSize k g.toNat ≤ total →
        exec (.arrive p g q c) u = .next ((s.modSpan k fun x => { x with barriers := rest }).toMembers
          (pierMaster ((s.span k).members.getD root (0, 0)).2) tyRelease k p.step.toNat p.attempt.toNat
          (ms.filterMap fun m => (s.span k).members[m]?) [g.toNat, q.toNat]))) ∧
    (∀ (g : BitVec 8) (q : BitVec 16) t, n = 1 → s.openStep f = some (k, p.step.toNat, p.attempt.toNat) →
      (s.field f).seq.waiting = [.sync g.toNat q.toNat t] →
      exec (.release p f g q) u = .next ((s.modSeq f fun x => x.complete (.sync g.toNat q.toNat t)).wakeWaiting f)) ∧
    (∀ chan : Idx16,
      (∀ (r : BitVec 22) l, n = flitsFor l.length → s.accessCode p.master.toNat k .w (rowKey f r.toNat) l.length = 0 →
        (s.windowAsleep (rowKey f r.toNat) l.length = false →
          exec (.rows p f chan r l) u = .next ((s.putRows f r.toNat l).countRows f chan ((l.length + 511) / 512)) ∧
          ∀ g : Fin 32, exec (.mcastData p f g chan r l) u =
            .next ((((s.putRows f r.toNat l).dropSegment f).countRows f chan ((l.length + 511) / 512)).answer p tyMcastAck 0 [g.val])) ∧
        (s.windowAsleep (rowKey f r.toNat) l.length = true →
          exec (.rows p f chan r l) u = .next { s with sleepers := s.sleepers ++ [.rows p f chan r l] })) ∧
      (n = 1 → s.reachable f = true → s.resetting k = false → (s.field f).power.state.nack = 0 →
        (s.openStep f = some (k, p.step.toNat, p.attempt.toNat) → exec (.signal p f chan) u = .next (((s.modSeq f fun q =>
          { q with sigCount := q.sigCount.set chan (q.sigCount.getD chan 0 + 1) }).wakeWaiting f).answer p tyAck 0 [])) ∧
        (s.openStep f ≠ some (k, p.step.toNat, p.attempt.toNat) → exec (.signal p f chan) u = .next (s.bump regSignalDrops f 1))))

/-- R34, R51, R285, R287 and R289: every packet the device sends for a span carries the span's number and epoch; at a pier, a mover channel, a field processor or a
port engine, a packet of a span whose epoch is not the span's is dropped without NACK and counted, and nothing else happens, so that a stale
report influences no decision; a damaged packet reaches nothing: the router that finds it drops it; and a packet of a route generation that is no longer in
force does nothing. -/
def Obligations.StalePackets : Prop :=
  ∀ (s : State),
    (∀ m ty (k : SpanId) n a d st data, (s.send m ty k n a d st data).outbox =
      .packet (s.head m ty k 0 false d) ty k (s.span k).epoch n a d st data :: s.outbox) ∧
    (∀ (p : Pkt) (f : FieldId), s.delivers p = true → p.span.toNat < 8 → p.epoch.toNat ≠ (s.span p.span.toNat).epoch →
      let drops (n : Nat) : Host.Outcome State Fault Refusal := .next ((s.hauled p n).bump regStaleDrops p.span.toNat 1)
      (∀ kind c st w, exec (.report p kind c st w) s = drops 1) ∧ (∀ d w, exec (.advance p d w) s = drops 1) ∧
      (exec (.abort p f) s = drops 1) ∧ (∀ w, exec (.openMsg p f w) s = drops 1) ∧ (exec (.slip p f) s = drops 1) ∧
      (∀ c l, exec (.collData p f c l) s = drops (flitsFor l.length)) ∧ (∀ g q n, exec (.arrive p g q n) s = drops 1) ∧
      (∀ g q, exec (.release p f g q) s = drops 1) ∧ (∀ c, exec (.signal p f c) s = drops 1) ∧
      (∀ c r l, exec (.rows p f c r l) s = drops (flitsFor l.length)) ∧ (∀ g c r l, exec (.mcastData p f g c r l) s = drops (flitsFor l.length)) ∧
      (∀ l, exec (.readData p l) s = drops (flitsFor l.length)) ∧ (∀ w, exec (.ack p w) s = drops 1) ∧ (∀ c, exec (.nack p c) s = drops 1) ∧
      (∀ g, exec (.mcastAck p g f) s = drops 1 ∧ exec (.creditReset p g f) s = drops 1) ∧
      (∀ c, exec (.go p f c) s = drops 1) ∧ (∀ c, exec (.stop p f c) s = drops 1) ∧ (∀ c, exec (.clear p f c) s = drops 1) ∧
      (∀ c, exec (.armShadow p f c) s = drops 1) ∧ (∀ c b o l, exec (.registerSetWrite p f c b o l) s = drops 1) ∧
      (∀ o l, exec (.mailboxWrite p f o l) s = drops 1) ∧
      (∀ a : BitVec 48, addrRegion a.toNat = 8 ∨ addrRegion a.toNat = 12 →
        (∀ n, exec (.read p a n) s = drops 1) ∧ (∀ op x y, exec (.atomic p a op x y) s = drops 1) ∧
        (∀ l, exec (.smallWrite p a l) s = drops 1) ∧ (∀ l, exec (.write p a l) s = drops (flitsFor l.length)) ∧ exec (.readback p a) s = drops 1)) ∧
    (∀ (p : Pkt) r, p.damage = some r →
      (∀ kind c st w, exec (.report p kind c st w) s = .next (s.dropDamaged p r)) ∧ (∀ a n, exec (.read p a n) s = .next (s.dropDamaged p r)) ∧
      (∀ a l, exec (.write p a l) s = .next (s.dropDamaged p r)) ∧ (∀ f c r' l, exec (.rows p f c r' l) s = .next (s.dropDamaged p r)) ∧
      (∀ l, exec (.readData p l) s = .next (s.dropDamaged p r))) ∧
    (∀ p : Pkt, p.damage = none → p.gen ≠ s.mesh.routeGen →
      (∀ kind c st w, exec (.report p kind c st w) s = .next s) ∧ (∀ a n, exec (.read p a n) s = .next s) ∧ (∀ a l, exec (.write p a l) s = .next s))

/-- READ, ATOMIC, SMALL_WRITE, WRITE and READBACK on memory (R16, R139, R158, R283, R297): a permitted access is performed and answered by READ_DATA,
by ACK with the old value, by ACK, not at all, or by ACK; at a WAKING bank it waits; a refused one records its refusal and answers NACK with its code.
`s` is the state once the packet has come to its target. -/
def Obligations.MemoryRequests : Prop :=
  ∀ (u : State) (p : Pkt) (addr : BitVec 48) (l : List Byte) (n : Nat), u.delivers p = true → let s := u.hauled p n
    let a := addr.toNat
    addrRegion a ≠ 12 → (addrRegion a = 8 → s.stale p = false) → let m := p.master.toNat; let k := p.span.toNat
    (∀ len : BitVec 17, n = 1 →
      (s.accessCode m k .r a len.toNat = 0 → exec (.read p addr len) u =
        .next (if s.windowAsleep a len.toNat then { s with sleepers := s.sleepers ++ [.read p addr len] }
          else (s.readNotes .r a len.toNat).deliver p (s.peekAny a len.toNat))) ∧
      (∀ c, c ≠ 0 → s.accessCode m k .r a len.toNat = c →
        exec (.read p addr len) u = .next ((s.refused m k .r a len.toNat c).answer p tyNack c []))) ∧
    (n = 1 → s.accessCode m k .a a 8 = 0 → s.windowAsleep a 8 = false → ∀ op x y, let old := ofLe (s.peekAny a 8)
      exec (.atomic p addr op x y) u =
        .next (((s.readNotes .a a 8).writeAt a (leBytes 8 (atomicNew op (BitVec.ofNat 64 old) x y).toNat)).answer p tyAck 0 [old])) ∧
    (s.accessCode m k .w a l.length = 0 → s.windowAsleep a l.length = false →
      (n = 1 → exec (.smallWrite p addr l) u = .next ((s.writeAt a l).answer p tyAck 0 [])) ∧
      (n = flitsFor l.length → exec (.write p addr l) u = .next (s.writeAt a l))) ∧
    (∀ c, n = flitsFor l.length → c ≠ 0 → s.accessCode m k .w a l.length = c →
      exec (.write p addr l) u = .next ((s.refused m k .w a l.length c).answer p tyNack c [])) ∧
    (n = 1 → s.accessCode m k .w (a / 64 * 64) 64 = 0 → addrRegion (a / 64 * 64) ≠ 12 → (addrRegion (a / 64 * 64) = 8 → s.stale p = false) →
      s.windowAsleep (a / 64 * 64) 64 = false → exec (.readback p addr) u = .next (s.answer p tyAck 0 []))

/-- What a permitted write of a scratchpad window leaves in memory (R15, R140): the bytes given at the address given, every other byte as
before. -/
def Obligations.WindowStores : Prop :=
  ∀ (s : State) (p : Pkt) (addr : BitVec 48) (l : List Byte), s.delivers p = true → let a := addr.toNat
    let u := s.hauled p 1
    addrRegion a = 8 → u.stale p = false → u.accessCode p.master.toNat p.span.toNat .w a l.length = 0 → u.windowAsleep a l.length = false →
    ∃ t, exec (.smallWrite p addr l) s = .next t ∧
      (∀ i (h : i < l.length), t.mem.byte (a % 2 ^ 48 + i) = l[i]) ∧
      (∀ x, x < a % 2 ^ 48 ∨ a % 2 ^ 48 + l.length ≤ x → t.mem.byte x = s.mem.byte x)

/-- READ_DATA, ACK, NACK, RESPONSE_TIMEOUT, MCAST_ACK, CREDIT_RESET and MCAST_TARGET_TIMEOUT (R158, R173, R182, R284, R295, R297, R307 to R310): a response ends the
request it answers; read data is written at the request's destination, at a WAKING bank once it is awake; a failed request sets the bit of its code; a lost one records event
0x0605 and is counted; an acknowledgement of a multicast gives one credit back; the third re-send, or 50 µs without an answer, drops the
target.  `s` is the state once the packet has come to its unit. -/
def Obligations.Responses : Prop :=
  ∀ (u : State) (p : Pkt) (n : Nat), u.delivers p = true → let s := u.hauled p n
    s.stale p = false →
    (s.outstanding p.master.toNat p.tag.toNat = none → (∀ l, n = flitsFor l.length → exec (.readData p l) u = .next s) ∧
      (∀ w, n = 1 → exec (.ack p w) u = .next s)) ∧
    (∀ o, s.outstanding p.master.toNat p.tag.toNat = some o →
      (∀ d l, n = flitsFor l.length → o.dest = some d →
        let rows := rowsFrom d (((l.take o.bytes).length + 511) / 512)
        exec (.readData p l) u = .next (if s.rowsAsleep o.field rows then { s with sleepers := s.sleepers ++ [.readData p l] }
          else (s.withRows o.field [d] rows fun t => t.putRows o.field d (l.take o.bytes)).readLanded o (l.take o.bytes).length)) ∧
      (∀ w, n = 1 → o.serial ≠ 0 →
        let t := s.endRequest o.master o.tag
        exec (.ack p w) u = .next ((if o.write then t.modSeq o.field fun q => { q with writesOpen := q.writesOpen - 1 } else t).responded o.field
          o.serial)) ∧
      (∀ c, n = 1 → o.master / 256 ≠ 5 → o.ahead = none →
        let t := s.endRequest p.master.toNat p.tag.toNat
        exec (.nack p c) u = .next (((if o.write then t.modSeq o.field fun q => { q with writesOpen := q.writesOpen - 1 } else t).failed o.field
          (nackBit c.toNat)).settle)) ∧
      (∀ c x, n = 1 → o.master / 256 ≠ 5 → o.ahead = some x → exec (.nack p c) u = .next
        (((s.endRequest p.master.toNat p.tag.toNat).dropAhead o.field fun a => a.tags.contains p.tag.toNat).settle)) ∧
      exec (.responseTimeout p) s = .next
        ((((s.event p.master.toNat 0x0605 []).bump regLostResponses 0 1).requestFailed p.master.toNat p.tag.toNat nackLost).settle)) ∧
    (∀ (g : Fin 32) (f : FieldId), n = 1 → let k := p.span.toNat
      (s.mcastOf k g f = none → exec (.mcastAck p g f) u = .next s ∧ exec (.creditReset p g f) u = .next s) ∧
      (∀ m, s.mcastOf k g f = some m →
        (let new := { m with targets := m.targets.map fun t => if t.1 = f.val then (t.1, t.2.1 + 1, t.2.2.1 + 1, 0) else t }
         exec (.mcastAck p g f) u = .next (((s.modSpan k fun p => { p with mcasts := p.mcasts.map fun x => if x = m then new else x }).mcastGo k
          new).mcastCheck k g m.root)) ∧
        (∀ a b c, m.targets.find? (·.1 == f.val) = some (f.val, a, b, c) → 3 ≤ c →
          exec (.creditReset p g f) u = .next (s.mcastDrop k g m.root f).settle))) ∧
    (∀ (k : SpanId) (g : Fin 32) (f : FieldId),
      (s.mcastOf k g f = none → exec (.mcastTargetTimeout k g f) s = .next s) ∧
      (∀ m, s.mcastOf k g f = some m → exec (.mcastTargetTimeout k g f) s = .next (s.mcastDrop k g m.root f).settle))

/-- LINK_REPLAY, LINK_REPAIR_DONE, ROUTE_HOLD_END, a packet of a reserved type, and the timetable commands (R283, R299, R300, R304, R311 to R315): a replay is recorded
and counted; a link repaired within its spares is ONLINE again, another retires; the hold's end brings the new route generation with its event;
a good timetable is loaded while the span loads or is paused, its window opens and ends; a slot whose packet is not ready slips every pier of
the span, and the first SLIP of an attempt frees the reservations. -/
def Obligations.LinksAndTimetables : Prop :=
  ∀ (s : State) (r : RouterId) (d : LinkDir),
    (∀ ws failed, s.linkState r d = .online →
      let t := ((s.unitEvent (routerHolder r) 0x0601 []).bump regReplays r 1).modRouter r fun x =>
        { x with replays := x.replays.set d (if failed = true then (s.router r).replays.getD d 0 + 1 else 0)
                 wires := x.wires ++ ws.map fun w => (d.val, w.toNat, s.opSeconds) }
      (t.router r).marked s.opSeconds d = [] → (failed = false ∨ (s.router r).replays.getD d 0 < 3) →
      exec (.linkReplay r d ws failed) s = .next t) ∧
    (∀ ws failed, s.linkState r d ≠ .online → exec (.linkReplay r d ws failed) s = .next s) ∧
    (s.linkState r d = .repairing →
      exec (.linkRepairDone r d false) s = .next (s.retireLink r d) ∧
      ((s.router r).marked s.opSeconds d = [] → exec (.linkRepairDone r d true) s = .next
        (((s.modRouter r fun x => { x with replays := x.replays.set d 0, wires := x.wires.filter fun o => !(o.1 == d.val && ([] : List Nat).contains
          o.2.1) }).setLinkState r d .online).unitEvent (routerHolder r) 0x0602 []))) ∧
    (s.mesh.holding = true →
      let t := ((s.modMesh fun m => { m with routeGen := !m.routeGen, holding := false, routers := m.routers.map fun x =>
        { x with table := x.next, next := [] } }).supEvent 0x0604 []).bump regRouteChanges 0 1
      exec .routeHoldEnd s = .next
        (((t.setReg regRouting 0 (boolNat s.detouring)).setReg regMaxHops 0 s.detours.2).setReg regBarrierBound 0 (barrierBound s.detours.2))) ∧
    exec .reservedPacketType s = .next (s.supEvent 0x0606 []) ∧
    (∀ k : SpanId,
      (∀ head l, (s.span k).state = .loading ∨ (s.span k).state = .paused → s.peek (s.reg regTimetableAddr k) 16 = some head →
        leAt head 8 4 ≤ 2 ^ 21 → s.peek (s.reg regTimetableAddr k) (leAt head 8 4) = some l → s.timetableOk k l = true →
        exec (.timetableLoad k) s = .next (((s.noteRead (s.reg regTimetableAddr k) (max 16 (leAt head 8 4))).modSpan k fun p =>
          { p with timetable := { Timetable.reset with period := leAt l 4 2, loaded := true } }).settle)) ∧
      ((s.span k).timetable.window ≠ none → (s.span k).timetable.opened = false → exec (.timetableWindowStart k) s =
        .next (s.modSpan k fun p => { p with timetable := { p.timetable with opened := true, slot := 0 } })) ∧
      ((s.span k).timetable.opened = true → exec (.timetableWindowEnd k) s =
        .next (s.modSpan k fun p => { p with timetable := { p.timetable with window := none, opened := false } })) ∧
      (∀ (f : FieldId) n a, s.openStep f = some (k.val, n, a) → (s.span k).timetable.opened = true → (s.span k).timetable.slipped = false →
        ((s.field f).state ≠ .drawbridge → exec (.timetableSlot f true) s =
          .next (s.modSpan k fun p => { p with timetable := { p.timetable with slot := p.timetable.slot + 1 } })) ∧
        exec (.timetableSlot f false) s = .next (s.toMembers (pierMaster f) tySlip k n a (s.span k).members [])) ∧
      (∀ (p : Pkt) (f : FieldId), p.span.toNat = k.val → s.delivers p = true → let t := s.hauled p 1
        t.stale p = false → t.openStep f = some (k.val, p.step.toNat, p.attempt.toNat) →
        (t.span k).timetable.window ≠ none → (t.span k).timetable.slipped = false →
        exec (.slip p f) s = .next (((t.modSpan k fun q => { q with timetable := { q.timetable with slipped := true } }).event
          (pierMaster (t.span k).anchor) 0x0A10 []).bump regTimetableSlips k 1)))

/-! ### Movers -/

/-- GO, ARM_SHADOW, STOP, CLEAR, register-set and mailbox writes of a packet that is delivered (R51, R321, R322, R325, R342, R347, R364): with the configure
right each performs its command and is acknowledged, or is refused with ACCESS; without it the write is a violation.  `t` is the state after the
packet's journey. -/
def Obligations.MoverCommands : Prop :=
  ∀ (s : State) (p : Pkt) (f : FieldId) (ch : Idx16), s.delivers p = true → let t := s.hauled p 1
    (t.stale p = false → t.reachable f = true →
      (t.granted (targetMover f) p.master.toNat p.span.toNat .c [ch] = true →
        exec (.go p f ch) s = .next ((moverGo f ch t).answer p tyAck 0 []) ∧
        exec (.stop p f ch) s = .next ((moverStop f ch t).answer p tyAck 0 []) ∧
        exec (.clear p f ch) s = .next ((moverClear f ch t).answer p tyAck 0 []) ∧
        (t.moverSetOk f ch ((t.field f).mover ch).shadow = true → exec (.armShadow p f ch) s =
          .next ((t.modMover f ch fun x => { x with shadowValid := true }).answer p tyAck 0 [])) ∧
        (t.moverSetOk f ch ((t.field f).mover ch).shadow = false → exec (.armShadow p f ch) s = .next (t.answer p tyNack nackAccess [])) ∧
        (∀ b o l v, moverSetWrite f ch b o.toNat l t = some v → exec (.registerSetWrite p f ch b o l) s = .next (v.answer p tyAck 0 [])) ∧
        (∀ b o l, moverSetWrite f ch b o.toNat l t = none → exec (.registerSetWrite p f ch b o l) s = .next (t.answer p tyNack nackAccess []))) ∧
      (t.granted (targetMover f) p.master.toNat p.span.toNat .c [ch] = false → ∀ i, i = .go p f ch ∨ i = .armShadow p f ch ∨ i = .stop p f ch ∨
        i = .clear p f ch → exec i s =
          .next ((t.violation (targetMover f) p.master.toNat p.span.toNat .c (windowOffset ch 0x80)).answer p tyNack nackAccess []))) ∧
    (t.stale p = true → ∀ i, i = .go p f ch ∨ i = .armShadow p f ch ∨ i = .stop p f ch ∨ i = .clear p f ch → exec i s = .next (t.dropStale p)) ∧
    (∀ o l, exec (.mailboxWrite p f o l) s = .next (t.mailboxWrite p false f o.toNat l))

/-- The states of a channel (R325, R333, R335, R338, R340, R342, R343): GO checks the ACTIVE set of an IDLE channel, STOP takes an ARMED one to IDLE and one at
work to STOPPING, CLEAR takes one out of ERROR, and in every other state nothing; MOVER_TIMER, MOVER_RESUME, MOVER_LAST_WRITE, MOVER_COMPLETE and
MOVER_STOPPED move their channel on from the one state they belong to; a last write to a WAKING bank waits for the bank (R158). -/
def Obligations.MoverStates : Prop :=
  ∀ (s : State) (f : FieldId) (ch : Idx16), let m := (s.field f).mover ch
    (m.state = .armed → m.active.trigger = 1 → (s.field f).clock.errors ≠ [] → exec (.moverTimer f ch) s = .next (s.moverStart f ch false)) ∧
    (m.state = .preempted → (∀ x ∈ (s.field f).movers, x.state = .running ∨ x.state = .preempted → x.active.prio ≤ m.active.prio) →
      exec (.moverResume f ch) s = .next (s.modMover f ch fun x => { x with state := .running })) ∧
    (m.state = .running → s.moverAsleep m.active = false → exec (.moverLastWrite f ch) s = .next (moverLast f ch s)) ∧
    (m.state = .running → s.moverAsleep m.active = true → exec (.moverLastWrite f ch) s = .next (s.sleep (.moverLastWrite f ch))) ∧
    (m.state = .completing → m.active.irq = false → exec (.moverComplete f ch) s = .next
      (((((s.modMover f ch fun x => { x with doneCount := (x.doneCount + 1) % 2 ^ 32, lastUser := x.active.user, endpoints := []
                                             attempt := none }).bump regMoverTransfers f 1).moverEvents f fun x =>
        x.trigger == 2 && x.trigArg == ch.val)).moverReload f ch)) ∧
    (m.state = .completing → m.active.irq = true → exec (.moverComplete f ch) s = .next
      ((((((s.modMover f ch fun x => { x with doneCount := (x.doneCount + 1) % 2 ^ 32, lastUser := x.active.user, endpoints := []
                                              attempt := none }).bump regMoverTransfers f 1).interrupt f 1 [ch.val, m.active.user]).moverEvents f
        fun x => x.trigger == 2 && x.trigArg == ch.val)).moverReload f ch)) ∧
    (m.state = .stopping → ∀ t, t = (if m.bytesDone = moverBytes m.active then s else s.moverTorn f ch) →
      (m.stopFault = true → exec (.moverStopped f ch) s = .next (t.moverError f ch m.errCode m.errAddr)) ∧
      (m.stopFault = false → m.attempt = none → exec (.moverStopped f ch) s = .next (t.modMover f ch fun x => { x with state := .idle })) ∧
      (m.stopFault = false → m.attempt ≠ none → exec (.moverStopped f ch) s =
        .next (t.modMover f ch fun x => { x with state := .armed, pending := 0, attempt := none }))) ∧
    (m.state ≠ .idle → moverGo f ch s = s) ∧
    (m.state = .idle → s.moverSetOk f ch m.active = false → moverGo f ch s = s.moverError f ch 16 0) ∧
    (m.state = .armed → moverStop f ch s = s.modMover f ch fun x => { x with state := .idle }) ∧
    (m.state = .running ∨ m.state = .preempted → moverStop f ch s = s.modMover f ch fun x =>
      { x with state := .stopping, stopFault := false, attempt := none }) ∧
    (m.state = .idle ∨ m.state = .error ∨ m.state = .stopping ∨ m.state = .completing → moverStop f ch s = s) ∧
    (m.state ≠ .error → moverClear f ch s = s) ∧
    (∀ b o l t, moverSetWrite f ch b o l s = some t → b = false → (m.state = .idle ∨ m.state = .error) ∧
      t = s.modMover f ch fun x => { x with active := .ofBytes (splice m.active.toBytes o l) }) ∧
    (∀ o l, m.shadowValid = true → moverSetWrite f ch true o l s = none)
/-! ### Recorder, references and timebases -/

/-- EVENT_NOTICE, FLASH_PAGE_WRITE and PAGE_BUCKET_REFILL (R422, R426, R431): the oldest notice of a source is accepted once the recorder has
started; the oldest pending records, at most 128, become a page while the bucket allows one; the bucket holds at most 32. -/
def Obligations.RecorderEvents : Prop :=
  ∀ (s : State),
    (∀ (src : BitVec 12) n, 2 ≤ s.boot.step → (s.field s.supervisorField).state ≠ .dark → (s.field s.supervisorField).state ≠ .retired →
      s.recorder.notices.find? (·.source == src.toNat) = some n →
      let t := (s.modRec fun r => { r with notices := r.notices.erase n }).record n.source n.code n.data
      (n.code ≠ 0x0B05 → exec (.eventNotice src) s = .next (t.unitReports n.unit)) ∧
      (n.code = 0x0B05 → exec (.eventNotice src) s = .next ((t.bump regLostRecords 0 (leAt n.data 0 4)).unitReports n.unit))) ∧
    (∀ src : BitVec 12, s.recorder.notices.find? (·.source == src.toNat) = none → exec (.eventNotice src) s = .next s) ∧
    (let r := s.recorder
     r.pendingN ≠ 0 → r.bucket ≠ 0 → s.boot.powered = true → r.lostSince = 0 →
      let page := (r.die.drop (r.die.length - r.pendingN)).take 128
      exec .flashPageWrite s = .next (s.modRec fun x => { x with flash := (x.flash ++ [page]).drop (x.flash.length + 1 - 128)
                                                                 pendingN := x.pendingN - page.length, bucket := x.bucket - 1, lostSince := 0 })) ∧
    (s.recorder.pendingN = 0 ∨ s.recorder.bucket = 0 ∨ s.boot.powered = false → exec .flashPageWrite s = .next s) ∧
    (s.boot.powered = true → exec .pageBucketRefill s = .next (s.modRec fun r => { r with bucket := min 32 (r.bucket + 1) }))

/-- What the supervisor's acceptance of an event adds (R419, R422, R423, R425): one record with the next SEQ, the operating time, the power
cycles, the source, the code and eight bytes of data; no earlier record changes. -/
def Obligations.EventAccepted : Prop :=
  ∀ (s : State) (source code : Nat) (data : List Byte), s.recorder.ceiling ≠ none →
    let t := s.record source code data
    t.recorder.nextSeq = s.recorder.nextSeq + 1 ∧ t.recorder.flash = s.recorder.flash ∧
    t.recorder.die.getLast? = some ⟨s.recorder.nextSeq, s.opSeconds, s.reg regPowerCycles 0, source, code, padTo 8 data⟩ ∧
    (s.recorder.die.length < 4096 → t.recorder.die.dropLast = s.recorder.die) ∧ t.mem = s.mem ∧ t.fields = s.fields ∧ t.spans = s.spans

/-- REF_COPY_BAD, REF_COPY_GOOD and REF_REVERT (R434 to R436): losing the selected copy takes the other one; losing every copy of both
references enters holdover with event 0x0203; a good copy ends holdover with 0x0204; reversion switches back to the preferred reference. -/
def Obligations.References : Prop :=
  ∀ (s : State) (c : RefCopy), let i := copyPlace c
    (s.clocks.good.getD i false = false → exec (.refCopyBad c) s = .next s) ∧
    (s.clocks.good.getD i false = true →
      let s1 := s.modClocks fun x => { x with good := x.good.set i false }
      (s1.clocks.strip c.b = c.backup → s1.clocks.good.getD (copyPlace ⟨c.b, !c.backup⟩) false = true → c.backup = true →
        exec (.refCopyBad c) s = .next (s1.modClocks fun x => x.setStrip c.b false).reselect) ∧
      (s1.clocks.strip c.b = c.backup → s1.clocks.good.getD (copyPlace ⟨c.b, !c.backup⟩) false = true → c.backup = false →
        exec (.refCopyBad c) s = .next (((s1.modClocks fun x => x.setStrip c.b true).supEvent 0x0201 (leBytes 1 (boolNat c.b) ++ leBytes 1 1)).reselect)) ∧
      (s1.clocks.strip c.b ≠ c.backup → exec (.refCopyBad c) s = .next s1.reselect) ∧
      (s1.clocks.good.getD (copyPlace ⟨c.b, !c.backup⟩) false = false → exec (.refCopyBad c) s = .next s1.reselect)) ∧
    (∀ b, s.clocks.refState = .locked b → s.clocks.refGood b = false → s.clocks.refGood (!b) = false →
      s.reselect = ((s.modClocks fun x => { x with refState := .holdover, timetableNoted := false }).relocksLost).supEvent 0x0203 []) ∧
    (∀ b, s.clocks.refState = .locked b → s.clocks.refGood b = false → s.clocks.refGood (!b) = true → s.reselect = s.switchRef (!b)) ∧
    (s.clocks.refState ≠ .holdover → s.clocks.good.getD (copyPlace ⟨c.b, !c.backup⟩) false = true →
      exec (.refCopyGood c) s = .next (s.modClocks fun x => { x with good := x.good.set i true })) ∧
    (s.clocks.refState = .holdover → ∃ (b : Bool) (t : State), exec (.refCopyGood c) s = .next (t.supEvent 0x0204 []) ∧ t.clocks.refState = .locked b) ∧
    (let pref := s.reg regRefPreferred 0 == 1
     s.reg regRefRevert 0 = 1 → s.clocks.refState = .locked (!pref) → s.clocks.refGood pref = true →
      exec .refRevert s = .next (s.switchRef pref))

/-- DRAWBRIDGE_START, DRAWBRIDGE_END, PLL_LOCK_TIMEOUT, DROOP_DETECT, STRETCH_END, BEACON, BEACON_NOTICE and the PTP messages (R88, R441 to R446, R448 to R450,
R453 to R455): a drawbridge stops its field and returns it to the state it left, counted and with its longest duration kept; a failed lock restores the point
and charges the field; a beacon disciplines its field's clock, an error of 100 ns or more after the first records 0x0208; PTP's announce, delay and
loss change the servo alone; a sync within the limits slews device time. -/
def Obligations.FieldClocks : Prop :=
  ∀ (s : State) (f : FieldId), let x := s.field f
    (∀ p, x.state = .ready ∨ x.state = .serving → s.drawForced f = false → x.power.drawTo = some p → s.drawAllowed f p = true →
      let t := (s.modField f fun y => { y with saved := y.state }).modClock f fun c =>
        { c with forced := false, toPoint := some p, relocking := daOf (s.pointMhz f p) * s.pointMhz f p * 1000 != x.clock.vco }
      exec (.drawbridgeStart f) s = .next ((t.spinTo f .rest).setFieldState f .drawbridge)) ∧
    (x.state = .ready ∨ x.state = .serving → s.drawForced f = false → (∀ p, x.power.drawTo = some p → s.drawAllowed f p = false) →
      exec (.drawbridgeStart f) s = .next s) ∧
    (x.state ≠ .ready → x.state ≠ .serving → exec (.drawbridgeStart f) s = .next s) ∧
    (∀ ns : BitVec 16, x.state = .drawbridge → x.clock.forced = false →
      let u := match x.clock.toPoint with
        | some p => s.drawDone f p
        | none => s
      let t := u.modClock f fun c => { c with forced := false, toPoint := none, relocking := false, lastEnd := some s.now }
      exec (.drawbridgeEnd f ns) s = .next (((((t.setFieldState f x.saved).bump regDrawbridges f 1).setReg regDrawbridgeMax f
        (max (s.reg regDrawbridgeMax f) ns.toNat)).arrayResumes f).powerUpdate f).settle) ∧
    (∀ ns : BitVec 16, x.state ≠ .drawbridge → exec (.drawbridgeEnd f ns) s = .next s ∧ exec (.pllLockTimeout f) s = .next s) ∧
    (x.state = .drawbridge → x.clock.relocking = true → exec (.pllLockTimeout f) s = .next
      ((((s.modClock f fun c => { c with toPoint := none, relocking := false }).event (pierMaster f) 0x0205 []).charge (fieldUnit f) 0x0205).settle)) ∧
    (x.power.state = .on → exec (.droopDetect f) s = .next (s.modClock f fun c => { c with stretching := true })) ∧
    (∀ n : BitVec 32, x.clock.stretching = true →
      let t := (s.modClock f fun c => { c with stretching := false }).bump regStretchedPeriods f n.toNat
      exec (.stretchEnd f n false) s = .next t ∧ exec (.stretchEnd f n true) s = .next (t.event (pierMaster f) 0x0207 [])) ∧
    (∀ e : BitVec 64, s.clocks.running = true → s.reachable f = true →
      let err := s.beaconError f e.toInt
      let t := s.modClock f fun c =>
        { c.beacon s.now err with delays := if s.clocks.refState = .holdover then (e.toInt :: c.delays).take 16 else [] }
      (x.clock.errors = [] → exec (.beacon f e) s = .next (t.timersTry f)) ∧
      (x.clock.errors ≠ [] → -100 < err → err < 100 → exec (.beacon f e) s = .next t) ∧
      (x.clock.errors ≠ [] → 100 ≤ err → exec (.beacon f e) s = .next (t.event (pierMaster f) 0x0208 [])) ∧
      (x.clock.errors ≠ [] → err ≤ -100 → exec (.beacon f e) s = .next ((t.event (pierMaster f) 0x0208 []).timersTry f))) ∧
    (∀ v : BitVec 64, s.clocks.running = true → s.reachable f = true →
      exec (.beaconNotice f v) s = .next (s.modClock f fun c => { c with beaconAt := v.toNat })) ∧
    (s.ptpOn = true →
      (∀ d : BitVec 32, exec (.ptpDelayResponse d) s = .next (s.modClocks fun c => { c with ptpDelay := d.toNat })) ∧
      (∀ i : BitVec 64, exec (.ptpAnnounce i) s = .next ((s.setReg regPtpTransmitter 0 i.toNat).modClocks fun c => { c with ptpLost := false })) ∧
      (s.clocks.ptpLost = false → exec .ptpAnnounceTimeout s = .next
        ((s.modClocks fun c => { c with ptpLost := true, ptpLocked := false, ptpGood := 0, slew := 0 }).supEvent 0x020B [])) ∧
      (∀ o : BitVec 64, s.clocks.ptpLost = false → s.clocks.ptpOnce = true → ¬ o.toInt < -(1000 * s.reg regPtpStepLimit 0 : Nat) →
        ¬ (-100 < o.toInt ∧ o.toInt < 100) → exec (.ptpSync o) s = .next
          (((s.setReg regPtpOffset 0 (toTwos 32 (satInt 32 o.toInt))).modClocks fun c => { c with slew := -1000 * o.toInt }).modClocks fun c =>
            { c with ptpGood := 0, ptpLocked := false })))

/-! ### The dictionary -/

/-- READ, WRITE, TX_BEGIN, TX_COMMIT, TX_ABORT, SUMMARY, DESCRIBE, NOP, WINDOW_READ and HISTORY_CLEAR (R427, R430, R508 to R518): each is answered under the
generation that its effect leaves, with the value, the description, or the change that the operation makes. -/
def Obligations.DictionaryRequests : Prop :=
  ∀ (s : State) (r : Req), s.serves (opReq r 8) = true →
    (∀ (idx : BitVec 16) (sub : BitVec 8) (len : BitVec 32) o i j, let q := readReq r idx.toNat sub.toNat 0 len.toNat
      findObj q.index q.sub = some (o, i, j) → o.access ≠ .wo → s.dictMay q .r = true → o.type ≠ .blob → o.type ≠ .str →
      exec (.dictRead r idx sub 0 len) s = .next (s.nextFree.answered q stOk ((s.readValue q o i j).take (min len.toNat (payloadCap q.master))))) ∧
    (∀ (len : BitVec 32) o i j, let q := { readReq r 0x1010 0 0 len.toNat with op := 6 }
      findObj q.index q.sub = some (o, i, j) → o.access ≠ .wo → s.dictMay q .r = true → o.type = .blob → o.same regWindow = false →
      exec (.summary r len) s = .next (((s.freeze q o (s.readValue q o i j)).nextFree).answered { opReq r 6 with length := len.toNat } stOk
        ((s.readValue q o i j).take (min len.toNat (payloadCap q.master))))) ∧
    (∀ o i j, let q := readReq r 0x9010 0 0 4032
      findObj q.index q.sub = some (o, i, j) → o.access ≠ .wo → s.dictMay q .r = true → o.type = .blob →
      exec (.windowRead r) s = .next (((s.freeze q o (s.readValue q o i j)).nextFree).answered q stOk
        ((s.readValue q o i j).take (min 4032 (payloadCap q.master))))) ∧
    (∀ (idx : BitVec 16) (sub : BitVec 8) v o i j, let q := writeReq r idx.toNat sub.toNat v
      r.tx = false → o.acts = false → s.accepts q o i j = true →
      exec (.dictWrite r idx sub v) s = .next (s.afterWrite q o fun t => t.applyWrite q.master o i j v)) ∧
    (∀ (idx : BitVec 16) (sub : BitVec 8) v o i j t, let q := writeReq r idx.toNat sub.toNat v
      s.stages q o i j t = true → exec (.dictWrite r idx sub v) s = .next ((s.setTx (t.staging q)).answered q stOk [])) ∧
    (s.txOf (opReq r 3) = none →
      exec (.txBegin r) s = .next ((s.modCtl fun c => { c with txs := c.txs ++ [⟨r.master.toNat, []⟩] }).answered (opReq r 3) stOk []) ∧
      exec (.txCommit r) s = .next (s.answered (opReq r 4) stTx []) ∧ exec (.txAbort r) s = .next (s.answered (opReq r 5) stTx [])) ∧
    (∀ t, s.txOf (opReq r 3) = some t →
      exec (.txBegin r) s = .next (s.answered (opReq r 3) stTx []) ∧
      exec (.txAbort r) s = .next ((s.endTx r.master.toNat).answered (opReq r 5) stOk []) ∧
      (∀ u, (s.endTx r.master.toNat).commitWrites r.master.toNat t.staged = (u, none) →
        exec (.txCommit r) s = .next ((u.answered (opReq r 4) stOk (leBytes 8 u.now)).endKeySessions (s.keysWritten (opReq r 4)))) ∧
      (∀ u k st, st ≠ stOk → (s.endTx r.master.toNat).commitWrites r.master.toNat t.staged = (u, some (k, st)) →
        exec (.txCommit r) s = .next (u.answered (opReq r 4) st (leBytes 2 (k / 256) ++ leBytes 1 (k % 256))))) ∧
    (∀ (idx : BitVec 16) (sub : BitVec 8) o i j, let q := { opReq r 7 with index := idx.toNat, sub := sub.toNat }
      findObj q.index q.sub = some (o, i, j) → s.dictMay q .r = true → o.same regAccessEntry = false →
      exec (.describe r idx sub) s = .next (s.answered q stOk ((describeBytes o.type.code o.access.code (boolNat o.nv) o.size (o.dfltAt i j)).take
        (payloadCap q.master)))) ∧
    exec (.nop r) s = .next (s.answered (opReq r 8) stOk [])

/-- The writes that need no transaction (R54, R106, R239, R351, R355, R401, R430, R464, R468, R471, R497, R498, R534, R561): one that the server
accepts does what its object says, and is answered OK. -/
def Obligations.DirectWrites : Prop :=
  ∀ (s : State) (r : Req) (k : SpanId) (f : FieldId) (v : List Byte), r.tx = false →
    let n := ofLe v
    (let q := writeReq r 0x5000 2 v
     n ≠ 0 → s.accepts q regSupervisorSwap 0 0 = true → exec (.supervisorSwap r v) s = .next (s.afterWrite q regSupervisorSwap State.switchSupervisor)) ∧
    (let q := writeReq r (0x5100 + k) 0x25 [1]
     s.accepts q regSpanCommand k 0 = true → exec (.create r k) s = .next (s.afterWrite q regSpanCommand fun t => t.createSpan k)) ∧
    (let q := writeReq r (0x5100 + k) 0x25 [2]
     s.accepts q regSpanCommand k 0 = true → exec (.spanReset r k) s = .next (s.afterWrite q regSpanCommand fun t => t.resetSpan k)) ∧
    (let q := writeReq r (0x5100 + k) 0x25 [3]
     s.accepts q regSpanCommand k 0 = true → exec (.spanDelete r k) s = .next (s.afterWrite q regSpanCommand fun t => (t.deleteSpan k).settle)) ∧
    (let q := writeReq r (0x5100 + k) 0x20 v
     n ≠ 0 → s.accepts q regPredReset k 0 = true → exec (.predReset r k v) s =
      .next (s.afterWrite q regPredReset fun t => t.modSpan k fun p => { p with predClear := true })) ∧
    (let q := writeReq r (0x3000 + f) 0x20 v
     s.accepts q regSpinEnable f 0 = true → exec (.spinEnable r f v) s = .next (s.afterWrite q regSpinEnable fun t => t.spinWrite f n)) ∧
    (let q := writeReq r 0x6100 4 v
     s.accepts q regRetireUnit 0 0 = true → exec (.retireUnit r v) s =
      .next (s.afterWrite q regRetireUnit fun t => (t.declare n 1 false).settle)) ∧
    (let q := writeReq r 0x9000 7 v
     n ≠ 0 → s.accepts q regClear 0 0 = true → exec (.historyClear r v) s = .next (s.afterWrite q regClear State.clearHistory)) ∧
    (let q := writeReq r (0x3000 + f) 0xC7 v
     n ≠ 0 → s.accepts q regVminClear f 0 = true → exec (.vminClear r f v) s = .next (s.afterWrite q regVminClear fun t => t.setReg regVmin f 0)) ∧
    (let q := writeReq r 0x2000 3 v
     s.accepts q regGuardBand 0 0 = true → exec (.guardBand r v) s = .next (s.afterWrite q regGuardBand fun t => t.guardWrite n)) ∧
    (let q := writeReq r 0x2000 1 v
     s.accepts q regPowerCap 0 0 = true → exec (.powerCap r v) s = .next (s.afterWrite q regPowerCap fun t => t.capWrite n (t.reg regCoolantCap 0))) ∧
    (let q := writeReq r 0x8100 2 [1]
     s.accepts q regStageControl 0 0 = true → exec (.stageOpen r) s = .next (s.afterWrite q regStageControl fun t => t.stageOpen.1)) ∧
    (let q := writeReq r 0x8100 2 [2]
     s.accepts q regStageControl 0 0 = true → exec (.stageVerify r) s = .next (s.afterWrite q regStageControl fun t => t.stageVerify.1)) ∧
    (let q := writeReq r 0x8100 2 [3]
     s.accepts q regStageControl 0 0 = true → exec (.stageAbort r) s = .next (s.afterWrite q regStageControl fun t => t.stageAbort.1)) ∧
    (let q := writeReq r 0x8100 4 v
     s.accepts q regStageChunk 0 0 = true → exec (.stageChunk r v) s = .next (s.afterWrite q regStageChunk fun t => (t.stageChunk v).1)) ∧
    (let q := writeReq r 0x8000 8 v
     n ≠ 0 → s.accepts q regLinkSavedClear 0 0 = true → exec (.linkSavedClear r v) s =
      .next (s.afterWrite q regLinkSavedClear fun t => (t.modBoot fun b => { b with saved := [] }).setReg regLinkSaved 0 0)) ∧
    (∀ m : Fin 8, let q := writeReq r 0x1060 (m + 1) v
      s.accepts q regMgmtKey 0 m = true → exec (.mgmtKey r m v) s =
        .next (s.afterWrite q regMgmtKey fun t => t.modCtl fun c => { c with keys := c.keys.set m v }))

/-- The commands that write an object which only a transaction may write (R508): the request, the object, its index and subindex offsets, and the
effect of the value. -/
def Sys2Proof.Instr.transacted : Instr → Option (Req × DReq × Obj × Nat × Nat × (State → State))
  | .pause r k v => some (r, writeReq r (0x5100 + k) 0x0D v, regPause, k, 0, fun t => t.pauseWrite k (ofLe v))
  | .stepVariant r k v => some (r, writeReq r (0x5100 + k) 0x0E v, regStepVariant, k, 0, fun t => t.setReg regStepVariant k (ofLe v))
  | .checkProfile r k v => some (r, writeReq r (0x5100 + k) 0x2A v, regCheckProfile, k, 0, fun t =>
      (t.setProfile k (ofLe v)).tellPeers k [k.val, 2, ofLe v])
  | .coreSpan r f v => some (r, writeReq r (0x3000 + f) 0x80 v, regCoreSpan, f, 0, fun t => t.setReg regCoreSpan f (ofLe v))
  | .accessEntry r n e v => some (r, writeReq r (0x5800 + n.toNat) (e + 1) v, regAccessEntry, n.toNat, e, fun t =>
      t.setRegAt regAccessEntry n.toNat e (ofLe v))
  | .setDesc r d v => some (r, writeReq r (0x4040 + d) 1 v, regSetDesc, d, 0, fun t => (t.setWritten d v).mapCleared)
  | .bankPower r f v => some (r, writeReq r (0x3000 + f) 0x40 v, regBankPower, f, 0, fun t => t.bankPowerWrite f v)
  | .pierPowerRequest r f v => some (r, writeReq r (0x3000 + f) 0xC1 v, regPierPowerRequest, f, 0, fun t => t.pierRequestWrite f (ofLe v))
  | .activateTime r v => some (r, writeReq r 0x8100 8 v, regActivateTime, 0, 0, fun t => t.activateAt (ofLe v))
  | .attestNonce r v => some (r, writeReq r 0x8200 4 v, regAttestNonce, 0, 0, fun t => (t.setReg regAttestNonce 0 (ofLe v)).attest v)
  | .ethMode r e v => some (r, writeReq r (0xA000 + e) 1 v, regEthMode, e, 0, fun t => t.ethModeSet e (ofLe v))
  | .streamDesc r v => some (r, writeReq r 0xA400 2 v, regStreamDesc, 0, 0, fun t => t.streamSet (t.perMaster r.master.toNat regStreamSelect) v)
  | .groupDesc r g v => some (r, writeReq r (0xA240 + g) 1 v, regGroupDesc, g, 0, fun t => t.groupSet g v)
  | _ => none

/-- The writes of spans, access, sets, piers, updates, ports and media that only a transaction may make (R49, R157, R191, R253, R358, R363, R371, R474,
R499, R503, R508, R509, R516 to R518, R541, R552, R555): within the transaction of its master a write that passes its checks is staged, and
nothing else happens; the commit of a transaction that holds it alone does what its object says; outside a transaction it is refused with
ACCESS. -/
def Obligations.TransactedWrites : Prop :=
  ∀ (i : Instr) (r : Req) (q : DReq) (o : Obj) (a b : Nat) (act : State → State) (s : State), i.transacted = some (r, q, o, a, b, act) →
    (∀ t, s.stages q o a b t = true → exec i s = .next ((s.setTx (t.staging q)).answered q stOk [])) ∧
    (s.commits q o a b = true → exec (.txCommit r) s = .next (s.afterCommit r q o act)) ∧
    (r.tx = false → s.serves q = true → findObj q.index q.sub = some (o, a, b) → exec i s = .next (s.answered q stAccess []))

/-- The paths of the dictionary (R511, R519, R522 to R536, R538, R574): a SUBMIT serves its slot, a summary command fills its buffer, a handshake opens and closes
a session; what the timers end, and what a function reset clears. -/
def Obligations.DictionaryPaths : Prop :=
  ∀ (s : State),
    (∀ i req, s.pcieUp = true → exec (.submit (.pcie i) 0x300 req) s = .next (s.submit (.pcie i) 0x300 0xFF req)) ∧
    (s.pcieUp = true → exec .summaryCmd s = .next ((s.modCtl fun c =>
      { c with summaryBuf := s.summary, summaryStatus := 2 + 2 ^ 16 * (s.reg regGeneration 0 % 2 ^ 16) }).vector 1)) ∧
    (∀ m : BitVec 32, s.pcieUp = true →
      exec (.irqStatusClear m) s = .next (s.modCtl fun c => { c with irqStatus := (bitList 32 m.toNat).foldl clearBit c.irqStatus })) ∧
    exec .pcieFunctionReset s = .next ((s.expireTx fun m => m == 0x300).modCtl fun c =>
      { c with pcie := List.replicate 4 .reset, irqStatus := 0, summaryBuf := [], summaryStatus := 0 }) ∧
    (∀ (rate : BitVec 8) (w : BitVec 4), s.boot.powered = true → s.reachable 0 = true →
      exec (.pcieLinkTrained rate w) s = .next (s.setReg regPcieLink 0 (rate.toNat + 256 * w.toNat))) ∧
    (∀ q, s.boot.powered = true → s.reg regJtagDiag 0 = 1 → malformed q = false →
      let y := ({ s with jtag := { s.jtag with instr := 5, drives := false } } : State).serveMessage q 0x300 0xFF false
      exec (.diag q) s = .next (y.1.emit (.jtag (8 * y.2.length) (ofLe y.2)))) ∧
    (∀ (p : Fin 2) (slot : BitVec 8) nc nd n, s.boot.powered = true → s.reg regT1sLink p ≠ 0 → s.shakeStatus slot.toNat = stOk →
      s.freeSession slot.toNat = some n → exec (.hello p slot nc nd) s =
        .next (((s.bump regT1sFrames p 1).modSession n fun x => { x with hello := some (nc, nd), port := p }).shake p n stOk
          (leBytes 1 n ++ nd ++ Config.hmacSha384 (s.mgmtKey slot.toNat)
            (leBytes 1 0x44 ++ nc ++ nd ++ leBytes 8 (s.reg regSerial 0) ++ leBytes 1 n)))) ∧
    (∀ (n : Idx16) tag nc nd, (s.session n).hello = some (nc, nd) → s.boot.powered = true → s.reg regT1sLink (s.session n).port ≠ 0 →
      s.shakeStatus (n / 2) = stOk → let t := s.bump regT1sFrames (s.session n).port 1
      (tag = Config.hmacSha384 (s.mgmtKey (n / 2)) (leBytes 1 0x43 ++ nd ++ nc ++ leBytes 1 n) →
        exec (.auth n tag) s = .next ((t.openSession n nc nd).shake (s.session n).port n stOk [])) ∧
      (tag ≠ Config.hmacSha384 (s.mgmtKey (n / 2)) (leBytes 1 0x43 ++ nd ++ nc ++ leBytes 1 n) →
        exec (.auth n tag) s = .next ((t.authFailed n).shake (s.session n).port n stAuth []))) ∧
    (∀ n : Idx16, s.reaches (sessionMaster n) = true → s.dictReady = true → s.boot.fuseFault = false →
      s.control.expired.contains (sessionMaster n) = false →
      exec (.close n) s = .next (((s.bump regT1sFrames (s.session n).port 1).shake (s.session n).port n stOk []).endSession n)) ∧
    (∀ m : BitVec 12, exec (.txTimeout m) s = .next (s.expireTx fun x => x == m.toNat) ∧
      exec (.frozenCopyExpiry m) s = .next (s.modCtl fun c => { c with frozen := c.frozen.filter fun x => x.master != m.toNat })) ∧
    (∀ n : Idx16, (s.session n).opened = true → exec (.sessionIdleTimeout n) s = .next (s.endSession n)) ∧
    (∀ k : Fin 8, s.control.keyLocked.getD k false = true → exec (.keySlotUnlock k) s =
      .next (s.modCtl fun c => { c with keyLocked := c.keyLocked.set k false, keyFails := c.keyFails.set k [] }))

/-! ### Power and heat -/

/-- The input, ALERT, operating points and the cap controller (R459, R464 to R467, R469, R471, R473, R479, R571, R576, R577): undervoltage and ALERT
drive every pier toward OP0 and hold it there until their release; the module stops without power and keeps what R479 names; a slew ends at its
voltage; an interval measures the input power and moves the bubble fraction. -/
def Obligations.SupplyEvents : Prop :=
  ∀ (s : State) (f : FieldId),
    (s.boot.powered = true →
      (∀ mv : BitVec 16, s.supply.undervolt = false → exec (.inputUndervoltage mv) s = .next
        (((s.setReg regInputVoltage 0 (f32Milli mv.toNat)).modSupply fun p => { p with undervolt := true }).supEvent 0x010A
          (voltageData 0 mv.toNat)).alertActs) ∧
      (∀ mv : BitVec 16, exec (.inputOvervoltage mv) s = .next
        ((s.setReg regInputVoltage 0 (f32Milli mv.toNat)).supEvent 0x010A (voltageData 1 mv.toNat))) ∧
      (s.supply.alert = false → exec .alertAssert s = .next
        (((s.modSupply fun p => { p with alert := true }).supEvent 0x0101 []).bump regAlertCount 0 1).alertActs) ∧
      exec .powerLoss s = .next s.powerOff ∧ exec .modResetN s = .next s.powerOff ∧ exec .persistCounts s = .next s.persist ∧
      (s.reg regLeak 0 = 0 → exec .leakDetect s = .next (((s.setReg regLeak 0 1).supEvent 0x090B []).showPins s)) ∧
      (∀ (i o : BitVec 32) w, exec (.coolantSample i o w) s = .next
        ((((s.modSupply fun p => { p with flows := (w.map BitVec.toNat :: p.flows).take 10 }).coolantMeasured i.toInt o.toInt).coolantCap
          i.toInt).showPins s))) ∧
    (s.supply.undervolt = true → exec .undervoltageRelease s = .next (s.modSupply fun p => { p with undervolt := false }).alertEnds) ∧
    (s.supply.alert = true →
      exec .alertRelease s = .next ((s.modSupply fun p => { p with alert := false }).supEvent 0x0102 []).alertEnds) ∧
    (s.supply.holding = true → s.supply.alert = false → s.supply.undervolt = false →
      exec .alertHoldExpiry s = .next (s.modSupply fun p => { p with holding := false }).powerAll) ∧
    (∀ mhz : BitVec 16, s.boot.powered = true → mhz.toNat / 5 * 5 < s.ceiling f →
      (mhz.toNat / 5 * 5 < 760 → exec (.ageingCheck f mhz) s = .next (s.retireDue (pierUnit f)).settle) ∧
      (760 ≤ mhz.toNat / 5 * 5 → exec (.ageingCheck f mhz) s = .next
        ((((s.modPower f fun p => { p with ageCeiling := mhz.toNat / 5 * 5 }).event (pierMaster f) 0x0109 []).changed).powerUpdate f))) ∧
    (∀ mv, (s.field f).power.slewTo = some mv →
      exec (.voltageSlewDone f) s = .next ((s.modPower f fun p => { p with millivolts := mv, slewTo := none }).powerUpdate f)) ∧
    ((s.field f).power.phaseHeld = true → (s.field f).power.state = .on → exec (.phaseHoldExpiry f) s =
      .next ((s.modPower f fun p => { p with phaseHeld := false }).pointMove f (s.wantPoint f))) ∧
    (∀ (rail : Rail) (mv : BitVec 16), s.boot.powered = true → leAt (leBytes 48 (s.reg regVmin f)) (16 * railNo rail) 2 ≠ 0 →
      leAt (leBytes 48 (s.reg regVmin f)) (16 * railNo rail) 2 ≤ mv.toNat → exec (.vminSample f rail mv) s = .next s) ∧
    (∀ (rail : Rail) (mv : BitVec 16), s.boot.powered = true → leAt (leBytes 48 (s.reg regVmin f)) (16 * railNo rail) 2 = 0 →
      s.railMv f rail ≤ mv.toNat → exec (.vminSample f rail mv) s = .next (s.setReg regVmin f (ofLe (splice (leBytes 48 (s.reg regVmin f))
        (16 * railNo rail) (leBytes 2 mv.toNat ++ zeros 6 ++ leBytes 8 (s.fieldTime f)))))) ∧
    (∀ (p : BitVec 32) (ma : List (BitVec 32)),
      (s.boot.powered = false → exec (.capControlInterval p ma) s = .next s) ∧
      (s.boot.powered = true → ∃ t, exec (.capControlInterval p ma) s = .next t ∧
        t.supply.bubble = nextBubble s.supply.bubble (s.reg regCapGain 0) p.toNat s.capNow ∧ t.supply.capInForce = s.capNow ∧
        t.supply.energy = s.supply.energy + 10 * p.toNat ∧ t.mem = s.mem ∧ t.spans = s.spans))

/-- Cells, contacts, admissions, stages and heat (R461, R463, R474 to R478, R486, R587): a tripped cell is counted and charged, a pier's admission and
stages follow each other, a field or pier that cools goes on, and one too hot leaves service. -/
def Obligations.CellsAndHeat : Prop :=
  ∀ (s : State) (f : FieldId), let x := s.field f
    (∀ c : Idx16, s.boot.powered = true → x.cellsOut.testBit c = false → s.reachable f = true →
      let t := (((s.modField f fun y => { y with cellsOut := setBit y.cellsOut c }).supEvent 0x010B []).charge (cellUnit f c) 0x010B)
      exec (.regCellTrip f c) s = .next (if t.isRetired (cellUnit f c) then t else t.cellsApply f c).settle) ∧
    (∀ c : Idx16, s.boot.powered = true → x.cellsOut.testBit c = true → s.isRetired (cellUnit f c) = false → x.state ≠ .dark → x.state ≠ .retired →
      exec (.regCellRestart f c) s = .next (((s.modField f fun y => { y with cellsOut := clearBit y.cellsOut c }).cellsApply f c).settle)) ∧
    (∀ (g : Fin 24) (d : BitVec 16), s.boot.powered = true → s.supply.calibrated = true → d.toInt < 10 * (s.reg regContactThreshold 0 : Int) →
      exec (.contactCheck f g d) s = .next (s.setReg regContactDeparture f (ofLe (splice (leBytes 48 (s.reg regContactDeparture f)) (2 * g)
        (leBytes 2 d.toNat))))) ∧
    (∀ l : List (BitVec 32), s.boot.powered = true → s.supply.calibrated = false → exec (.contactCalibration l) s = .next (s.modSupply fun p =>
      { p with calibrated := true, models := l.map (·.toNat) })) ∧
    (∀ ma : BitVec 32, let t := s.zoneMeasured f ma.toNat
      (x.power.state = .deferred → t.admits f ma.toNat = true → exec (.admissionCheck f ma) s = .next (t.pierStaging f)) ∧
      (x.power.state ≠ .deferred → exec (.admissionCheck f ma) s = .next t) ∧
      (x.power.state ≠ .on → exec (.admissionRecheck f ma) s = .next t)) ∧
    (x.power.state = .deferred → exec (.admissionTimeout f) s =
      .next (((s.modPower f fun p => { p with admissionLimit := 0 }).event (pierMaster f) 0x0108 []).pierStaging f)) ∧
    (x.power.state = .staging → x.power.drawTo = none →
      (x.power.stage < 3 → exec (.pierStageDone f) s = .next (s.modPower f fun p => { p with stage := p.stage + 1 })) ∧
      (3 ≤ x.power.stage → exec (.pierStageDone f) s = .next (s.pierOn f))) ∧
    (∀ c : BitVec 32, s.boot.powered = true → x.state ≠ .retired → s.reachable f = true →
      let t := (s.setReg regJunctionTemp f (f32Milli c.toInt)).modPower f fun p => { p with junction := c.toInt }
      (120000 ≤ c.toInt → exec (.junctionSample f c) s = .next
        ((((t.event (pierMaster f) 0x0905 []).modField f fun y => { y with hot := true }).fieldDarkHeat f).rerouted).settle) ∧
      (c.toInt < 120000 → c.toInt < (s.reg regThrottleTemp 0 : Int) * 1000 → c.toInt < (s.reg regPierOffTemp 0 : Int) * 1000 →
        exec (.junctionSample f c) s = .next t)) ∧
    (x.power.state = .heatOff → x.power.junction < 90000 → exec (.thermalRelease f) s = .next ((s.event (pierMaster f) 0x0904 []).pierWake f)) ∧
    (∀ (k : SpanId) g r, (s.span k).state = .running → (s.span k).pauses.filterMap PauseReason.heatOf = g :: r →
      exec (.heatKeystoneTimeout k) s = .next ((s.pauseNow k (.heat g)).abortQuorum k).settle) ∧
    (∀ k, s.memberOf f = some k → s.reg regHeatSwap 0 ≠ 0 → (s.span k).state = .paused → (s.span k).pauses.contains (.heat f) = true →
      (s.span k).recovery.contains (.field f) = false → x.power.state = .heatOff → exec (.heatSwapExpiry f) s = .next
        ((((s.modSpan k fun q => { q with pauses := q.pauses.filter (· != .heat f), recovery := q.recovery.filter (· != .field f) }).event (pierMaster f)
          0x0903 []).loseMember k (s.span k).device f).settle)) ∧
    (x.state = .dark → x.hot = true → s.boot.powered = true → 0 < x.cellsGood 14 2 → exec (.fieldHeatRelease f) s =
      .next (((s.modField f fun y => { y with hot := false }).event (pierMaster f) 0x0906 []).fieldWaking f))

/-! ### Bring-up, supervisors and activation -/

/-- POWER_GOOD, BRINGUP_STEP_DONE, FIELD_UP, FIELD_WAKE_TIMEOUT, SPANLINK_RETRY, heartbeats and the supervisors' messages (R351, R361, R371, R478, R482, R484,
R492, R499 to R506): bring-up begins with one power cycle more, its first step starts the recorder and its third the timebase; fields wake or
fall DARK; a supervisor whose partner is silent takes over. -/
def Obligations.BringupEvents : Prop :=
  ∀ (s : State) (f : FieldId),
    (s.boot.powered = false → exec .powerGood s = .next ((((s.modBoot fun b =>
      { b with powered := true, step := 1, update := if s.otherBank.state = .staged then .staged else .idle }).bump regPowerCycles 0 1).persist).showPins
        s)) ∧
    (s.boot.powered = true → exec .powerGood s = .next s) ∧
    (∀ flash, s.boot.powered = true →
      (s.boot.step = 1 → s.boot.recovery = false → exec (.bringupStepDone ⟨.good, flash⟩) s = .next ((s.firmwareRuns flash).showPins s)) ∧
      (s.boot.step = 3 → exec (.bringupStepDone ⟨.good, flash⟩) s = .next ((s.fieldsWake.stepEnded 3).showPins s)) ∧
      (s.boot.fuseFault = true → 5 ≤ s.boot.step → ∀ found, exec (.bringupStepDone ⟨found, flash⟩) s = .next s)) ∧
    ((s.field f).state = .waking → (s.field f).restarting = false → s.boot.step < 5 → exec (.fieldUp f) s = .next
      ((((s.modField f fun y => { y with wakeTries := 0, newBuild := decide (s.boot.update = .activating ∨ s.boot.update = .swapping) }).setFieldState
        f (if (s.spanOf f).isSome then .serving else .ready)).rerouted))) ∧
    (let t := s.chargeOpen (fieldUnit f)
     (s.field f).state = .waking → (s.field f).restarting = false → (t.field f).state ≠ .retired →
      ((s.field f).wakeTries = 0 → exec (.fieldWakeTimeout f) s = .next (t.modField f fun y => { y with wakeTries := 1 })) ∧
      ((s.field f).wakeTries ≠ 0 → exec (.fieldWakeTimeout f) s =
        .next (((t.modField f fun y => { y with wakeTries := 0 }).fieldDark f).settle))) ∧
    (∀ p : LinkId, s.boot.powered = true → 8 ≤ s.boot.step → (s.link p).state = .off → (s.field (portField p)).state = .ready →
      exec (.spanlinkRetry p) s = .next (s.setPortState p .training)) ∧
    (s.boot.powered = true → s.control.standby = true → exec .heartbeat s = .next (s.emit .heartbeat) ∧
      (s.boot.update = .idle → exec .heartbeatTimeout s = .next s.takeover.newLeaves.settle) ∧
      (s.boot.step = 1 → s.control.activeB = false →
        exec .supervisorStartTimeout s = .next (s.modCtl fun c => { c with activeB := true, standby := false }).capacityChanged)) ∧
    (∀ (k : SpanId) (d : Fin 4), (s.span k).state ≠ .unused → d.val ≠ (s.span k).device →
      (1 < (s.span k).devices →
        exec (.supervisorControlPacket k d .loaded) s = .next ((s.modSpan k fun q => { q with peersLoaded := q.peersLoaded + 1 }).tryReady k) ∧
        (∀ v, exec (.supervisorControlPacket k d (.seed v)) s = .next (s.setReg regDigestSeed k v.toNat))) ∧
      exec (.bridgedTakeoverTimeout k d) s =
        .next (((s.span k).members.filter (·.1 == d.val)).foldl (fun t m => t.loseMember k m.1 m.2) s).settle)

/-- ACTIVATION_START, the field restarts, SUPERVISOR_RESTART_DONE, STAGING_WINDOW_WRITE and ATTEST_TOKEN_REFILL (R499 to R501, R505, R530): an activation restarts
its fields one after another, then the supervisors; a restart in time returns the field to its former state, one that is late rolls the activation
back; the bucket of attestations holds at most 64. -/
def Obligations.Activation : Prop :=
  ∀ (s : State) (f : FieldId),
    (s.boot.update = .scheduled → exec .activationStart s = .next
      (((s.modBoot fun b => { b with cursor := 0, supNew := (false, false), inHand := none }).setUpdate .activating).activateNext)) ∧
    (s.boot.inHand = none → s.boot.update = .activating → s.nextField = some f.val → exec (.fieldRestart f) s =
      .next s.activateNext) ∧
    (s.boot.inHand ≠ none → exec (.fieldRestart f) s = .next s) ∧
    (∀ k : SpanId, s.boot.inHand = some f.val → s.memberOf f = some k.val → (s.span k).state = .running →
      exec (.restartKeystoneTimeout k) s = .next ((s.pauseNow k (.restart f)).abortQuorum k).settle) ∧
    ((s.field f).restarting = true → s.boot.inHand = some f.val →
      (s.boot.update = .activating → exec (.fieldRestartTimeout f) s = .next s.rollBack) ∧
      (s.boot.update = .rollingBack → exec (.fieldRestartTimeout f) s = .next ((s.chargeOpen (fieldUnit f)).settle).rollbackCheck) ∧
      (s.boot.update = .rollingBack → s.spanOf f = none → s.memberOf f = none → (s.field f).saved = .ready →
        let t := (((s.modField f fun y => { y with restarting := false, coresReset := s.deadCores f, newBuild := false }).setFieldState f .ready).supEvent
          0x0704 []).modBoot fun b => { b with inHand := none }
        exec (.fieldRestartDone f) s = .next ((((t.imageReload f).restartUnmark f).powerUpdate f).rollbackCheck.settle))) ∧
    (s.boot.update = .swapping → s.control.standby = false → exec .supervisorRestartDone s =
      .next ((s.modBoot fun b => b.setSupNew s.control.activeB true).activationCommit)) ∧
    (s.boot.update = .swapping → s.control.standby = true → s.boot.onNew (!s.control.activeB) = false → s.boot.onNew s.control.activeB = false →
      exec .supervisorRestartDone s = .next ((s.modBoot fun b => b.setSupNew (!s.control.activeB) true).switchSupervisor)) ∧
    (s.boot.powered = true → (∀ o l, exec (.stagingWindowWrite o l) s = .next (s.stageWindow o.toNat l)) ∧
      exec .attestTokenRefill s = .next (s.setReg regAttestTokens 0 (min 64 (s.reg regAttestTokens 0 + 1))))

/-! ### Towers -/

/-- TOWER_ACCESS, TOWER_ACCESS_AGED, PATROL_SCRUB and TOWER_DIE_TEMPERATURE_SAMPLE (R246, R247, R250, R252, R258, R262, R264, R477): an ONLINE channel performs
the access, a corrected or an uncorrectable granule recorded on the way; a write makes its granule good again, and a narrow one merges its bytes
into what the code delivers; a channel that is not ONLINE performs nothing. -/
def Obligations.TowerAccesses : Prop :=
  ∀ (s : State) (c : ChannelId) (g : BitVec 28) (errs : SymbolErrors), let s0 := s.modChannel c fun x => { x with aged := false }
    ((s.channel c).state = .online →
      exec (.towerAccess c g .read errs) s = .next (s0.granuleRead c g.toNat errs).settle ∧
      (∀ l, exec (.towerAccess c g (.write l) errs) s = .next (s0.granuleWrite c g.toNat l).settle) ∧
      (∀ off l, let s1 := s0.granuleRead c g.toNat errs
        (s0.channel c).bad.contains g.toNat = false → s0.decoded c errs ≠ .lost →
        exec (.towerAccess c g (.narrow off l) errs) s = .next
          (if (s1.channel c).bad.contains g.toNat = true ∨ (s1.channel c).state ≠ .online then s1.settle
           else (s1.granuleWrite c g.toNat ((splice (s0.delivered c g.toNat errs) off.toNat l).take 64)).settle)) ∧
      exec (.towerAccessAged c) s = .next (s.modChannel c fun x => { x with aged := true }) ∧
      exec (.patrolScrub c errs) s = .next
        ((s.modChannel c fun x => { x with scrubAt := ((s.channel c).scrubAt + 1) % 2 ^ 28 }).granuleRead c (s.channel c).scrubAt errs).settle) ∧
    ((s.channel c).state ≠ .online → (∀ op, exec (.towerAccess c g op errs) s = .next s) ∧ exec (.towerAccessAged c) s = .next s ∧
      exec (.patrolScrub c errs) s = .next s) ∧
    (∀ (t : TowerId) (v : BitVec 32), s.boot.powered = true → v.toInt < 90000 → exec (.towerDieTemperatureSample t v) s =
      .next ((s.setReg regTemperature t (f32Milli v.toInt)).modTower t fun y => { y with refresh2 := false, half := false }))

/-- What the write of a granule leaves in a set that is not mirrored (R246, R250): its 64 bytes at the granule, every other byte of memory as before,
and the granule no longer uncorrectable. -/
def Obligations.GranuleStores : Prop :=
  ∀ (s : State) (c : ChannelId) (g : BitVec 28) (l : List Byte), s.wf = true → s.mirrorOf c (64 * g.toNat) = none →
    let t := s.granuleWrite c g.toNat l
    let k := towerKey (c.val, 64 * g.toNat)
    (∀ i, i < 64 → t.mem.byte (k + i) = l.getD i 0) ∧ (∀ x, x < k ∨ k + 64 ≤ x → t.mem.byte x = s.mem.byte x) ∧
    (t.channel c).bad.contains g.toNat = false ∧ t.fields = s.fields ∧ t.spans = s.spans

/-- EDC_REPLAY, RETRAIN_DONE, RETRAIN_TRY_TIMEOUT, CHANNEL_TRAINING_DONE, TOWER_TEST_DONE, REMAP_FILL and RESERVE_REFILL (R251, R261, R270, R272, R274), in every
state: a burst whose fourth replay fails retrains its channel, and every replayed burst is recorded; the third retrain that fails retires it; a
channel that trains goes to TESTING, one that does not retires; a tower that passes its test puts its channels ONLINE, one that fails retires
them; a fill gives the remapped units of a DEGRADED set zeros, or their mirrors' bytes.  In every other state each leaves the module as it is. -/
def Obligations.TowerChannels : Prop :=
  ∀ (s : State) (c : ChannelId) (t : TowerId) (k : SetId),
    ((s.channel c).state = .online →
      ((s.channel c).replays + 1 < 4 → exec (.edcReplay c true) s = .next (s.modChannel c fun x => { x with replays := (s.channel c).replays + 1 })) ∧
      (let u := ((s.unitEvent (towerHolder (towerOf c)) 0x0503 (leBytes 1 c ++ leBytes 1 ((s.channel c).replays + 1))).bump regEdcReplays (towerOf c)
        1).modChannel c fun x => { x with replays := 0 }
       exec (.edcReplay c false) s = .next (u.charge (channelUnit c) 0x0503).settle ∧
       (4 ≤ (s.channel c).replays + 1 → exec (.edcReplay c true) s = .next ((((u.setChannelState c .retraining).modChannel c fun x =>
        { x with tries := 1 }).bump regRetrains (towerOf c) 1).charge (channelUnit c) 0x0503).settle))) ∧
    ((s.channel c).state ≠ .online → ∀ failed, exec (.edcReplay c failed) s = .next s) ∧
    ((s.channel c).state = .retraining →
      (∀ us : BitVec 32, exec (.retrainDone c us) s = .next (((s.setChannelState c .online).modChannel c fun x => { x with tries := 0 }).unitEvent
        (towerHolder (towerOf c)) 0x0504 (leBytes 1 c ++ zeros 3 ++ leBytes 4 us.toNat)).settle) ∧
      ((s.channel c).tries < 3 → exec (.retrainTryTimeout c) s = .next (s.modChannel c fun x => { x with tries := (s.channel c).tries + 1 })) ∧
      (3 ≤ (s.channel c).tries → exec (.retrainTryTimeout c) s = .next (s.retireChannel c).settle)) ∧
    ((s.channel c).state ≠ .retraining → (∀ us, exec (.retrainDone c us) s = .next s) ∧ exec (.retrainTryTimeout c) s = .next s) ∧
    ((s.channel c).state = .training →
      (s.boot.step < 9 → exec (.channelTrainingDone c true) s = .next (s.setChannelState c .testing)) ∧
      (9 ≤ s.boot.step → exec (.channelTrainingDone c true) s = .next (s.setChannelState c .testing).nextRound) ∧
      exec (.channelTrainingDone c false) s = .next (((s.retireChannel c).settle).fastCheck.serveAll).settle) ∧
    ((s.channel c).state ≠ .training → ∀ passed, exec (.channelTrainingDone c passed) s = .next s) ∧
    ((s.tower t).result = 3 →
      let mine := (towerChannels t).filter fun x => (s.channel x).state == .testing
      let good := (s.modTower t fun x => { x with result := 1 }).supEvent 0x0510 (leBytes 1 t)
      let bad := (s.modTower t fun x => { x with result := 2 }).supEvent 0x0511 (leBytes 1 t)
      exec (.towerTestDone t true) s = .next
        (((((List.range 16).foldl State.setTested (mine.foldl (fun v x => v.setChannelState x .online) good)).settle).nextRound).fastCheck.serveAll).settle ∧
      exec (.towerTestDone t false) s = .next
        (((((List.range 16).foldl State.setTested (mine.foldl State.retireChannel bad)).settle).nextRound).fastCheck.serveAll).settle) ∧
    ((s.tower t).result ≠ 3 → ∀ passed, exec (.towerTestDone t passed) s = .next s) ∧
    (exec (.remapFill k) s = .next (if (s.set k).state = .degraded ∧ (s.setDesc k).mirror = false then
        (s.zeroRemapped k (s.toFill k)).fillDone k (s.toFill k) else s)) ∧
    (exec (.reserveRefill k) s = .next (if (s.set k).state = .degraded ∧ (s.setDesc k).mirror = true then
        ((s.toFill k).foldl (fun v x => v.copyMirror k x) (s.zeroRemapped k (s.toFill k))).fillDone k (s.toFill k) else s))

/-! ### Spanlinks, Ethernet, media and the module -/

/-- The spanlink commands (R411, R558 to R563): training that is answered brings a port up or retires its lanes; the fourth failed replay of a flit, a
loss of lock or a narrower peer retrains it; silence takes it out of service; a packet that may not cross is refused. -/
def Obligations.Spanlinks : Prop :=
  ∀ (s : State) (p : LinkId),
    (∀ good serial peer cross, (s.link p).state = .training →
      exec (.spanlinkTrainingDone p true good serial peer cross) s = .next (s.linkTrained p good.toNat serial.toNat peer.toNat cross.toNat).settle ∧
      exec (.spanlinkTrainingDone p false good serial peer cross) s = .next (s.linkOff p)) ∧
    (∀ good serial peer cross, (s.link p).state = .retraining →
      exec (.spanlinkTrainingDone p true good serial peer cross) s = .next (s.linkRetrained p good.toNat serial.toNat peer.toNat cross.toNat).settle) ∧
    ((s.link p).state = .retraining → exec (.spanlinkRetrainTimeout p) s = .next (s.linkLost p)) ∧
    ((s.link p).state = .up →
      exec (.spanlinkFlitReplay p false) s = .next ((s.bump regSpanlinkReplays p 1).modLink p fun x => { x with replays := 0 }) ∧
      ((s.link p).replays < 3 → exec (.spanlinkFlitReplay p true) s =
        .next ((s.bump regSpanlinkReplays p 1).modLink p fun x => { x with replays := x.replays + 1 })) ∧
      (3 ≤ (s.link p).replays → exec (.spanlinkFlitReplay p true) s = .next ((s.bump regSpanlinkReplays p 1).linkRetrain p)) ∧
      exec (.spanlinkFault p) s = .next (s.linkRetrain p) ∧ exec (.spanlinkPeerNotice p false) s = .next (s.linkRetrain p) ∧
      exec (.spanlinkPeerNotice p true) s = .next ((s.supEvent 0x0615 []).retirePort p false).settle ∧
      (∀ ty k a, let t := (s.bump regFlitsRx p (s.flitCount ty.toNat)).nextFree
        exec (.spanlinkPacket p true ty k a) s = .next (if s.crosses ty.toNat k = true then t.crossIn p ty.toNat k a.toNat else t.crossRefused p k)) ∧
      (∀ ty k a, s.delivers k = true → let t := s.hauled k (s.flitCount ty.toNat)
        (t.crosses ty.toNat k = false → exec (.spanlinkPacket p false ty k a) s = .next (t.answer k tyNack nackAbsent [])) ∧
        (t.crosses ty.toNat k = true → isResponse ty.toNat = true ∨ t.granted (targetLink p) k.master.toNat k.span.toNat .w [] = true →
          exec (.spanlinkPacket p false ty k a) s = .next (t.crossOut p ty.toNat k a.toNat)) ∧
        (t.crosses ty.toNat k = true → isResponse ty.toNat = false → t.granted (targetLink p) k.master.toNat k.span.toNat .w [] = false →
          exec (.spanlinkPacket p false ty k a) s =
            .next ((t.violation (targetLink p) k.master.toNat k.span.toNat .w 0).answer k tyNack nackAccess [])))) ∧
    ((s.link p).state ≠ .up → exec (.spanlinkFault p) s = .next s ∧ ∀ b ty k a, exec (.spanlinkPacket p b ty k a) s = .next s)

/-- The Ethernet ports, requests and 10BASE-T1S ports (R532, R539 to R541, R543, R549): a link comes up or goes down with its event; the four requests
are taken by the span they name, or rejected; an ARP or echo frame is answered; a T1S port is down, on CSMA/CD or on PLCA. -/
def Obligations.PortEvents : Prop :=
  ∀ (s : State) (e : EthId) (p : Fin 2),
    ((s.eth e).state = .training → exec (.ethLinkUp e) s = .next ((s.modEth e fun x => { x with state := .up }).event (portMaster e) 0x0610 []).capacityChanged) ∧
    (s.ethUp e = true → exec (.ethLinkDown e none) s = .next (s.ethDown e) ∧
      exec (.frameReceived (.eth e) .arp) s = .next (((s.bump regFramesRx e 1).emit (.answer e)).bump regFramesTx e 1) ∧
      exec (.frameReceived (.eth e) .pause) s = .next ((s.bump regFramesRx e 1).frameDrop e)) ∧
    (s.reg regT1sLink p ≠ 0 → exec (.frameReceived (.t1s p) .badTag) s = .next ((s.bump regT1sFrames p 1).bump regTagDrops p 1)) ∧
    (s.boot.powered = true → s.reg regT1sEnable p = 1 → s.reachable (if p.val = 0 then 0 else 29) = true →
      exec (.t1sLinkChange p true true) s = .next (s.setReg regT1sLink p 2) ∧ exec (.t1sLinkChange p true false) s = .next (s.setReg regT1sLink p 1) ∧
      exec (.t1sLinkChange p false false) s = .next (s.setReg regT1sLink p 0)) ∧
    (∀ d : Datagram, let k := leAt d.payload 4 1; let t := s.bump regFramesRx d.port 1
      s.ethUp d.port = true → k < 8 → s.admitted k d.srcAddr.toNat = true → requestBad d.payload = false →
      (s.span k).state = .ready ∨ (s.span k).state = .running ∨ (s.span k).state = .paused →
      let n := 1 + (leAt d.payload 6 2 - 224 + 255) / 256
      n ≤ (s.span k).queueFree →
      exec (.start d) s = .next (t.requestTaken k d n) ∧ exec (.append d) s = .next (t.requestTaken k d n) ∧
      exec (.endSeq d) s = .next (t.requestTaken k d n) ∧ exec (.cancel d) s = .next (t.requestTaken k d n)) ∧
    (∀ d : Datagram, s.ethUp d.port = true → leAt d.payload 4 1 < 8 → s.admitted (leAt d.payload 4 1) d.srcAddr.toNat = true →
      requestBad d.payload = true → exec (.start d) s = .next ((s.bump regFramesRx d.port 1).reject (leAt d.payload 4 1) d 2))

/-- The media commands (R551 to R557): a packet of a stream is counted at its port and taken; reports and their interval, a stream's silence, the tick
of a group and its send point each act on the streams they name, and on no others. -/
def Obligations.MediaEvents : Prop :=
  ∀ (s : State) (st : StreamId) (g : MediaGroup),
    (s.stream st = none → (∀ p, exec (.rtpPacket st p) s = .next s) ∧ (∀ r, exec (.rtcpPacket st r) s = .next s) ∧
      exec (.streamTimeout st) s = .next s) ∧
    (∀ x, s.stream st = some x →
      (∀ p, s.ethUp (leAt x.desc 4 1) = true → (leAt x.desc 1 1).testBit 0 = true → p.pt.toNat = leAt x.desc 3 1 →
        leAt x.desc 40 4 = p.ssrc.toNat → leAt x.desc 40 4 ≠ 0 →
        exec (.rtpPacket st p) s = .next ((s.bump regFramesRx (leAt x.desc 4 1) 1).rtpTaken x p)) ∧
      (∀ r : BitVec 32, s.ethUp (leAt x.desc 4 1) = true → exec (.rtcpPacket st r) s =
        .next ((s.bump regFramesRx (leAt x.desc 4 1) 1).modStream x.id fun y => { y with roundTrip := r.toNat })) ∧
      (x.silent = true → exec (.streamTimeout st) s = .next s) ∧
      (∀ u, x.silent = false → (leAt x.desc 1 1).testBit 0 = true → s.ports.silentTime = some u → s.now < u + 1000000000 →
        exec (.streamTimeout st) s = .next (s.modStream x.id fun y => { y with silent := true }))) ∧
    (∀ e : Fin 2, exec (.rtcpIntervalTimer e) s = .next ((s.ports.streams.filter fun x => x.id / 8192 == e.val).foldl (fun t x =>
      t.streamOut x 1 (Config.rtcpReport x.id (leBytes 4 (leAt x.desc 12 4) ++ x.record))) s)) ∧
    (let d := s.groupDesc g
     let k := s.ports.ticks.getD g 0
     (leAt d 0 1 = 0 → exec (.mediaTick g) s = .next s ∧ exec (.txSendPoint g) s = .next s) ∧
     (leAt d 0 1 ≠ 0 → s.groupStreams g = [] → leAt d 8 8 = 0 →
        exec (.mediaTick g) s = .next ((s.modPorts fun p => { p with ticks := p.ticks.set g (k + 1) }).moverMediaEvent true g)) ∧
     (leAt d 0 1 ≠ 0 → leAt d 16 8 ≠ 0 →
        let n := groupF d * leAt d 4 2 * groupW d
        let block := (s.peek (ringBlock d (leAt d 16 8) k) n).getD []
        let noted := (s.noteRead (ringBlock d (leAt d 16 8) k) n).noteOutside (ringBlock d (leAt d 16 8) k) n
        let still (u : State) (x : Stream) : State := u.modStream x.id fun y => { y with txHist := lastSecond ([] :: y.txHist) }
        exec (.txSendPoint g) s = .next (((s.groupStreams g).filter fun x => (leAt x.desc 1 1).testBit 1).foldl
          (fun u x =>
            if x.released.contains k = true then
              if s.ethUp (leAt x.desc 4 1) = true then u.streamSend d block x k else (still u x).streamSend d block x k
            else still u x) noted).settle))

/-- The JTAG instructions (R574, R588): BYPASS and IDCODE always, SAMPLE/PRELOAD of the cells, EXTEST and CLAMP only while JTAG_DIAG is 1 and every
span is UNUSED, and otherwise BYPASS. -/
def Obligations.JtagInstructions : Prop :=
  ∀ (s : State),
    exec .bypass s = .next (({ s with jtag := { s.jtag with instr := 0, drives := false } }).emit (.jtag 1 0)) ∧
    exec .idcode s = .next (({ s with jtag := { s.jtag with instr := 1, drives := false } }).emit
      (.jtag 32 (bits (s.reg regHwRevision 0) 4 4 * 2 ^ 28 + 0x0C30 * 2 ^ 12 + 0xA * 2 ^ 8 + 0x3D * 2 + 1))) ∧
    (∀ v : BitVec 64, exec (.samplePreload (some v)) s = .next { s with jtag := { instr := 2, cells := v.toNat, drives := false } }) ∧
    (let v := (s.free 64).toNat
     exec (.samplePreload none) s = .next (({ s with jtag := { instr := 2, cells := v, drives := false } }).emit (.jtag 64 v)).nextFree) ∧
    (s.reg regJtagDiag 0 = 1 → (∀ k : SpanId, (s.span k).state = .unused) →
      exec .extest s = .next { s with jtag := { s.jtag with instr := 3, drives := true } } ∧
      exec .clamp s = .next (({ s with jtag := { s.jtag with instr := 4, drives := true } }).emit (.jtag 1 0))) ∧
    (s.reg regJtagDiag 0 ≠ 1 → exec .extest s = exec .bypass s ∧ exec .clamp s = exec .bypass s)

/-! ### The queue, reset, and what every step keeps -/

/-- The command at the front of the queue is executed with the queue's rest; on an empty queue one tick of 10 ns passes, which only the operating
time and the device timebase see (R433, R447; the queue and the tick are the model's choice, notes/assumptions/1). -/
def Obligations.StepRunsCommand : Prop :=
  ∀ s : State,
    (∀ c rest, s.pending = c :: rest → step s = exec c { s with pending := rest }) ∧
    (s.pending = [] → ∃ t, step s = .next t ∧ t.supply.opNanos = s.supply.opNanos + (if s.boot.powered then 10 else 0) ∧
      (s.clocks.running = false → t.clocks = s.clocks) ∧
      (s.clocks.running = true → s.clocks.slew = 0 → t.clocks = { s.clocks with time := s.clocks.time + 10 + s.clocks.frac / 1000
                                                                                frac := s.clocks.frac % 1000 }) ∧
      t.fields = s.fields ∧ t.spans = s.spans ∧ t.mem = s.mem ∧ t.regs = s.regs ∧ t.outbox = s.outbox ∧ t.recorder = s.recorder)

/-- The module right after reset (R53, R156, R198, R260, R270, R323, R325, R427, R474, R478, R571): no span exists, every field is DARK with its
sequencer EMPTY, its pier and banks OFF and its mover channels IDLE with register sets of zeros, channels are OFF, sets UNUSED, and every
object holds its default. -/
def Obligations.ResetState : Prop :=
  let s := State.reset
  s.wf = true ∧ s.pending = [] ∧ s.outbox = [] ∧ s.mem = [] ∧ s.boot.powered = false ∧ s.clocks.running = false ∧ s.recorder.die = [] ∧
  (∀ o i j, s.regAt o i j = o.dfltAt i j) ∧
  (∀ k : SpanId, (s.span k).state = .unused ∧ (s.span k).step = none) ∧
  (∀ f : FieldId, (s.field f).state = .dark ∧ (s.field f).seq.state = .empty ∧ (s.field f).power.state = .off ∧
    (∀ b : BankId, ((s.field f).bank b).state = .off) ∧
    (∀ c : Idx16, ((s.field f).mover c).state = .idle ∧ ((s.field f).mover c).active.toBytes = zeros 64 ∧
      ((s.field f).mover c).shadow.toBytes = zeros 64)) ∧
  (∀ c : ChannelId, (s.channel c).state = .off) ∧ (∀ k : SetId, (s.set k).state = .unused)

/-- A well-kept state stays well kept: from every state whose memory and objects are in their canonical forms, whose units have their numbers, and
whose records are numbered as R423 says, every step that answers a next state leads to such a state. -/
def Obligations.StepKeepsInvariant : Prop :=
  ∀ (s t : State), s.wf = true → step s = .next t → t.wf = true

/-- Every command, on any operands and in any state, answers a next state; it leaves the queue of commands alone, takes back nothing that was
sent, uses no free value twice, and never lowers the next SEQ of the recorder (R9, R47, R423). -/
def Obligations.CommandsComplete : Prop :=
  ∀ (c : Instr) (s : State), ∃ t, exec c s = .next t ∧ t.pending = s.pending ∧ (∃ sent, t.outbox = sent ++ s.outbox) ∧
    s.freeCount ≤ t.freeCount ∧ (s.wf = true → s.recorder.nextSeq ≤ t.recorder.nextSeq)

/-- What the vector unit and the turn unit leave alone (R153, R179, R200): an instruction of theirs, whether its operands are good or not, stores
only in the scratchpad of its own pier, and leaves other fields, spans, towers, ports, clocks, power and the control part as they are.  The
instruction issues outside PROLOGUE, is not NOTIFY, and a TURN meets no fault of its unit. -/
def Obligations.UnitFrames : Prop :=
  ∀ (i : Instr) (h : Hdr) (w : Nat) (u : PierUnit) (s t : State), i.issued = some (h, w, some u) → u = .vector ∨ u = .turn →
    (∀ o l, i ≠ .vecNotify h o l) → (∀ n e a b l, i = .moveTurn h n e a b l → l = []) → s.issues h w (some u) = true →
    (s.field h.field).seq.state ≠ .prologue → exec i s = .next t →
    (∀ a, a < scratchKey h.field 0 0 ∨ scratchKey h.field 64 0 ≤ a → t.mem.byte a = s.mem.byte a) ∧
    (∀ g : FieldId, g ≠ h.field → t.field g = s.field g) ∧ t.spans = s.spans ∧ t.towers = s.towers ∧ t.channels = s.channels ∧
    t.sets = s.sets ∧ t.ports = s.ports ∧ t.clocks = s.clocks ∧ t.supply = s.supply ∧ t.boot = s.boot ∧ t.control = s.control ∧
    t.faults = s.faults ∧ t.tests = s.tests ∧ t.jtag = s.jtag

/-- R256 over the requests of R283 that are delivered: an access whose every byte lies in the tower region and in no VALID set returns NACK with no
data, records event 0x0813, and does nothing else.  `t` is the state after the packet's journey. -/
def Obligations.AbsentSets : Prop :=
  ∀ (s : State) (p : Pkt) (addr : BitVec 48), s.delivers p = true → let a := addr.toNat
    let absent (n : Nat) : Prop := 0 < n ∧ addrRegion a = 0 ∧ ∀ i < n, s.setOf (a + i) = none
    let refused (t : State) : State := (t.supEvent 0x0813 []).answer p tyNack nackAbsent []
    (∀ len : BitVec 17, absent len.toNat → exec (.read p addr len) s = .next (refused (s.hauled p 1))) ∧
    (∀ l, absent l.length → exec (.smallWrite p addr l) s = .next (refused (s.hauled p 1)) ∧
      exec (.write p addr l) s = .next (refused (s.hauled p (flitsFor l.length)))) ∧
    (∀ op x y, absent 8 → exec (.atomic p addr op x y) s = .next (refused (s.hauled p 1))) ∧
    (addrRegion a = 0 → (∀ i < 64, s.setOf (a / 64 * 64 + i) = none) → exec (.readback p addr) s = .next (refused (s.hauled p 1)))

/-- R110 and R111 over the 16 element rows that one scale row governs (R112): element k of an ML4 row is bits [4k+3:4k] of the row read as one
little-endian value, so element 2j is the low nibble of byte j; element 5w+k of an ML6 row is bits [6k+5:6k] of word w.  Each reads as its two's
complement value times its block's scale, and as zero in a zero block (R108, R113). -/
def Obligations.ElementRows : Prop :=
  ∀ (l : List Byte) (r : Fin 16),
    let row := slice (512 * (r + 1)) 512 l
    (∀ k : Fin 1024, let s := (l.getD (32 * r + k / 32) 0).toNat
      let e := BitVec.ofNat 4 (ofLe row / 2 ^ (4 * k.val))
      elemAt 0 l (1024 * r + k) = (if s = 255 then .num 0 0 else .num e.toInt (s - 127)) ∧
      (k.val % 2 = 0 → e = BitVec.ofNat 4 (row.getD (k / 2) 0).toNat)) ∧
    (∀ (w : Fin 128) (k : Fin 5), let n := 5 * w.val + k.val
      let s := (l.getD (20 * r + n / 32) 0).toNat
      elemAt 1 l (640 * r + n) =
        if s = 255 then .num 0 0 else .num (BitVec.ofNat 6 (leAt row (4 * w) 4 / 2 ^ (6 * k.val))).toInt (s - 127))
end

