-- ==== Sys2Proof/Laws/Exec.lean ====
section
/-! SUPPORT. The meaning that the dispatch calls for each command, and the two cases of a step. -/

namespace Sys2Proof.Machine

variable (s : State)

theorem exec_pass (h : Hdr) (o : PassOp) : exec (.pass h o) s = execPass h o s := rfl
theorem exec_vecConvert (h : Hdr) (o : VecOp) : exec (.vecConvert h o) s = execVecConvert h o s := rfl
theorem exec_vecAdd (h : Hdr) (o : VecOp) : exec (.vecAdd h o) s = execVecAdd h o s := rfl
theorem exec_vecMul (h : Hdr) (o : VecOp) : exec (.vecMul h o) s = execVecMul h o s := rfl
theorem exec_vecRmsnorm (h : Hdr) (o : VecOp) : exec (.vecRmsnorm h o) s = execVecRmsnorm h o s := rfl
theorem exec_vecAddnorm (h : Hdr) (o : VecOp) : exec (.vecAddnorm h o) s = execVecAddnorm h o s := rfl
theorem exec_vecLayernorm (h : Hdr) (o : VecOp) : exec (.vecLayernorm h o) s = execVecLayernorm h o s := rfl
theorem exec_vecSoftmax (h : Hdr) (o : VecOp) : exec (.vecSoftmax h o) s = execVecSoftmax h o s := rfl
theorem exec_vecSwiglu (h : Hdr) (o : VecOp) : exec (.vecSwiglu h o) s = execVecSwiglu h o s := rfl
theorem exec_vecGelu (h : Hdr) (o : VecOp) : exec (.vecGelu h o) s = execVecGelu h o s := rfl
theorem exec_vecRotary (h : Hdr) (o : VecOp) : exec (.vecRotary h o) s = execVecRotary h o s := rfl
theorem exec_vecTreemask (h : Hdr) (o : VecOp) : exec (.vecTreemask h o) s = execVecTreemask h o s := rfl
theorem exec_vecTopk (h : Hdr) (o : VecOp) : exec (.vecTopk h o) s = execVecTopk h o s := rfl
theorem exec_vecSample (h : Hdr) (o : VecOp) : exec (.vecSample h o) s = execVecSample h o s := rfl
theorem exec_vecGather (h : Hdr) (o : VecOp) : exec (.vecGather h o) s = execVecGather h o s := rfl
theorem exec_vecNotify (h : Hdr) (o : VecOp) (sampled : List SampledSeq) : exec (.vecNotify h o sampled) s = execVecNotify h o sampled s := rfl
theorem exec_moveCopy (h : Hdr) (count : BitVec 12) (src dst : Opnd) : exec (.moveCopy h count src dst) s = execMoveCopy h count src dst s := rfl
theorem exec_moveTurn (h : Hdr) (count : BitVec 12) (esize : Fin 4) (src dst : Opnd) (faults : List TurnFault) : exec (.moveTurn h count esize src dst faults) s = execMoveTurn h count esize src dst faults s := rfl
theorem exec_moveFill (h : Hdr) (count : BitVec 12) (dst : Opnd) : exec (.moveFill h count dst) s = execMoveFill h count dst s := rfl
theorem exec_fetchLinear (h : Hdr) (ra : Bool) (t : TowerOpnd) (dst : Opnd) : exec (.fetchLinear h ra t dst) s = execFetchLinear h ra t dst s := rfl
theorem exec_fetchList (h : Hdr) (ra : Bool) (count : BitVec 6) (list dst : Opnd) : exec (.fetchList h ra count list dst) s = execFetchList h ra count list dst s := rfl
theorem exec_sendRows (h : Hdr) (o : SendOp) : exec (.sendRows h o) s = execSendRows h o s := rfl
theorem exec_sendSignal (h : Hdr) (target : BitVec 8) (chan : Idx16) : exec (.sendSignal h target chan) s = execSendSignal h target chan s := rfl
theorem exec_sendStore (h : Hdr) (t : TowerOpnd) (src : Opnd) : exec (.sendStore h t src) s = execSendStore h t src s := rfl
theorem exec_sendMcast (h : Hdr) (o : SendOp) : exec (.sendMcast h o) s = execSendMcast h o s := rfl
theorem exec_recvRows (h : Hdr) (chan : Idx16) (count : BitVec 12) : exec (.recvRows h chan count) s = execRecvRows h chan count s := rfl
theorem exec_recvSignal (h : Hdr) (chan : Idx16) (count : BitVec 12) : exec (.recvSignal h chan count) s = execRecvSignal h chan count s := rfl
theorem exec_collReduce (h : Hdr) (o : CollOp) : exec (.collReduce h o) s = execCollReduce h o s := rfl
theorem exec_collAllreduce (h : Hdr) (o : CollOp) : exec (.collAllreduce h o) s = execCollAllreduce h o s := rfl
theorem exec_collAllgather (h : Hdr) (o : CollOp) : exec (.collAllgather h o) s = execCollAllgather h o s := rfl
theorem exec_collBroadcast (h : Hdr) (o : CollOp) : exec (.collBroadcast h o) s = execCollBroadcast h o s := rfl
theorem exec_syncSpan (h : Hdr) : exec (.syncSpan h) s = execSyncSpan h s := rfl
theorem exec_syncGroup (h : Hdr) (group : BitVec 8) : exec (.syncGroup h group) s = execSyncGroup h group s := rfl
theorem exec_syncLocal (h : Hdr) : exec (.syncLocal h) s = execSyncLocal h s := rfl
theorem exec_checkWait (h : Hdr) : exec (.checkWait h) s = execCheckWait h s := rfl
theorem exec_checkForce (h : Hdr) : exec (.checkForce h) s = execCheckForce h s := rfl
theorem exec_checkWindow (h : Hdr) (ireg : Idx16) : exec (.checkWindow h ireg) s = execCheckWindow h ireg s := rfl
theorem exec_phase (h : Hdr) (code : BitVec 3) : exec (.phase h code) s = execPhase h code s := rfl
theorem exec_commit (h : Hdr) (outTail reqHead : Word32) (more : Bool) : exec (.commit h outTail reqHead more) s = execCommit h outTail reqHead more s := rfl
theorem exec_stepNext (h : Hdr) : exec (.stepNext h) s = execStepNext h s := rfl
theorem exec_stepBase (h : Hdr) (ireg : Idx16) (modulus : BitVec 8) (base : BitVec 48) (stride : BitVec 32) : exec (.stepBase h ireg modulus base stride) s = execStepBase h ireg modulus base stride s := rfl
theorem exec_stepAdd (h : Hdr) (ireg : Idx16) (imm : BitVec 48) : exec (.stepAdd h ireg imm) s = execStepAdd h ireg imm s := rfl
theorem exec_stepLoop (h : Hdr) (lc : Fin 4) (iter : BitVec 16) : exec (.stepLoop h lc iter) s = execStepLoop h lc iter s := rfl
theorem exec_stepEndloop (h : Hdr) (lc : Fin 4) (target : BitVec 14) : exec (.stepEndloop h lc target) s = execStepEndloop h lc target s := rfl
theorem exec_stepJump (h : Hdr) (target : BitVec 14) : exec (.stepJump h target) s = execStepJump h target s := rfl
theorem exec_stepLdx (h : Hdr) (ireg : Idx16) (src : Opnd) (word : BitVec 6) : exec (.stepLdx h ireg src word) s = execStepLdx h ireg src word s := rfl
theorem exec_unitCompletion (f : FieldId) (done : Completion) : exec (.unitCompletion f done) s = execUnitCompletion f done s := rfl
theorem exec_progmemScrub (f : FieldId) (found : EccResult) : exec (.progmemScrub f found) s = execProgmemScrub f found s := rfl
theorem exec_progmemRewriteDone (f : FieldId) : exec (.progmemRewriteDone f) s = execProgmemRewriteDone f s := rfl
theorem exec_programLoad (f : FieldId) (image : BitVec 48) : exec (.programLoad f image) s = execProgramLoad f image s := rfl
theorem exec_checksumVerdict (f : FieldId) (pass : BitVec 16) (faults : List CellFault) : exec (.checksumVerdict f pass faults) s = execChecksumVerdict f pass faults s := rfl
theorem exec_vectorVerdict (f : FieldId) (q : BitVec 16) (faults : List LaneFault) : exec (.vectorVerdict f q faults) s = execVectorVerdict f q faults s := rfl
theorem exec_readyReport (f : FieldId) : exec (.readyReport f) s = execReadyReport f s := rfl
theorem exec_keystoneReadbackDone (sp : SpanId) : exec (.keystoneReadbackDone sp) s = execKeystoneReadbackDone sp s := rfl
theorem exec_commitTimeout (sp : SpanId) : exec (.commitTimeout sp) s = execCommitTimeout sp s := rfl
theorem exec_pierCommitTimeout (f : FieldId) : exec (.pierCommitTimeout f) s = execPierCommitTimeout f s := rfl
theorem exec_abortDone (f : FieldId) : exec (.abortDone f) s = execAbortDone f s := rfl
theorem exec_epochWaitEnd (sp : SpanId) : exec (.epochWaitEnd sp) s = execEpochWaitEnd sp s := rfl
theorem exec_spanDrained (sp : SpanId) : exec (.spanDrained sp) s = execSpanDrained sp s := rfl
theorem exec_weightLoadDone (sp : SpanId) (result : ReloadResult) : exec (.weightLoadDone sp result) s = execWeightLoadDone sp result s := rfl
theorem exec_requestArrival (sp : SpanId) : exec (.requestArrival sp) s = execRequestArrival sp s := rfl
theorem exec_spinThresholdExpiry (f : FieldId) : exec (.spinThresholdExpiry f) s = execSpinThresholdExpiry f s := rfl
theorem exec_spinRampEnd (f : FieldId) : exec (.spinRampEnd f) s = execSpinRampEnd f s := rfl
theorem exec_preRampDone (f : FieldId) : exec (.preRampDone f) s = execPreRampDone f s := rfl
theorem exec_bankAccess (f : FieldId) (b : BankId) (row : BitVec 16) (m : BankMaster) (op : BankOp) (ecc : EccResult) : exec (.bankAccess f b row m op ecc) s = execBankAccess f b row m op ecc s := rfl
theorem exec_accessAged (f : FieldId) (b : BankId) : exec (.accessAged f b) s = execAccessAged f b s := rfl
theorem exec_scrubRead (f : FieldId) (b : BankId) (ecc : EccResult) : exec (.scrubRead f b ecc) s = execScrubRead f b ecc s := rfl
theorem exec_retainScrubDue (f : FieldId) (b : BankId) : exec (.retainScrubDue f b) s = execRetainScrubDue f b s := rfl
theorem exec_rowRepair (f : FieldId) (b : BankId) (row : BitVec 16) (rowGood : Bool) : exec (.rowRepair f b row rowGood) s = execRowRepair f b row rowGood s := rfl
theorem exec_bankDrained (f : FieldId) (b : BankId) : exec (.bankDrained f b) s = execBankDrained f b s := rfl
theorem exec_bankWakeDone (f : FieldId) (b : BankId) : exec (.bankWakeDone f b) s = execBankWakeDone f b s := rfl
theorem exec_read (p : Pkt) (addr : BitVec 48) (len : BitVec 17) : exec (.read p addr len) s = execRead p addr len s := rfl
theorem exec_atomic (p : Pkt) (addr : BitVec 48) (op : AtomicOp) (a b : Word64) : exec (.atomic p addr op a b) s = execAtomic p addr op a b s := rfl
theorem exec_smallWrite (p : Pkt) (addr : BitVec 48) (bytes : List Byte) : exec (.smallWrite p addr bytes) s = execSmallWrite p addr bytes s := rfl
theorem exec_signal (p : Pkt) (f : FieldId) (chan : Idx16) : exec (.signal p f chan) s = execSignal p f chan s := rfl
theorem exec_arrive (p : Pkt) (group : BitVec 8) (seq : BitVec 16) (count : BitVec 16) : exec (.arrive p group seq count) s = execArrive p group seq count s := rfl
theorem exec_report (p : Pkt) (kind : ReportKind) (count : BitVec 16) (status : BitVec 16) (window : BitVec 32) : exec (.report p kind count status window) s = execReport p kind count status window s := rfl
theorem exec_release (p : Pkt) (f : FieldId) (group : BitVec 8) (seq : BitVec 16) : exec (.release p f group seq) s = execRelease p f group seq s := rfl
theorem exec_advance (p : Pkt) (dest : AdvanceDest) (windowStart : Word64) : exec (.advance p dest windowStart) s = execAdvance p dest windowStart s := rfl
theorem exec_abort (p : Pkt) (f : FieldId) : exec (.abort p f) s = execAbort p f s := rfl
theorem exec_openMsg (p : Pkt) (f : FieldId) (windowStart : Word64) : exec (.openMsg p f windowStart) s = execOpenMsg p f windowStart s := rfl
theorem exec_slip (p : Pkt) (f : FieldId) : exec (.slip p f) s = execSlip p f s := rfl
theorem exec_creditReset (p : Pkt) (group : Fin 32) (target : FieldId) : exec (.creditReset p group target) s = execCreditReset p group target s := rfl
theorem exec_readData (p : Pkt) (bytes : List Byte) : exec (.readData p bytes) s = execReadData p bytes s := rfl
theorem exec_ack (p : Pkt) (old : Word64) : exec (.ack p old) s = execAck p old s := rfl
theorem exec_nack (p : Pkt) (code : BitVec 8) : exec (.nack p code) s = execNack p code s := rfl
theorem exec_mcastAck (p : Pkt) (group : Fin 32) (target : FieldId) : exec (.mcastAck p group target) s = execMcastAck p group target s := rfl
theorem exec_write (p : Pkt) (addr : BitVec 48) (bytes : List Byte) : exec (.write p addr bytes) s = execWrite p addr bytes s := rfl
theorem exec_rows (p : Pkt) (f : FieldId) (chan : Idx16) (rdst : BitVec 22) (bytes : List Byte) : exec (.rows p f chan rdst bytes) s = execRows p f chan rdst bytes s := rfl
theorem exec_readback (p : Pkt) (addr : BitVec 48) : exec (.readback p addr) s = execReadback p addr s := rfl
theorem exec_mcastData (p : Pkt) (f : FieldId) (group : Fin 32) (chan : Idx16) (rdst : BitVec 22) (bytes : List Byte) : exec (.mcastData p f group chan rdst bytes) s = execMcastData p f group chan rdst bytes s := rfl
theorem exec_collData (p : Pkt) (f : FieldId) (c : CollHdr) (bytes : List Byte) : exec (.collData p f c bytes) s = execCollData p f c bytes s := rfl
theorem exec_eventNotice (src : BitVec 12) : exec (.eventNotice src) s = execEventNotice src s := rfl
theorem exec_pairingNotice (dst : SpanId) (src : SpanId) (step : Word64) : exec (.pairingNotice dst src step) s = execPairingNotice dst src step s := rfl
theorem exec_proposalTimeout (sp : SpanId) : exec (.proposalTimeout sp) s = execProposalTimeout sp s := rfl
theorem exec_linkReplay (r : RouterId) (d : LinkDir) (wires : List (BitVec 12)) (failed : Bool) : exec (.linkReplay r d wires failed) s = execLinkReplay r d wires failed s := rfl
theorem exec_linkRepairDone (r : RouterId) (d : LinkDir) (ok : Bool) : exec (.linkRepairDone r d ok) s = execLinkRepairDone r d ok s := rfl
theorem exec_responseTimeout (p : Pkt) : exec (.responseTimeout p) s = execResponseTimeout p s := rfl
theorem exec_mcastTargetTimeout (sp : SpanId) (group : Fin 32) (target : FieldId) : exec (.mcastTargetTimeout sp group target) s = execMcastTargetTimeout sp group target s := rfl
theorem exec_timetableLoad (sp : SpanId) : exec (.timetableLoad sp) s = execTimetableLoad sp s := rfl
theorem exec_timetableWindowStart (sp : SpanId) : exec (.timetableWindowStart sp) s = execTimetableWindowStart sp s := rfl
theorem exec_timetableSlot (f : FieldId) (ready : Bool) : exec (.timetableSlot f ready) s = execTimetableSlot f ready s := rfl
theorem exec_timetableWindowEnd (sp : SpanId) : exec (.timetableWindowEnd sp) s = execTimetableWindowEnd sp s := rfl
theorem exec_go (p : Pkt) (f : FieldId) (ch : Idx16) : exec (.go p f ch) s = execGo p f ch s := rfl
theorem exec_armShadow (p : Pkt) (f : FieldId) (ch : Idx16) : exec (.armShadow p f ch) s = execArmShadow p f ch s := rfl
theorem exec_stop (p : Pkt) (f : FieldId) (ch : Idx16) : exec (.stop p f ch) s = execStop p f ch s := rfl
theorem exec_clear (p : Pkt) (f : FieldId) (ch : Idx16) : exec (.clear p f ch) s = execClear p f ch s := rfl
theorem exec_registerSetWrite (p : Pkt) (f : FieldId) (ch : Idx16) (shadow : Bool) (offset : BitVec 6) (bytes : List Byte) : exec (.registerSetWrite p f ch shadow offset bytes) s = execRegisterSetWrite p f ch shadow offset bytes s := rfl
theorem exec_moverTimer (f : FieldId) (ch : Idx16) : exec (.moverTimer f ch) s = execMoverTimer f ch s := rfl
theorem exec_moverResume (f : FieldId) (ch : Idx16) : exec (.moverResume f ch) s = execMoverResume f ch s := rfl
theorem exec_moverLastWrite (f : FieldId) (ch : Idx16) : exec (.moverLastWrite f ch) s = execMoverLastWrite f ch s := rfl
theorem exec_moverComplete (f : FieldId) (ch : Idx16) : exec (.moverComplete f ch) s = execMoverComplete f ch s := rfl
theorem exec_moverStopped (f : FieldId) (ch : Idx16) : exec (.moverStopped f ch) s = execMoverStopped f ch s := rfl
theorem exec_mailboxWrite (p : Pkt) (f : FieldId) (offset : BitVec 12) (bytes : List Byte) : exec (.mailboxWrite p f offset bytes) s = execMailboxWrite p f offset bytes s := rfl
theorem exec_supervisorSwap (r : Req) (value : List Byte) : exec (.supervisorSwap r value) s = execSupervisorSwap r value s := rfl
theorem exec_create (r : Req) (sp : SpanId) : exec (.create r sp) s = execCreate r sp s := rfl
theorem exec_spanReset (r : Req) (sp : SpanId) : exec (.spanReset r sp) s = execSpanReset r sp s := rfl
theorem exec_spanDelete (r : Req) (sp : SpanId) : exec (.spanDelete r sp) s = execSpanDelete r sp s := rfl
theorem exec_pause (r : Req) (sp : SpanId) (value : List Byte) : exec (.pause r sp value) s = execPause r sp value s := rfl
theorem exec_stepVariant (r : Req) (sp : SpanId) (value : List Byte) : exec (.stepVariant r sp value) s = execStepVariant r sp value s := rfl
theorem exec_coreSpan (r : Req) (f : FieldId) (value : List Byte) : exec (.coreSpan r f value) s = execCoreSpan r f value s := rfl
theorem exec_accessEntry (r : Req) (target : BitVec 8) (e : Fin 64) (value : List Byte) : exec (.accessEntry r target e value) s = execAccessEntry r target e value s := rfl
theorem exec_setDesc (r : Req) (k : SetId) (value : List Byte) : exec (.setDesc r k value) s = execSetDesc r k value s := rfl
theorem exec_checkProfile (r : Req) (sp : SpanId) (value : List Byte) : exec (.checkProfile r sp value) s = execCheckProfile r sp value s := rfl
theorem exec_predReset (r : Req) (sp : SpanId) (value : List Byte) : exec (.predReset r sp value) s = execPredReset r sp value s := rfl
theorem exec_spinEnable (r : Req) (f : FieldId) (value : List Byte) : exec (.spinEnable r f value) s = execSpinEnable r f value s := rfl
theorem exec_bankPower (r : Req) (f : FieldId) (value : List Byte) : exec (.bankPower r f value) s = execBankPower r f value s := rfl
theorem exec_retireUnit (r : Req) (value : List Byte) : exec (.retireUnit r value) s = execRetireUnit r value s := rfl
theorem exec_digestPassEnd (f : FieldId) : exec (.digestPassEnd f) s = execDigestPassEnd f s := rfl
theorem exec_weightRewriteDone (f : FieldId) (b : BankId) (result : ReloadResult) : exec (.weightRewriteDone f b result) s = execWeightRewriteDone f b result s := rfl
theorem exec_segmentStart (f : FieldId) (unit : BitVec 8) (pattern : Word32) : exec (.segmentStart f unit pattern) s = execSegmentStart f unit pattern s := rfl
theorem exec_segmentEnd (f : FieldId) (passed : Bool) (charged : Word32) : exec (.segmentEnd f passed charged) s = execSegmentEnd f passed charged s := rfl
theorem exec_coverageOverdue (f : FieldId) : exec (.coverageOverdue f) s = execCoverageOverdue f s := rfl
theorem exec_diagnosticTestDone (unit : Word32) (found : Findings) : exec (.diagnosticTestDone unit found) s = execDiagnosticTestDone unit found s := rfl
theorem exec_probeTimeout (f : FieldId) : exec (.probeTimeout f) s = execProbeTimeout f s := rfl
theorem exec_spareReloadDone (sp : SpanId) (result : ReloadResult) : exec (.spareReloadDone sp result) s = execSpareReloadDone sp result s := rfl
theorem exec_planReloadDone (sp : SpanId) (result : ReloadResult) : exec (.planReloadDone sp result) s = execPlanReloadDone sp result s := rfl
theorem exec_windowRead (r : Req) : exec (.windowRead r) s = execWindowRead r s := rfl
theorem exec_historyClear (r : Req) (value : List Byte) : exec (.historyClear r value) s = execHistoryClear r value s := rfl
theorem exec_refCopyBad (c : RefCopy) : exec (.refCopyBad c) s = execRefCopyBad c s := rfl
theorem exec_refCopyGood (c : RefCopy) : exec (.refCopyGood c) s = execRefCopyGood c s := rfl
theorem exec_drawbridgeStart (f : FieldId) : exec (.drawbridgeStart f) s = execDrawbridgeStart f s := rfl
theorem exec_drawbridgeEnd (f : FieldId) (ns : BitVec 16) : exec (.drawbridgeEnd f ns) s = execDrawbridgeEnd f ns s := rfl
theorem exec_pllLockTimeout (f : FieldId) : exec (.pllLockTimeout f) s = execPllLockTimeout f s := rfl
theorem exec_droopDetect (f : FieldId) : exec (.droopDetect f) s = execDroopDetect f s := rfl
theorem exec_stretchEnd (f : FieldId) (periods : Word32) (overQuarter : Bool) : exec (.stretchEnd f periods overQuarter) s = execStretchEnd f periods overQuarter s := rfl
theorem exec_beacon (f : FieldId) (error : BitVec 64) : exec (.beacon f error) s = execBeacon f error s := rfl
theorem exec_beaconNotice (f : FieldId) (value : Word64) : exec (.beaconNotice f value) s = execBeaconNotice f value s := rfl
theorem exec_ptpSync (offset : BitVec 64) : exec (.ptpSync offset) s = execPtpSync offset s := rfl
theorem exec_ptpDelayResponse (delay : Word32) : exec (.ptpDelayResponse delay) s = execPtpDelayResponse delay s := rfl
theorem exec_ptpAnnounce (identity : Word64) : exec (.ptpAnnounce identity) s = execPtpAnnounce identity s := rfl
theorem exec_inputUndervoltage (millivolts : Word16) : exec (.inputUndervoltage millivolts) s = execInputUndervoltage millivolts s := rfl
theorem exec_inputOvervoltage (millivolts : Word16) : exec (.inputOvervoltage millivolts) s = execInputOvervoltage millivolts s := rfl
theorem exec_regCellTrip (f : FieldId) (cell : Idx16) : exec (.regCellTrip f cell) s = execRegCellTrip f cell s := rfl
theorem exec_regCellRestart (f : FieldId) (cell : Idx16) : exec (.regCellRestart f cell) s = execRegCellRestart f cell s := rfl
theorem exec_contactCheck (f : FieldId) (g : Fin 24) (departure : BitVec 16) : exec (.contactCheck f g departure) s = execContactCheck f g departure s := rfl
theorem exec_contactCalibration (models : List Word32) : exec (.contactCalibration models) s = execContactCalibration models s := rfl
theorem exec_vminSample (f : FieldId) (rail : Rail) (millivolts : Word16) : exec (.vminSample f rail millivolts) s = execVminSample f rail millivolts s := rfl
theorem exec_vminClear (r : Req) (f : FieldId) (value : List Byte) : exec (.vminClear r f value) s = execVminClear r f value s := rfl
theorem exec_ageingCheck (f : FieldId) (mhz : Word16) : exec (.ageingCheck f mhz) s = execAgeingCheck f mhz s := rfl
theorem exec_voltageSlewDone (f : FieldId) : exec (.voltageSlewDone f) s = execVoltageSlewDone f s := rfl
theorem exec_phaseHoldExpiry (f : FieldId) : exec (.phaseHoldExpiry f) s = execPhaseHoldExpiry f s := rfl
theorem exec_guardBand (r : Req) (value : List Byte) : exec (.guardBand r value) s = execGuardBand r value s := rfl
theorem exec_powerCap (r : Req) (value : List Byte) : exec (.powerCap r value) s = execPowerCap r value s := rfl
theorem exec_capControlInterval (milliwatts : Word32) (pierMilliamps : List Word32) : exec (.capControlInterval milliwatts pierMilliamps) s = execCapControlInterval milliwatts pierMilliamps s := rfl
theorem exec_pierPowerRequest (r : Req) (f : FieldId) (value : List Byte) : exec (.pierPowerRequest r f value) s = execPierPowerRequest r f value s := rfl
theorem exec_admissionCheck (f : FieldId) (zoneMilliamps : Word32) : exec (.admissionCheck f zoneMilliamps) s = execAdmissionCheck f zoneMilliamps s := rfl
theorem exec_admissionTimeout (f : FieldId) : exec (.admissionTimeout f) s = execAdmissionTimeout f s := rfl
theorem exec_pierStageDone (f : FieldId) : exec (.pierStageDone f) s = execPierStageDone f s := rfl
theorem exec_junctionSample (f : FieldId) (millidegrees : Word32) : exec (.junctionSample f millidegrees) s = execJunctionSample f millidegrees s := rfl
theorem exec_thermalRelease (f : FieldId) : exec (.thermalRelease f) s = execThermalRelease f s := rfl
theorem exec_heatKeystoneTimeout (sp : SpanId) : exec (.heatKeystoneTimeout sp) s = execHeatKeystoneTimeout sp s := rfl
theorem exec_heatSwapExpiry (f : FieldId) : exec (.heatSwapExpiry f) s = execHeatSwapExpiry f s := rfl
theorem exec_fieldHeatRelease (f : FieldId) : exec (.fieldHeatRelease f) s = execFieldHeatRelease f s := rfl
theorem exec_fieldUp (f : FieldId) : exec (.fieldUp f) s = execFieldUp f s := rfl
theorem exec_fieldWakeTimeout (f : FieldId) : exec (.fieldWakeTimeout f) s = execFieldWakeTimeout f s := rfl
theorem exec_bringupStepDone (report : StepReport) : exec (.bringupStepDone report) s = execBringupStepDone report s := rfl
theorem exec_spanlinkRetry (p : LinkId) : exec (.spanlinkRetry p) s = execSpanlinkRetry p s := rfl
theorem exec_stageOpen (r : Req) : exec (.stageOpen r) s = execStageOpen r s := rfl
theorem exec_stageVerify (r : Req) : exec (.stageVerify r) s = execStageVerify r s := rfl
theorem exec_stageAbort (r : Req) : exec (.stageAbort r) s = execStageAbort r s := rfl
theorem exec_stageChunk (r : Req) (value : List Byte) : exec (.stageChunk r value) s = execStageChunk r value s := rfl
theorem exec_stagingWindowWrite (offset : BitVec 25) (bytes : List Byte) : exec (.stagingWindowWrite offset bytes) s = execStagingWindowWrite offset bytes s := rfl
theorem exec_activateTime (r : Req) (value : List Byte) : exec (.activateTime r value) s = execActivateTime r value s := rfl
theorem exec_fieldRestart (f : FieldId) : exec (.fieldRestart f) s = execFieldRestart f s := rfl
theorem exec_fieldRestartDone (f : FieldId) : exec (.fieldRestartDone f) s = execFieldRestartDone f s := rfl
theorem exec_fieldRestartTimeout (f : FieldId) : exec (.fieldRestartTimeout f) s = execFieldRestartTimeout f s := rfl
theorem exec_attestNonce (r : Req) (value : List Byte) : exec (.attestNonce r value) s = execAttestNonce r value s := rfl
theorem exec_linkSavedClear (r : Req) (value : List Byte) : exec (.linkSavedClear r value) s = execLinkSavedClear r value s := rfl
theorem exec_dictRead (r : Req) (index : BitVec 16) (sub : BitVec 8) (offset length : Word32) : exec (.dictRead r index sub offset length) s = execDictRead r index sub offset length s := rfl
theorem exec_dictWrite (r : Req) (index : BitVec 16) (sub : BitVec 8) (value : List Byte) : exec (.dictWrite r index sub value) s = execDictWrite r index sub value s := rfl
theorem exec_txBegin (r : Req) : exec (.txBegin r) s = execTxBegin r s := rfl
theorem exec_txCommit (r : Req) : exec (.txCommit r) s = execTxCommit r s := rfl
theorem exec_txAbort (r : Req) : exec (.txAbort r) s = execTxAbort r s := rfl
theorem exec_summary (r : Req) (length : Word32) : exec (.summary r length) s = execSummary r length s := rfl
theorem exec_describe (r : Req) (index : BitVec 16) (sub : BitVec 8) : exec (.describe r index sub) s = execDescribe r index sub s := rfl
theorem exec_nop (r : Req) : exec (.nop r) s = execNop r s := rfl
theorem exec_hello (port : Fin 2) (slot : BitVec 8) (clientNonce deviceNonce : List Byte) : exec (.hello port slot clientNonce deviceNonce) s = execHello port slot clientNonce deviceNonce s := rfl
theorem exec_auth (session : Idx16) (tag : List Byte) : exec (.auth session tag) s = execAuth session tag s := rfl
theorem exec_close (session : Idx16) : exec (.close session) s = execClose session s := rfl
theorem exec_txTimeout (master : BitVec 12) : exec (.txTimeout master) s = execTxTimeout master s := rfl
theorem exec_sessionIdleTimeout (session : Idx16) : exec (.sessionIdleTimeout session) s = execSessionIdleTimeout session s := rfl
theorem exec_keySlotUnlock (slot : Fin 8) : exec (.keySlotUnlock slot) s = execKeySlotUnlock slot s := rfl
theorem exec_frozenCopyExpiry (master : BitVec 12) : exec (.frozenCopyExpiry master) s = execFrozenCopyExpiry master s := rfl
theorem exec_mgmtKey (r : Req) (slot : Fin 8) (value : List Byte) : exec (.mgmtKey r slot value) s = execMgmtKey r slot value s := rfl
theorem exec_submit (slot : Slot) (master : BitVec 12) (request : List Byte) : exec (.submit slot master request) s = execSubmit slot master request s := rfl
theorem exec_irqStatusClear (mask : Word32) : exec (.irqStatusClear mask) s = execIrqStatusClear mask s := rfl
theorem exec_ethMode (r : Req) (e : EthId) (value : List Byte) : exec (.ethMode r e value) s = execEthMode r e value s := rfl
theorem exec_ethLinkUp (e : EthId) : exec (.ethLinkUp e) s = execEthLinkUp e s := rfl
theorem exec_ethLinkDown (e : EthId) (retiredLane : Option Idx16) : exec (.ethLinkDown e retiredLane) s = execEthLinkDown e retiredLane s := rfl
theorem exec_start (d : Datagram) : exec (.start d) s = execStart d s := rfl
theorem exec_append (d : Datagram) : exec (.append d) s = execAppend d s := rfl
theorem exec_endSeq (d : Datagram) : exec (.endSeq d) s = execEndSeq d s := rfl
theorem exec_cancel (d : Datagram) : exec (.cancel d) s = execCancel d s := rfl
theorem exec_rtpPacket (st : StreamId) (p : RtpPkt) : exec (.rtpPacket st p) s = execRtpPacket st p s := rfl
theorem exec_rtcpPacket (st : StreamId) (roundTrip : Word32) : exec (.rtcpPacket st roundTrip) s = execRtcpPacket st roundTrip s := rfl
theorem exec_rtcpIntervalTimer (engine : Fin 2) : exec (.rtcpIntervalTimer engine) s = execRtcpIntervalTimer engine s := rfl
theorem exec_streamTimeout (st : StreamId) : exec (.streamTimeout st) s = execStreamTimeout st s := rfl
theorem exec_mediaTick (g : MediaGroup) : exec (.mediaTick g) s = execMediaTick g s := rfl
theorem exec_txSendPoint (g : MediaGroup) : exec (.txSendPoint g) s = execTxSendPoint g s := rfl
theorem exec_streamDesc (r : Req) (value : List Byte) : exec (.streamDesc r value) s = execStreamDesc r value s := rfl
theorem exec_groupDesc (r : Req) (g : MediaGroup) (value : List Byte) : exec (.groupDesc r g value) s = execGroupDesc r g value s := rfl
theorem exec_spanlinkTrainingDone (p : LinkId) (answered : Bool) (goodLanes : BitVec 16) (serial : Word64) (peerPort : BitVec 8) (crossNs : Word32) : exec (.spanlinkTrainingDone p answered goodLanes serial peerPort crossNs) s = execSpanlinkTrainingDone p answered goodLanes serial peerPort crossNs s := rfl
theorem exec_spanlinkFlitReplay (p : LinkId) (failed : Bool) : exec (.spanlinkFlitReplay p failed) s = execSpanlinkFlitReplay p failed s := rfl
theorem exec_spanlinkFault (p : LinkId) : exec (.spanlinkFault p) s = execSpanlinkFault p s := rfl
theorem exec_spanlinkRetrainTimeout (p : LinkId) : exec (.spanlinkRetrainTimeout p) s = execSpanlinkRetrainTimeout p s := rfl
theorem exec_spanlinkPacket (p : LinkId) (inbound : Bool) (type : BitVec 8) (k : Pkt) (addr : BitVec 48) : exec (.spanlinkPacket p inbound type k addr) s = execSpanlinkPacket p inbound type k addr s := rfl
theorem exec_towerAccess (c : ChannelId) (granule : BitVec 28) (op : GranuleOp) (errs : SymbolErrors) : exec (.towerAccess c granule op errs) s = execTowerAccess c granule op errs s := rfl
theorem exec_towerAccessAged (c : ChannelId) : exec (.towerAccessAged c) s = execTowerAccessAged c s := rfl
theorem exec_edcReplay (c : ChannelId) (failed : Bool) : exec (.edcReplay c failed) s = execEdcReplay c failed s := rfl
theorem exec_patrolScrub (c : ChannelId) (errs : SymbolErrors) : exec (.patrolScrub c errs) s = execPatrolScrub c errs s := rfl
theorem exec_channelTrainingDone (c : ChannelId) (passed : Bool) : exec (.channelTrainingDone c passed) s = execChannelTrainingDone c passed s := rfl
theorem exec_towerTestDone (t : TowerId) (passed : Bool) : exec (.towerTestDone t passed) s = execTowerTestDone t passed s := rfl
theorem exec_retrainDone (c : ChannelId) (micros : Word32) : exec (.retrainDone c micros) s = execRetrainDone c micros s := rfl
theorem exec_retrainTryTimeout (c : ChannelId) : exec (.retrainTryTimeout c) s = execRetrainTryTimeout c s := rfl
theorem exec_remapFill (k : SetId) : exec (.remapFill k) s = execRemapFill k s := rfl
theorem exec_reserveRefill (k : SetId) : exec (.reserveRefill k) s = execReserveRefill k s := rfl
theorem exec_coolantSample (inlet outlet : Word32) (flow : Option Word32) : exec (.coolantSample inlet outlet flow) s = execCoolantSample inlet outlet flow s := rfl
theorem exec_samplePreload (preload : Option Word64) : exec (.samplePreload preload) s = execSamplePreload preload s := rfl
theorem exec_diag (request : List Byte) : exec (.diag request) s = execDiag request s := rfl
theorem exec_towerDieTemperatureSample (t : TowerId) (millidegrees : Word32) : exec (.towerDieTemperatureSample t millidegrees) s = execTowerDieTemperatureSample t millidegrees s := rfl
theorem exec_admissionRecheck (f : FieldId) (zoneMilliamps : Word32) : exec (.admissionRecheck f zoneMilliamps) s = execAdmissionRecheck f zoneMilliamps s := rfl
theorem exec_frameReceived (port : FramePort) (kind : OtherFrame) : exec (.frameReceived port kind) s = execFrameReceived port kind s := rfl
theorem exec_t1sLinkChange (p : Fin 2) (up plca : Bool) : exec (.t1sLinkChange p up plca) s = execT1sLinkChange p up plca s := rfl
theorem exec_pcieLinkTrained (rate : BitVec 8) (width : BitVec 4) : exec (.pcieLinkTrained rate width) s = execPcieLinkTrained rate width s := rfl
theorem exec_spanlinkPeerNotice (p : LinkId) (retired : Bool) : exec (.spanlinkPeerNotice p retired) s = execSpanlinkPeerNotice p retired s := rfl
theorem exec_restartKeystoneTimeout (sp : SpanId) : exec (.restartKeystoneTimeout sp) s = execRestartKeystoneTimeout sp s := rfl
theorem exec_supervisorControlPacket (sp : SpanId) (device : Fin 4) (c : PeerControl) : exec (.supervisorControlPacket sp device c) s = execSupervisorControlPacket sp device c s := rfl
theorem exec_bridgedTakeoverTimeout (sp : SpanId) (device : Fin 4) : exec (.bridgedTakeoverTimeout sp device) s = execBridgedTakeoverTimeout sp device s := rfl
theorem exec_routeHoldEnd : exec .routeHoldEnd s = execRouteHoldEnd s := rfl
theorem exec_heartbeat : exec .heartbeat s = execHeartbeat s := rfl
theorem exec_heartbeatTimeout : exec .heartbeatTimeout s = execHeartbeatTimeout s := rfl
theorem exec_flashPageWrite : exec .flashPageWrite s = execFlashPageWrite s := rfl
theorem exec_pageBucketRefill : exec .pageBucketRefill s = execPageBucketRefill s := rfl
theorem exec_refRevert : exec .refRevert s = execRefRevert s := rfl
theorem exec_ptpAnnounceTimeout : exec .ptpAnnounceTimeout s = execPtpAnnounceTimeout s := rfl
theorem exec_undervoltageRelease : exec .undervoltageRelease s = execUndervoltageRelease s := rfl
theorem exec_powerLoss : exec .powerLoss s = execPowerLoss s := rfl
theorem exec_alertAssert : exec .alertAssert s = execAlertAssert s := rfl
theorem exec_alertRelease : exec .alertRelease s = execAlertRelease s := rfl
theorem exec_alertHoldExpiry : exec .alertHoldExpiry s = execAlertHoldExpiry s := rfl
theorem exec_persistCounts : exec .persistCounts s = execPersistCounts s := rfl
theorem exec_powerGood : exec .powerGood s = execPowerGood s := rfl
theorem exec_activationStart : exec .activationStart s = execActivationStart s := rfl
theorem exec_attestTokenRefill : exec .attestTokenRefill s = execAttestTokenRefill s := rfl
theorem exec_summaryCmd : exec .summaryCmd s = execSummaryCmd s := rfl
theorem exec_pcieFunctionReset : exec .pcieFunctionReset s = execPcieFunctionReset s := rfl
theorem exec_modResetN : exec .modResetN s = execModResetN s := rfl
theorem exec_leakDetect : exec .leakDetect s = execLeakDetect s := rfl
theorem exec_bypass : exec .bypass s = execBypass s := rfl
theorem exec_idcode : exec .idcode s = execIdcode s := rfl
theorem exec_extest : exec .extest s = execExtest s := rfl
theorem exec_clamp : exec .clamp s = execClamp s := rfl
theorem exec_supervisorRestartDone : exec .supervisorRestartDone s = execSupervisorRestartDone s := rfl
theorem exec_supervisorStartTimeout : exec .supervisorStartTimeout s = execSupervisorStartTimeout s := rfl
theorem exec_reservedPacketType : exec .reservedPacketType s = execReservedPacketType s := rfl

/-- A step takes the command at the front of the queue. -/
theorem step_cons (c : Instr) (r : List Instr) (k : s.pending = c :: r) : step s = exec c { s with pending := r } := by
  simp [step, k]

/-- A step on an empty queue is a tick. -/
theorem step_nil (k : s.pending = []) : step s = .next (tick s) := by simp [step, k]

end Sys2Proof.Machine
end

