-- ==== Sys2Proof/Laws/Memory.lean ====
section
/-! SUPPORT. The laws of the memory and of the register file: their canonical forms, and what a read answers after a write. -/

namespace Sys2Proof.Machine

/-! ### Memory -/

theorem Memory.wf_iff (m : Memory) : m.wf = true ↔ m.Pairwise (fun a b => a.1 < b.1) ∧ ∀ c ∈ m, c.2 ≠ 0 := by
  induction m with
  | nil => simp [Memory.wf]
  | cons c r ih =>
    cases r with
    | nil => simp [Memory.wf]
    | cons d r =>
      simp only [Memory.wf, Bool.and_eq_true, ih, List.pairwise_cons, bne_iff_ne, decide_eq_true_eq, List.mem_cons]
      constructor
      · rintro ⟨⟨h1, h2⟩, ⟨h3, h4⟩, h5⟩
        refine ⟨⟨?_, h3, h4⟩, ?_⟩
        · rintro x (rfl | hx)
          · exact h2
          · exact lt_trans h2 (h3 x hx)
        · rintro x (rfl | hx)
          · exact h1
          · exact h5 x hx
      · rintro ⟨⟨h1, h3, h4⟩, h5⟩
        exact ⟨⟨h5 c (.inl rfl), h1 d (.inl rfl)⟩, ⟨h3, h4⟩, fun x hx => h5 x (.inr hx)⟩

/-- Dropping cells keeps the canonical form. -/
theorem Memory.wf_filter (m : Memory) (p : Nat × Byte → Bool) (h : m.wf = true) : Memory.wf (m.filter p) = true := by
  rw [Memory.wf_iff] at h ⊢
  exact ⟨h.1.filter p, fun c hc => h.2 c (List.mem_of_mem_filter hc)⟩

theorem Memory.wf_clear (m : Memory) (lo hi : Nat) (h : m.wf = true) : (m.clear lo hi).wf = true := m.wf_filter _ h

theorem cellsFrom_bounds (k : Nat) (l : List Byte) : ∀ c ∈ cellsFrom k l, k ≤ c.1 ∧ c.1 < k + l.length ∧ c.2 ≠ 0 := by
  induction l generalizing k with
  | nil => simp [cellsFrom]
  | cons b r ih =>
    intro c hc
    simp only [cellsFrom] at hc
    split at hc
    · have := ih (k + 1) c hc
      simp only [List.length_cons]; refine ⟨by omega, by omega, this.2.2⟩
    · rcases List.mem_cons.1 hc with rfl | hc
      · simp only [List.length_cons]; exact ⟨le_refl _, by omega, by assumption⟩
      · have := ih (k + 1) c hc
        simp only [List.length_cons]; refine ⟨by omega, by omega, this.2.2⟩

theorem cellsFrom_rising (k : Nat) (l : List Byte) : (cellsFrom k l).Pairwise (fun a b => a.1 < b.1) := by
  induction l generalizing k with
  | nil => simp [cellsFrom]
  | cons b r ih =>
    simp only [cellsFrom]
    split
    · exact ih _
    · refine List.pairwise_cons.2 ⟨fun c hc => ?_, ih _⟩
      have := cellsFrom_bounds (k + 1) r c hc
      simp only; omega

/-- A write keeps the canonical form. -/
theorem Memory.wf_write (m : Memory) (k : Nat) (l : List Byte) (h : m.wf = true) : (m.write k l).wf = true := by
  rw [Memory.wf_iff] at h ⊢
  obtain ⟨hp, hz⟩ := h
  refine ⟨?_, ?_⟩
  · rw [Memory.write, List.append_assoc, List.pairwise_append, List.pairwise_append]
    refine ⟨hp.filter _, ⟨cellsFrom_rising k l, hp.filter _, ?_⟩, ?_⟩
    · intro a ha b hb
      have := cellsFrom_bounds k l a ha
      have := (List.mem_filter.1 hb).2
      simp only [decide_eq_true_eq] at this; omega
    · intro a ha b hb
      have h1 := (List.mem_filter.1 ha).2
      simp only [decide_eq_true_eq] at h1
      rcases List.mem_append.1 hb with hb | hb
      · have := cellsFrom_bounds k l b hb; omega
      · have := (List.mem_filter.1 hb).2
        simp only [decide_eq_true_eq] at this; omega
  · intro c hc
    rcases List.mem_append.1 hc with hc | hc
    · rcases List.mem_append.1 hc with hc | hc
      · exact hz c (List.mem_of_mem_filter hc)
      · exact (cellsFrom_bounds k l c hc).2.2
    · exact hz c (List.mem_of_mem_filter hc)

/-! What one byte reads as is what `lookup` finds, and a lookup passes over parts that do not list the key. -/

theorem lookup_append_left {α : Type} (a b : List (Nat × α)) (k : Nat) (h : ∀ c ∈ b, c.1 ≠ k) :
    (a ++ b).lookup k = a.lookup k := by
  induction a with
  | nil =>
    have : b.lookup k = none := by
      rw [List.lookup_eq_none_iff]
      intro c hc; have := h c hc; simp; omega
    simpa using this
  | cons c r ih => obtain ⟨x, y⟩ := c; simp only [List.cons_append, List.lookup_cons, ih]

theorem lookup_append_right {α : Type} (a b : List (Nat × α)) (k : Nat) (h : ∀ c ∈ a, c.1 ≠ k) :
    (a ++ b).lookup k = b.lookup k := by
  induction a with
  | nil => rfl
  | cons c r ih =>
    obtain ⟨x, y⟩ := c
    have h1 := h (x, y) (List.mem_cons_self ..)
    simp only [List.cons_append, List.lookup_cons]
    have : (k == x) = false := by simpa using fun e => h1 e.symm
    rw [this]
    exact ih fun c hc => h c (List.mem_cons_of_mem _ hc)

theorem lookup_filter {α : Type} (m : List (Nat × α)) (p : Nat × α → Bool) (k : Nat) (h : ∀ x, p (k, x) = true) :
    (m.filter p).lookup k = m.lookup k := by
  induction m with
  | nil => rfl
  | cons c r ih =>
    obtain ⟨x, y⟩ := c
    by_cases hk : k = x
    · subst hk; simp [h]
    · have : (k == x) = false := by simpa using hk
      simp only [List.filter_cons, List.lookup_cons, this]
      split
      · simp only [List.lookup_cons, this]; exact ih
      · exact ih

theorem cellsFrom_lookup (k : Nat) (l : List Byte) (i : Nat) (h : i < l.length) :
    ((cellsFrom k l).lookup (k + i)).getD 0 = l[i] := by
  induction l generalizing k i with
  | nil => simp at h
  | cons b r ih =>
    cases i with
    | zero =>
      have : ∀ c ∈ cellsFrom (k + 1) r, c.1 ≠ k := fun c hc => by have := cellsFrom_bounds (k + 1) r c hc; omega
      simp only [cellsFrom]
      split
      · rename_i hb
        have h0 : (cellsFrom (k + 1) r).lookup k = none := by
          rw [List.lookup_eq_none_iff]; intro c hc; have := this c hc; simp; omega
        simp [h0, hb]
      · simp
    | succ i =>
      have e : k + (i + 1) = (k + 1) + i := by omega
      have := ih (k + 1) i (by simpa using h)
      simp only [cellsFrom, e]
      split
      · simpa using this
      · have hk : ((k + 1 + i) == k) = false := by simp; omega
        simp only [List.lookup_cons, hk]
        simpa using this

/-- A byte just written reads as it was written. -/
theorem Memory.byte_write_in (m : Memory) (k : Nat) (l : List Byte) (i : Nat) (h : i < l.length) :
    (m.write k l).byte (k + i) = l[i] := by
  have h1 : ∀ c ∈ m.filter (fun c => decide (c.1 < k)), c.1 ≠ k + i := fun c hc => by
    have := (List.mem_filter.1 hc).2; simp only [decide_eq_true_eq] at this; omega
  have h2 : ∀ c ∈ m.filter (fun c => decide (k + l.length ≤ c.1)), c.1 ≠ k + i := fun c hc => by
    have := (List.mem_filter.1 hc).2; simp only [decide_eq_true_eq] at this; omega
  rw [Memory.byte, Memory.write, lookup_append_left _ _ _ h2, lookup_append_right _ _ _ h1]
  exact cellsFrom_lookup k l i h

/-- A byte outside the written ones reads as before. -/
theorem Memory.byte_write_out (m : Memory) (k : Nat) (l : List Byte) (a : Nat) (h : a < k ∨ k + l.length ≤ a) :
    (m.write k l).byte a = m.byte a := by
  have hc : ∀ c ∈ cellsFrom k l, c.1 ≠ a := fun c hc => by have := cellsFrom_bounds k l c hc; omega
  rw [Memory.byte, Memory.byte, Memory.write]
  rcases h with h | h
  · have h2 : ∀ c ∈ m.filter (fun c => decide (k + l.length ≤ c.1)), c.1 ≠ a := fun c hc => by
      have := (List.mem_filter.1 hc).2; simp only [decide_eq_true_eq] at this; omega
    rw [lookup_append_left _ _ _ h2, lookup_append_left _ _ _ hc, lookup_filter _ _ _ (by simpa using h)]
  · have h1 : ∀ c ∈ m.filter (fun c => decide (c.1 < k)) ++ cellsFrom k l, c.1 ≠ a := fun c hx => by
      rcases List.mem_append.1 hx with hx | hx
      · have := (List.mem_filter.1 hx).2; simp only [decide_eq_true_eq] at this; omega
      · exact hc c hx
    rw [lookup_append_right _ _ _ h1, lookup_filter _ _ _ (by simpa using h)]

/-- A byte that a clearing drops reads 0. -/
theorem Memory.byte_clear_in (m : Memory) (lo hi a : Nat) (h : lo ≤ a ∧ a < hi) : (m.clear lo hi).byte a = 0 := by
  have : (m.clear lo hi).lookup a = none := by
    rw [List.lookup_eq_none_iff]
    intro c hc
    have := (List.mem_filter.1 hc).2
    simp only [Bool.or_eq_true, decide_eq_true_eq] at this
    simp; omega
  rw [Memory.byte, this]; rfl

/-- A byte that a clearing leaves reads as before. -/
theorem Memory.byte_clear_out (m : Memory) (lo hi a : Nat) (h : a < lo ∨ hi ≤ a) : (m.clear lo hi).byte a = m.byte a := by
  rw [Memory.byte, Memory.byte, Memory.clear, lookup_filter]
  intro x; simpa using h

/-! ### The register file -/

theorem RegFile.wf_iff (r : RegFile) : r.wf = true ↔ r.Pairwise fun a b => a.1 < b.1 := by simp [RegFile.wf]

theorem RegFile.wf_filter (r : RegFile) (p : Nat × Nat → Bool) (h : r.wf = true) : RegFile.wf (r.filter p) = true := by
  rw [RegFile.wf_iff] at h ⊢; exact h.filter p

theorem RegFile.wf_put (r : RegFile) (k v d : Nat) (h : r.wf = true) : (r.put k v d).wf = true := by
  rw [RegFile.wf_iff] at h ⊢
  rw [RegFile.put, List.append_assoc, List.pairwise_append, List.pairwise_append]
  refine ⟨h.filter _, ⟨by split <;> simp, h.filter _, ?_⟩, ?_⟩
  · intro a ha b hb
    have := (List.mem_filter.1 hb).2
    simp only [decide_eq_true_eq] at this
    split at ha
    · simp at ha
    · simp only [List.mem_singleton] at ha; subst ha; exact this
  · intro a ha b hb
    have h1 := (List.mem_filter.1 ha).2
    simp only [decide_eq_true_eq] at h1
    rcases List.mem_append.1 hb with hb | hb
    · split at hb
      · simp at hb
      · simp only [List.mem_singleton] at hb; subst hb; exact h1
    · have := (List.mem_filter.1 hb).2
      simp only [decide_eq_true_eq] at this; omega

/-- The value put under a key is found there; a default is found as no entry. -/
theorem RegFile.find_put_same (r : RegFile) (k v d : Nat) : ((r.put k v d).find k).getD d = v := by
  have h1 : ∀ c ∈ r.filter (fun e => decide (e.1 < k)), c.1 ≠ k := fun c hc => by
    have := (List.mem_filter.1 hc).2; simp only [decide_eq_true_eq] at this; omega
  have h2 : ∀ c ∈ r.filter (fun e => decide (k < e.1)), c.1 ≠ k := fun c hc => by
    have := (List.mem_filter.1 hc).2; simp only [decide_eq_true_eq] at this; omega
  rw [RegFile.find, RegFile.put, lookup_append_left _ _ _ h2, lookup_append_right _ _ _ h1]
  split
  · rename_i h; simp [h]
  · simp

/-- Other keys keep their values. -/
theorem RegFile.find_put_other (r : RegFile) (k j v d : Nat) (h : j ≠ k) : (r.put k v d).find j = r.find j := by
  have hm : ∀ c ∈ (if v = d then [] else [(k, v)]), c.1 ≠ j := fun c hc => by
    split at hc
    · simp at hc
    · simp only [List.mem_singleton] at hc; subst hc; exact fun e => h e.symm
  rw [RegFile.find, RegFile.find, RegFile.put]
  rcases Nat.lt_or_gt_of_ne h with hlt | hgt
  · have h2 : ∀ c ∈ r.filter (fun e => decide (k < e.1)), c.1 ≠ j := fun c hc => by
      have := (List.mem_filter.1 hc).2; simp only [decide_eq_true_eq] at this; omega
    rw [lookup_append_left _ _ _ h2, lookup_append_left _ _ _ hm, lookup_filter _ _ _ (by simpa using hlt)]
  · have h1 : ∀ c ∈ r.filter (fun e => decide (e.1 < k)) ++ (if v = d then [] else [(k, v)]), c.1 ≠ j := fun c hx => by
      rcases List.mem_append.1 hx with hx | hx
      · have := (List.mem_filter.1 hx).2; simp only [decide_eq_true_eq] at this; omega
      · exact hm c hx
    rw [lookup_append_right _ _ _ h1, lookup_filter _ _ _ (by simpa using hgt)]

end Sys2Proof.Machine
end

