-- ==== Sys2Proof/Laws/State.lean ====
section
/-! SUPPORT. What each named update of State leaves in each of its parts; every lemma holds by unfolding. -/

namespace Sys2Proof.Machine

variable (s : State)

/-! ### setRegAt -/

@[simp] theorem State.setRegAt_pending (o : Obj) (i j v : Nat) : (s.setRegAt o i j v).pending = s.pending := rfl
@[simp] theorem State.setRegAt_outbox (o : Obj) (i j v : Nat) : (s.setRegAt o i j v).outbox = s.outbox := rfl
@[simp] theorem State.setRegAt_freeCount (o : Obj) (i j v : Nat) : (s.setRegAt o i j v).freeCount = s.freeCount := rfl
@[simp] theorem State.setRegAt_regs (o : Obj) (i j v : Nat) : (s.setRegAt o i j v).regs = s.regs.put (o.key i j) (v % 256 ^ o.size) (o.dfltAt i j) := rfl
@[simp] theorem State.setRegAt_mem (o : Obj) (i j v : Nat) : (s.setRegAt o i j v).mem = s.mem := rfl
@[simp] theorem State.setRegAt_fields (o : Obj) (i j v : Nat) : (s.setRegAt o i j v).fields = s.fields := rfl
@[simp] theorem State.setRegAt_spans (o : Obj) (i j v : Nat) : (s.setRegAt o i j v).spans = s.spans := rfl
@[simp] theorem State.setRegAt_towers (o : Obj) (i j v : Nat) : (s.setRegAt o i j v).towers = s.towers := rfl
@[simp] theorem State.setRegAt_channels (o : Obj) (i j v : Nat) : (s.setRegAt o i j v).channels = s.channels := rfl
@[simp] theorem State.setRegAt_sets (o : Obj) (i j v : Nat) : (s.setRegAt o i j v).sets = s.sets := rfl
@[simp] theorem State.setRegAt_mesh (o : Obj) (i j v : Nat) : (s.setRegAt o i j v).mesh = s.mesh := rfl
@[simp] theorem State.setRegAt_recorder (o : Obj) (i j v : Nat) : (s.setRegAt o i j v).recorder = s.recorder := rfl
@[simp] theorem State.setRegAt_faults (o : Obj) (i j v : Nat) : (s.setRegAt o i j v).faults = s.faults := rfl
@[simp] theorem State.setRegAt_tests (o : Obj) (i j v : Nat) : (s.setRegAt o i j v).tests = s.tests := rfl
@[simp] theorem State.setRegAt_control (o : Obj) (i j v : Nat) : (s.setRegAt o i j v).control = s.control := rfl
@[simp] theorem State.setRegAt_boot (o : Obj) (i j v : Nat) : (s.setRegAt o i j v).boot = s.boot := rfl
@[simp] theorem State.setRegAt_ports (o : Obj) (i j v : Nat) : (s.setRegAt o i j v).ports = s.ports := rfl
@[simp] theorem State.setRegAt_clocks (o : Obj) (i j v : Nat) : (s.setRegAt o i j v).clocks = s.clocks := rfl
@[simp] theorem State.setRegAt_supply (o : Obj) (i j v : Nat) : (s.setRegAt o i j v).supply = s.supply := rfl
@[simp] theorem State.setRegAt_jtag (o : Obj) (i j v : Nat) : (s.setRegAt o i j v).jtag = s.jtag := rfl

/-! ### setReg -/

@[simp] theorem State.setReg_pending (o : Obj) (i v : Nat) : (s.setReg o i v).pending = s.pending := rfl
@[simp] theorem State.setReg_outbox (o : Obj) (i v : Nat) : (s.setReg o i v).outbox = s.outbox := rfl
@[simp] theorem State.setReg_freeCount (o : Obj) (i v : Nat) : (s.setReg o i v).freeCount = s.freeCount := rfl
@[simp] theorem State.setReg_regs (o : Obj) (i v : Nat) : (s.setReg o i v).regs = s.regs.put (o.key i 0) (v % 256 ^ o.size) (o.dfltAt i 0) := rfl
@[simp] theorem State.setReg_mem (o : Obj) (i v : Nat) : (s.setReg o i v).mem = s.mem := rfl
@[simp] theorem State.setReg_fields (o : Obj) (i v : Nat) : (s.setReg o i v).fields = s.fields := rfl
@[simp] theorem State.setReg_spans (o : Obj) (i v : Nat) : (s.setReg o i v).spans = s.spans := rfl
@[simp] theorem State.setReg_towers (o : Obj) (i v : Nat) : (s.setReg o i v).towers = s.towers := rfl
@[simp] theorem State.setReg_channels (o : Obj) (i v : Nat) : (s.setReg o i v).channels = s.channels := rfl
@[simp] theorem State.setReg_sets (o : Obj) (i v : Nat) : (s.setReg o i v).sets = s.sets := rfl
@[simp] theorem State.setReg_mesh (o : Obj) (i v : Nat) : (s.setReg o i v).mesh = s.mesh := rfl
@[simp] theorem State.setReg_recorder (o : Obj) (i v : Nat) : (s.setReg o i v).recorder = s.recorder := rfl
@[simp] theorem State.setReg_faults (o : Obj) (i v : Nat) : (s.setReg o i v).faults = s.faults := rfl
@[simp] theorem State.setReg_tests (o : Obj) (i v : Nat) : (s.setReg o i v).tests = s.tests := rfl
@[simp] theorem State.setReg_control (o : Obj) (i v : Nat) : (s.setReg o i v).control = s.control := rfl
@[simp] theorem State.setReg_boot (o : Obj) (i v : Nat) : (s.setReg o i v).boot = s.boot := rfl
@[simp] theorem State.setReg_ports (o : Obj) (i v : Nat) : (s.setReg o i v).ports = s.ports := rfl
@[simp] theorem State.setReg_clocks (o : Obj) (i v : Nat) : (s.setReg o i v).clocks = s.clocks := rfl
@[simp] theorem State.setReg_supply (o : Obj) (i v : Nat) : (s.setReg o i v).supply = s.supply := rfl
@[simp] theorem State.setReg_jtag (o : Obj) (i v : Nat) : (s.setReg o i v).jtag = s.jtag := rfl

/-! ### bump -/

@[simp] theorem State.bump_pending (o : Obj) (i n : Nat) : (s.bump o i n).pending = s.pending := rfl
@[simp] theorem State.bump_outbox (o : Obj) (i n : Nat) : (s.bump o i n).outbox = s.outbox := rfl
@[simp] theorem State.bump_freeCount (o : Obj) (i n : Nat) : (s.bump o i n).freeCount = s.freeCount := rfl
@[simp] theorem State.bump_regs (o : Obj) (i n : Nat) : (s.bump o i n).regs = s.regs.put (o.key i 0) (satAdd o.size (s.reg o i) n % 256 ^ o.size) (o.dfltAt i 0) := rfl
@[simp] theorem State.bump_mem (o : Obj) (i n : Nat) : (s.bump o i n).mem = s.mem := rfl
@[simp] theorem State.bump_fields (o : Obj) (i n : Nat) : (s.bump o i n).fields = s.fields := rfl
@[simp] theorem State.bump_spans (o : Obj) (i n : Nat) : (s.bump o i n).spans = s.spans := rfl
@[simp] theorem State.bump_towers (o : Obj) (i n : Nat) : (s.bump o i n).towers = s.towers := rfl
@[simp] theorem State.bump_channels (o : Obj) (i n : Nat) : (s.bump o i n).channels = s.channels := rfl
@[simp] theorem State.bump_sets (o : Obj) (i n : Nat) : (s.bump o i n).sets = s.sets := rfl
@[simp] theorem State.bump_mesh (o : Obj) (i n : Nat) : (s.bump o i n).mesh = s.mesh := rfl
@[simp] theorem State.bump_recorder (o : Obj) (i n : Nat) : (s.bump o i n).recorder = s.recorder := rfl
@[simp] theorem State.bump_faults (o : Obj) (i n : Nat) : (s.bump o i n).faults = s.faults := rfl
@[simp] theorem State.bump_tests (o : Obj) (i n : Nat) : (s.bump o i n).tests = s.tests := rfl
@[simp] theorem State.bump_control (o : Obj) (i n : Nat) : (s.bump o i n).control = s.control := rfl
@[simp] theorem State.bump_boot (o : Obj) (i n : Nat) : (s.bump o i n).boot = s.boot := rfl
@[simp] theorem State.bump_ports (o : Obj) (i n : Nat) : (s.bump o i n).ports = s.ports := rfl
@[simp] theorem State.bump_clocks (o : Obj) (i n : Nat) : (s.bump o i n).clocks = s.clocks := rfl
@[simp] theorem State.bump_supply (o : Obj) (i n : Nat) : (s.bump o i n).supply = s.supply := rfl
@[simp] theorem State.bump_jtag (o : Obj) (i n : Nat) : (s.bump o i n).jtag = s.jtag := rfl

/-! ### modField -/

@[simp] theorem State.modField_pending (f : Nat) (g : Field → Field) : (s.modField f g).pending = s.pending := rfl
@[simp] theorem State.modField_outbox (f : Nat) (g : Field → Field) : (s.modField f g).outbox = s.outbox := rfl
@[simp] theorem State.modField_freeCount (f : Nat) (g : Field → Field) : (s.modField f g).freeCount = s.freeCount := rfl
@[simp] theorem State.modField_regs (f : Nat) (g : Field → Field) : (s.modField f g).regs = s.regs := rfl
@[simp] theorem State.modField_mem (f : Nat) (g : Field → Field) : (s.modField f g).mem = s.mem := rfl
@[simp] theorem State.modField_fields (f : Nat) (g : Field → Field) : (s.modField f g).fields = s.fields.modify f g := rfl
@[simp] theorem State.modField_spans (f : Nat) (g : Field → Field) : (s.modField f g).spans = s.spans := rfl
@[simp] theorem State.modField_towers (f : Nat) (g : Field → Field) : (s.modField f g).towers = s.towers := rfl
@[simp] theorem State.modField_channels (f : Nat) (g : Field → Field) : (s.modField f g).channels = s.channels := rfl
@[simp] theorem State.modField_sets (f : Nat) (g : Field → Field) : (s.modField f g).sets = s.sets := rfl
@[simp] theorem State.modField_mesh (f : Nat) (g : Field → Field) : (s.modField f g).mesh = s.mesh := rfl
@[simp] theorem State.modField_recorder (f : Nat) (g : Field → Field) : (s.modField f g).recorder = s.recorder := rfl
@[simp] theorem State.modField_faults (f : Nat) (g : Field → Field) : (s.modField f g).faults = s.faults := rfl
@[simp] theorem State.modField_tests (f : Nat) (g : Field → Field) : (s.modField f g).tests = s.tests := rfl
@[simp] theorem State.modField_control (f : Nat) (g : Field → Field) : (s.modField f g).control = s.control := rfl
@[simp] theorem State.modField_boot (f : Nat) (g : Field → Field) : (s.modField f g).boot = s.boot := rfl
@[simp] theorem State.modField_ports (f : Nat) (g : Field → Field) : (s.modField f g).ports = s.ports := rfl
@[simp] theorem State.modField_clocks (f : Nat) (g : Field → Field) : (s.modField f g).clocks = s.clocks := rfl
@[simp] theorem State.modField_supply (f : Nat) (g : Field → Field) : (s.modField f g).supply = s.supply := rfl
@[simp] theorem State.modField_jtag (f : Nat) (g : Field → Field) : (s.modField f g).jtag = s.jtag := rfl

/-! ### modSpan -/

@[simp] theorem State.modSpan_pending (k : Nat) (g : Span → Span) : (s.modSpan k g).pending = s.pending := rfl
@[simp] theorem State.modSpan_outbox (k : Nat) (g : Span → Span) : (s.modSpan k g).outbox = s.outbox := rfl
@[simp] theorem State.modSpan_freeCount (k : Nat) (g : Span → Span) : (s.modSpan k g).freeCount = s.freeCount := rfl
@[simp] theorem State.modSpan_regs (k : Nat) (g : Span → Span) : (s.modSpan k g).regs = s.regs := rfl
@[simp] theorem State.modSpan_mem (k : Nat) (g : Span → Span) : (s.modSpan k g).mem = s.mem := rfl
@[simp] theorem State.modSpan_fields (k : Nat) (g : Span → Span) : (s.modSpan k g).fields = s.fields := rfl
@[simp] theorem State.modSpan_spans (k : Nat) (g : Span → Span) : (s.modSpan k g).spans = s.spans.modify k g := rfl
@[simp] theorem State.modSpan_towers (k : Nat) (g : Span → Span) : (s.modSpan k g).towers = s.towers := rfl
@[simp] theorem State.modSpan_channels (k : Nat) (g : Span → Span) : (s.modSpan k g).channels = s.channels := rfl
@[simp] theorem State.modSpan_sets (k : Nat) (g : Span → Span) : (s.modSpan k g).sets = s.sets := rfl
@[simp] theorem State.modSpan_mesh (k : Nat) (g : Span → Span) : (s.modSpan k g).mesh = s.mesh := rfl
@[simp] theorem State.modSpan_recorder (k : Nat) (g : Span → Span) : (s.modSpan k g).recorder = s.recorder := rfl
@[simp] theorem State.modSpan_faults (k : Nat) (g : Span → Span) : (s.modSpan k g).faults = s.faults := rfl
@[simp] theorem State.modSpan_tests (k : Nat) (g : Span → Span) : (s.modSpan k g).tests = s.tests := rfl
@[simp] theorem State.modSpan_control (k : Nat) (g : Span → Span) : (s.modSpan k g).control = s.control := rfl
@[simp] theorem State.modSpan_boot (k : Nat) (g : Span → Span) : (s.modSpan k g).boot = s.boot := rfl
@[simp] theorem State.modSpan_ports (k : Nat) (g : Span → Span) : (s.modSpan k g).ports = s.ports := rfl
@[simp] theorem State.modSpan_clocks (k : Nat) (g : Span → Span) : (s.modSpan k g).clocks = s.clocks := rfl
@[simp] theorem State.modSpan_supply (k : Nat) (g : Span → Span) : (s.modSpan k g).supply = s.supply := rfl
@[simp] theorem State.modSpan_jtag (k : Nat) (g : Span → Span) : (s.modSpan k g).jtag = s.jtag := rfl

/-! ### modChannel -/

@[simp] theorem State.modChannel_pending (c : Nat) (g : Channel → Channel) : (s.modChannel c g).pending = s.pending := rfl
@[simp] theorem State.modChannel_outbox (c : Nat) (g : Channel → Channel) : (s.modChannel c g).outbox = s.outbox := rfl
@[simp] theorem State.modChannel_freeCount (c : Nat) (g : Channel → Channel) : (s.modChannel c g).freeCount = s.freeCount := rfl
@[simp] theorem State.modChannel_regs (c : Nat) (g : Channel → Channel) : (s.modChannel c g).regs = s.regs := rfl
@[simp] theorem State.modChannel_mem (c : Nat) (g : Channel → Channel) : (s.modChannel c g).mem = s.mem := rfl
@[simp] theorem State.modChannel_fields (c : Nat) (g : Channel → Channel) : (s.modChannel c g).fields = s.fields := rfl
@[simp] theorem State.modChannel_spans (c : Nat) (g : Channel → Channel) : (s.modChannel c g).spans = s.spans := rfl
@[simp] theorem State.modChannel_towers (c : Nat) (g : Channel → Channel) : (s.modChannel c g).towers = s.towers := rfl
@[simp] theorem State.modChannel_channels (c : Nat) (g : Channel → Channel) : (s.modChannel c g).channels = s.channels.modify c g := rfl
@[simp] theorem State.modChannel_sets (c : Nat) (g : Channel → Channel) : (s.modChannel c g).sets = s.sets := rfl
@[simp] theorem State.modChannel_mesh (c : Nat) (g : Channel → Channel) : (s.modChannel c g).mesh = s.mesh := rfl
@[simp] theorem State.modChannel_recorder (c : Nat) (g : Channel → Channel) : (s.modChannel c g).recorder = s.recorder := rfl
@[simp] theorem State.modChannel_faults (c : Nat) (g : Channel → Channel) : (s.modChannel c g).faults = s.faults := rfl
@[simp] theorem State.modChannel_tests (c : Nat) (g : Channel → Channel) : (s.modChannel c g).tests = s.tests := rfl
@[simp] theorem State.modChannel_control (c : Nat) (g : Channel → Channel) : (s.modChannel c g).control = s.control := rfl
@[simp] theorem State.modChannel_boot (c : Nat) (g : Channel → Channel) : (s.modChannel c g).boot = s.boot := rfl
@[simp] theorem State.modChannel_ports (c : Nat) (g : Channel → Channel) : (s.modChannel c g).ports = s.ports := rfl
@[simp] theorem State.modChannel_clocks (c : Nat) (g : Channel → Channel) : (s.modChannel c g).clocks = s.clocks := rfl
@[simp] theorem State.modChannel_supply (c : Nat) (g : Channel → Channel) : (s.modChannel c g).supply = s.supply := rfl
@[simp] theorem State.modChannel_jtag (c : Nat) (g : Channel → Channel) : (s.modChannel c g).jtag = s.jtag := rfl

/-! ### modSet -/

@[simp] theorem State.modSet_pending (k : Nat) (g : ISet → ISet) : (s.modSet k g).pending = s.pending := rfl
@[simp] theorem State.modSet_outbox (k : Nat) (g : ISet → ISet) : (s.modSet k g).outbox = s.outbox := rfl
@[simp] theorem State.modSet_freeCount (k : Nat) (g : ISet → ISet) : (s.modSet k g).freeCount = s.freeCount := rfl
@[simp] theorem State.modSet_regs (k : Nat) (g : ISet → ISet) : (s.modSet k g).regs = s.regs := rfl
@[simp] theorem State.modSet_mem (k : Nat) (g : ISet → ISet) : (s.modSet k g).mem = s.mem := rfl
@[simp] theorem State.modSet_fields (k : Nat) (g : ISet → ISet) : (s.modSet k g).fields = s.fields := rfl
@[simp] theorem State.modSet_spans (k : Nat) (g : ISet → ISet) : (s.modSet k g).spans = s.spans := rfl
@[simp] theorem State.modSet_towers (k : Nat) (g : ISet → ISet) : (s.modSet k g).towers = s.towers := rfl
@[simp] theorem State.modSet_channels (k : Nat) (g : ISet → ISet) : (s.modSet k g).channels = s.channels := rfl
@[simp] theorem State.modSet_sets (k : Nat) (g : ISet → ISet) : (s.modSet k g).sets = s.sets.modify k g := rfl
@[simp] theorem State.modSet_mesh (k : Nat) (g : ISet → ISet) : (s.modSet k g).mesh = s.mesh := rfl
@[simp] theorem State.modSet_recorder (k : Nat) (g : ISet → ISet) : (s.modSet k g).recorder = s.recorder := rfl
@[simp] theorem State.modSet_faults (k : Nat) (g : ISet → ISet) : (s.modSet k g).faults = s.faults := rfl
@[simp] theorem State.modSet_tests (k : Nat) (g : ISet → ISet) : (s.modSet k g).tests = s.tests := rfl
@[simp] theorem State.modSet_control (k : Nat) (g : ISet → ISet) : (s.modSet k g).control = s.control := rfl
@[simp] theorem State.modSet_boot (k : Nat) (g : ISet → ISet) : (s.modSet k g).boot = s.boot := rfl
@[simp] theorem State.modSet_ports (k : Nat) (g : ISet → ISet) : (s.modSet k g).ports = s.ports := rfl
@[simp] theorem State.modSet_clocks (k : Nat) (g : ISet → ISet) : (s.modSet k g).clocks = s.clocks := rfl
@[simp] theorem State.modSet_supply (k : Nat) (g : ISet → ISet) : (s.modSet k g).supply = s.supply := rfl
@[simp] theorem State.modSet_jtag (k : Nat) (g : ISet → ISet) : (s.modSet k g).jtag = s.jtag := rfl

/-! ### modTower -/

@[simp] theorem State.modTower_pending (t : Nat) (g : Tower → Tower) : (s.modTower t g).pending = s.pending := rfl
@[simp] theorem State.modTower_outbox (t : Nat) (g : Tower → Tower) : (s.modTower t g).outbox = s.outbox := rfl
@[simp] theorem State.modTower_freeCount (t : Nat) (g : Tower → Tower) : (s.modTower t g).freeCount = s.freeCount := rfl
@[simp] theorem State.modTower_regs (t : Nat) (g : Tower → Tower) : (s.modTower t g).regs = s.regs := rfl
@[simp] theorem State.modTower_mem (t : Nat) (g : Tower → Tower) : (s.modTower t g).mem = s.mem := rfl
@[simp] theorem State.modTower_fields (t : Nat) (g : Tower → Tower) : (s.modTower t g).fields = s.fields := rfl
@[simp] theorem State.modTower_spans (t : Nat) (g : Tower → Tower) : (s.modTower t g).spans = s.spans := rfl
@[simp] theorem State.modTower_towers (t : Nat) (g : Tower → Tower) : (s.modTower t g).towers = s.towers.modify t g := rfl
@[simp] theorem State.modTower_channels (t : Nat) (g : Tower → Tower) : (s.modTower t g).channels = s.channels := rfl
@[simp] theorem State.modTower_sets (t : Nat) (g : Tower → Tower) : (s.modTower t g).sets = s.sets := rfl
@[simp] theorem State.modTower_mesh (t : Nat) (g : Tower → Tower) : (s.modTower t g).mesh = s.mesh := rfl
@[simp] theorem State.modTower_recorder (t : Nat) (g : Tower → Tower) : (s.modTower t g).recorder = s.recorder := rfl
@[simp] theorem State.modTower_faults (t : Nat) (g : Tower → Tower) : (s.modTower t g).faults = s.faults := rfl
@[simp] theorem State.modTower_tests (t : Nat) (g : Tower → Tower) : (s.modTower t g).tests = s.tests := rfl
@[simp] theorem State.modTower_control (t : Nat) (g : Tower → Tower) : (s.modTower t g).control = s.control := rfl
@[simp] theorem State.modTower_boot (t : Nat) (g : Tower → Tower) : (s.modTower t g).boot = s.boot := rfl
@[simp] theorem State.modTower_ports (t : Nat) (g : Tower → Tower) : (s.modTower t g).ports = s.ports := rfl
@[simp] theorem State.modTower_clocks (t : Nat) (g : Tower → Tower) : (s.modTower t g).clocks = s.clocks := rfl
@[simp] theorem State.modTower_supply (t : Nat) (g : Tower → Tower) : (s.modTower t g).supply = s.supply := rfl
@[simp] theorem State.modTower_jtag (t : Nat) (g : Tower → Tower) : (s.modTower t g).jtag = s.jtag := rfl

/-! ### modMesh -/

@[simp] theorem State.modMesh_pending (g : Mesh → Mesh) : (s.modMesh g).pending = s.pending := rfl
@[simp] theorem State.modMesh_outbox (g : Mesh → Mesh) : (s.modMesh g).outbox = s.outbox := rfl
@[simp] theorem State.modMesh_freeCount (g : Mesh → Mesh) : (s.modMesh g).freeCount = s.freeCount := rfl
@[simp] theorem State.modMesh_regs (g : Mesh → Mesh) : (s.modMesh g).regs = s.regs := rfl
@[simp] theorem State.modMesh_mem (g : Mesh → Mesh) : (s.modMesh g).mem = s.mem := rfl
@[simp] theorem State.modMesh_fields (g : Mesh → Mesh) : (s.modMesh g).fields = s.fields := rfl
@[simp] theorem State.modMesh_spans (g : Mesh → Mesh) : (s.modMesh g).spans = s.spans := rfl
@[simp] theorem State.modMesh_towers (g : Mesh → Mesh) : (s.modMesh g).towers = s.towers := rfl
@[simp] theorem State.modMesh_channels (g : Mesh → Mesh) : (s.modMesh g).channels = s.channels := rfl
@[simp] theorem State.modMesh_sets (g : Mesh → Mesh) : (s.modMesh g).sets = s.sets := rfl
@[simp] theorem State.modMesh_mesh (g : Mesh → Mesh) : (s.modMesh g).mesh = g s.mesh := rfl
@[simp] theorem State.modMesh_recorder (g : Mesh → Mesh) : (s.modMesh g).recorder = s.recorder := rfl
@[simp] theorem State.modMesh_faults (g : Mesh → Mesh) : (s.modMesh g).faults = s.faults := rfl
@[simp] theorem State.modMesh_tests (g : Mesh → Mesh) : (s.modMesh g).tests = s.tests := rfl
@[simp] theorem State.modMesh_control (g : Mesh → Mesh) : (s.modMesh g).control = s.control := rfl
@[simp] theorem State.modMesh_boot (g : Mesh → Mesh) : (s.modMesh g).boot = s.boot := rfl
@[simp] theorem State.modMesh_ports (g : Mesh → Mesh) : (s.modMesh g).ports = s.ports := rfl
@[simp] theorem State.modMesh_clocks (g : Mesh → Mesh) : (s.modMesh g).clocks = s.clocks := rfl
@[simp] theorem State.modMesh_supply (g : Mesh → Mesh) : (s.modMesh g).supply = s.supply := rfl
@[simp] theorem State.modMesh_jtag (g : Mesh → Mesh) : (s.modMesh g).jtag = s.jtag := rfl

/-! ### modRouter -/

@[simp] theorem State.modRouter_pending (r : Nat) (g : Router → Router) : (s.modRouter r g).pending = s.pending := rfl
@[simp] theorem State.modRouter_outbox (r : Nat) (g : Router → Router) : (s.modRouter r g).outbox = s.outbox := rfl
@[simp] theorem State.modRouter_freeCount (r : Nat) (g : Router → Router) : (s.modRouter r g).freeCount = s.freeCount := rfl
@[simp] theorem State.modRouter_regs (r : Nat) (g : Router → Router) : (s.modRouter r g).regs = s.regs := rfl
@[simp] theorem State.modRouter_mem (r : Nat) (g : Router → Router) : (s.modRouter r g).mem = s.mem := rfl
@[simp] theorem State.modRouter_fields (r : Nat) (g : Router → Router) : (s.modRouter r g).fields = s.fields := rfl
@[simp] theorem State.modRouter_spans (r : Nat) (g : Router → Router) : (s.modRouter r g).spans = s.spans := rfl
@[simp] theorem State.modRouter_towers (r : Nat) (g : Router → Router) : (s.modRouter r g).towers = s.towers := rfl
@[simp] theorem State.modRouter_channels (r : Nat) (g : Router → Router) : (s.modRouter r g).channels = s.channels := rfl
@[simp] theorem State.modRouter_sets (r : Nat) (g : Router → Router) : (s.modRouter r g).sets = s.sets := rfl
@[simp] theorem State.modRouter_mesh (r : Nat) (g : Router → Router) : (s.modRouter r g).mesh = { s.mesh with routers := s.mesh.routers.modify r g } := rfl
@[simp] theorem State.modRouter_recorder (r : Nat) (g : Router → Router) : (s.modRouter r g).recorder = s.recorder := rfl
@[simp] theorem State.modRouter_faults (r : Nat) (g : Router → Router) : (s.modRouter r g).faults = s.faults := rfl
@[simp] theorem State.modRouter_tests (r : Nat) (g : Router → Router) : (s.modRouter r g).tests = s.tests := rfl
@[simp] theorem State.modRouter_control (r : Nat) (g : Router → Router) : (s.modRouter r g).control = s.control := rfl
@[simp] theorem State.modRouter_boot (r : Nat) (g : Router → Router) : (s.modRouter r g).boot = s.boot := rfl
@[simp] theorem State.modRouter_ports (r : Nat) (g : Router → Router) : (s.modRouter r g).ports = s.ports := rfl
@[simp] theorem State.modRouter_clocks (r : Nat) (g : Router → Router) : (s.modRouter r g).clocks = s.clocks := rfl
@[simp] theorem State.modRouter_supply (r : Nat) (g : Router → Router) : (s.modRouter r g).supply = s.supply := rfl
@[simp] theorem State.modRouter_jtag (r : Nat) (g : Router → Router) : (s.modRouter r g).jtag = s.jtag := rfl

/-! ### modSeq -/

@[simp] theorem State.modSeq_pending (f : Nat) (g : Sequencer → Sequencer) : (s.modSeq f g).pending = s.pending := rfl
@[simp] theorem State.modSeq_outbox (f : Nat) (g : Sequencer → Sequencer) : (s.modSeq f g).outbox = s.outbox := rfl
@[simp] theorem State.modSeq_freeCount (f : Nat) (g : Sequencer → Sequencer) : (s.modSeq f g).freeCount = s.freeCount := rfl
@[simp] theorem State.modSeq_regs (f : Nat) (g : Sequencer → Sequencer) : (s.modSeq f g).regs = s.regs := rfl
@[simp] theorem State.modSeq_mem (f : Nat) (g : Sequencer → Sequencer) : (s.modSeq f g).mem = s.mem := rfl
@[simp] theorem State.modSeq_fields (f : Nat) (g : Sequencer → Sequencer) : (s.modSeq f g).fields = s.fields.modify f fun x => { x with seq := g x.seq } := rfl
@[simp] theorem State.modSeq_spans (f : Nat) (g : Sequencer → Sequencer) : (s.modSeq f g).spans = s.spans := rfl
@[simp] theorem State.modSeq_towers (f : Nat) (g : Sequencer → Sequencer) : (s.modSeq f g).towers = s.towers := rfl
@[simp] theorem State.modSeq_channels (f : Nat) (g : Sequencer → Sequencer) : (s.modSeq f g).channels = s.channels := rfl
@[simp] theorem State.modSeq_sets (f : Nat) (g : Sequencer → Sequencer) : (s.modSeq f g).sets = s.sets := rfl
@[simp] theorem State.modSeq_mesh (f : Nat) (g : Sequencer → Sequencer) : (s.modSeq f g).mesh = s.mesh := rfl
@[simp] theorem State.modSeq_recorder (f : Nat) (g : Sequencer → Sequencer) : (s.modSeq f g).recorder = s.recorder := rfl
@[simp] theorem State.modSeq_faults (f : Nat) (g : Sequencer → Sequencer) : (s.modSeq f g).faults = s.faults := rfl
@[simp] theorem State.modSeq_tests (f : Nat) (g : Sequencer → Sequencer) : (s.modSeq f g).tests = s.tests := rfl
@[simp] theorem State.modSeq_control (f : Nat) (g : Sequencer → Sequencer) : (s.modSeq f g).control = s.control := rfl
@[simp] theorem State.modSeq_boot (f : Nat) (g : Sequencer → Sequencer) : (s.modSeq f g).boot = s.boot := rfl
@[simp] theorem State.modSeq_ports (f : Nat) (g : Sequencer → Sequencer) : (s.modSeq f g).ports = s.ports := rfl
@[simp] theorem State.modSeq_clocks (f : Nat) (g : Sequencer → Sequencer) : (s.modSeq f g).clocks = s.clocks := rfl
@[simp] theorem State.modSeq_supply (f : Nat) (g : Sequencer → Sequencer) : (s.modSeq f g).supply = s.supply := rfl
@[simp] theorem State.modSeq_jtag (f : Nat) (g : Sequencer → Sequencer) : (s.modSeq f g).jtag = s.jtag := rfl

/-! ### modArray -/

@[simp] theorem State.modArray_pending (f : Nat) (g : ArrayS → ArrayS) : (s.modArray f g).pending = s.pending := rfl
@[simp] theorem State.modArray_outbox (f : Nat) (g : ArrayS → ArrayS) : (s.modArray f g).outbox = s.outbox := rfl
@[simp] theorem State.modArray_freeCount (f : Nat) (g : ArrayS → ArrayS) : (s.modArray f g).freeCount = s.freeCount := rfl
@[simp] theorem State.modArray_regs (f : Nat) (g : ArrayS → ArrayS) : (s.modArray f g).regs = s.regs := rfl
@[simp] theorem State.modArray_mem (f : Nat) (g : ArrayS → ArrayS) : (s.modArray f g).mem = s.mem := rfl
@[simp] theorem State.modArray_fields (f : Nat) (g : ArrayS → ArrayS) : (s.modArray f g).fields = s.fields.modify f fun x => { x with array := g x.array } := rfl
@[simp] theorem State.modArray_spans (f : Nat) (g : ArrayS → ArrayS) : (s.modArray f g).spans = s.spans := rfl
@[simp] theorem State.modArray_towers (f : Nat) (g : ArrayS → ArrayS) : (s.modArray f g).towers = s.towers := rfl
@[simp] theorem State.modArray_channels (f : Nat) (g : ArrayS → ArrayS) : (s.modArray f g).channels = s.channels := rfl
@[simp] theorem State.modArray_sets (f : Nat) (g : ArrayS → ArrayS) : (s.modArray f g).sets = s.sets := rfl
@[simp] theorem State.modArray_mesh (f : Nat) (g : ArrayS → ArrayS) : (s.modArray f g).mesh = s.mesh := rfl
@[simp] theorem State.modArray_recorder (f : Nat) (g : ArrayS → ArrayS) : (s.modArray f g).recorder = s.recorder := rfl
@[simp] theorem State.modArray_faults (f : Nat) (g : ArrayS → ArrayS) : (s.modArray f g).faults = s.faults := rfl
@[simp] theorem State.modArray_tests (f : Nat) (g : ArrayS → ArrayS) : (s.modArray f g).tests = s.tests := rfl
@[simp] theorem State.modArray_control (f : Nat) (g : ArrayS → ArrayS) : (s.modArray f g).control = s.control := rfl
@[simp] theorem State.modArray_boot (f : Nat) (g : ArrayS → ArrayS) : (s.modArray f g).boot = s.boot := rfl
@[simp] theorem State.modArray_ports (f : Nat) (g : ArrayS → ArrayS) : (s.modArray f g).ports = s.ports := rfl
@[simp] theorem State.modArray_clocks (f : Nat) (g : ArrayS → ArrayS) : (s.modArray f g).clocks = s.clocks := rfl
@[simp] theorem State.modArray_supply (f : Nat) (g : ArrayS → ArrayS) : (s.modArray f g).supply = s.supply := rfl
@[simp] theorem State.modArray_jtag (f : Nat) (g : ArrayS → ArrayS) : (s.modArray f g).jtag = s.jtag := rfl

/-! ### modBank -/

@[simp] theorem State.modBank_pending (f b : Nat) (g : Bank → Bank) : (s.modBank f b g).pending = s.pending := rfl
@[simp] theorem State.modBank_outbox (f b : Nat) (g : Bank → Bank) : (s.modBank f b g).outbox = s.outbox := rfl
@[simp] theorem State.modBank_freeCount (f b : Nat) (g : Bank → Bank) : (s.modBank f b g).freeCount = s.freeCount := rfl
@[simp] theorem State.modBank_regs (f b : Nat) (g : Bank → Bank) : (s.modBank f b g).regs = s.regs := rfl
@[simp] theorem State.modBank_mem (f b : Nat) (g : Bank → Bank) : (s.modBank f b g).mem = s.mem := rfl
@[simp] theorem State.modBank_fields (f b : Nat) (g : Bank → Bank) : (s.modBank f b g).fields = s.fields.modify f fun x => { x with banks := x.banks.modify b g } := rfl
@[simp] theorem State.modBank_spans (f b : Nat) (g : Bank → Bank) : (s.modBank f b g).spans = s.spans := rfl
@[simp] theorem State.modBank_towers (f b : Nat) (g : Bank → Bank) : (s.modBank f b g).towers = s.towers := rfl
@[simp] theorem State.modBank_channels (f b : Nat) (g : Bank → Bank) : (s.modBank f b g).channels = s.channels := rfl
@[simp] theorem State.modBank_sets (f b : Nat) (g : Bank → Bank) : (s.modBank f b g).sets = s.sets := rfl
@[simp] theorem State.modBank_mesh (f b : Nat) (g : Bank → Bank) : (s.modBank f b g).mesh = s.mesh := rfl
@[simp] theorem State.modBank_recorder (f b : Nat) (g : Bank → Bank) : (s.modBank f b g).recorder = s.recorder := rfl
@[simp] theorem State.modBank_faults (f b : Nat) (g : Bank → Bank) : (s.modBank f b g).faults = s.faults := rfl
@[simp] theorem State.modBank_tests (f b : Nat) (g : Bank → Bank) : (s.modBank f b g).tests = s.tests := rfl
@[simp] theorem State.modBank_control (f b : Nat) (g : Bank → Bank) : (s.modBank f b g).control = s.control := rfl
@[simp] theorem State.modBank_boot (f b : Nat) (g : Bank → Bank) : (s.modBank f b g).boot = s.boot := rfl
@[simp] theorem State.modBank_ports (f b : Nat) (g : Bank → Bank) : (s.modBank f b g).ports = s.ports := rfl
@[simp] theorem State.modBank_clocks (f b : Nat) (g : Bank → Bank) : (s.modBank f b g).clocks = s.clocks := rfl
@[simp] theorem State.modBank_supply (f b : Nat) (g : Bank → Bank) : (s.modBank f b g).supply = s.supply := rfl
@[simp] theorem State.modBank_jtag (f b : Nat) (g : Bank → Bank) : (s.modBank f b g).jtag = s.jtag := rfl

/-! ### modMover -/

@[simp] theorem State.modMover_pending (f c : Nat) (g : Mover → Mover) : (s.modMover f c g).pending = s.pending := rfl
@[simp] theorem State.modMover_outbox (f c : Nat) (g : Mover → Mover) : (s.modMover f c g).outbox = s.outbox := rfl
@[simp] theorem State.modMover_freeCount (f c : Nat) (g : Mover → Mover) : (s.modMover f c g).freeCount = s.freeCount := rfl
@[simp] theorem State.modMover_regs (f c : Nat) (g : Mover → Mover) : (s.modMover f c g).regs = s.regs := rfl
@[simp] theorem State.modMover_mem (f c : Nat) (g : Mover → Mover) : (s.modMover f c g).mem = s.mem := rfl
@[simp] theorem State.modMover_fields (f c : Nat) (g : Mover → Mover) : (s.modMover f c g).fields = s.fields.modify f fun x => { x with movers := x.movers.modify c g } := rfl
@[simp] theorem State.modMover_spans (f c : Nat) (g : Mover → Mover) : (s.modMover f c g).spans = s.spans := rfl
@[simp] theorem State.modMover_towers (f c : Nat) (g : Mover → Mover) : (s.modMover f c g).towers = s.towers := rfl
@[simp] theorem State.modMover_channels (f c : Nat) (g : Mover → Mover) : (s.modMover f c g).channels = s.channels := rfl
@[simp] theorem State.modMover_sets (f c : Nat) (g : Mover → Mover) : (s.modMover f c g).sets = s.sets := rfl
@[simp] theorem State.modMover_mesh (f c : Nat) (g : Mover → Mover) : (s.modMover f c g).mesh = s.mesh := rfl
@[simp] theorem State.modMover_recorder (f c : Nat) (g : Mover → Mover) : (s.modMover f c g).recorder = s.recorder := rfl
@[simp] theorem State.modMover_faults (f c : Nat) (g : Mover → Mover) : (s.modMover f c g).faults = s.faults := rfl
@[simp] theorem State.modMover_tests (f c : Nat) (g : Mover → Mover) : (s.modMover f c g).tests = s.tests := rfl
@[simp] theorem State.modMover_control (f c : Nat) (g : Mover → Mover) : (s.modMover f c g).control = s.control := rfl
@[simp] theorem State.modMover_boot (f c : Nat) (g : Mover → Mover) : (s.modMover f c g).boot = s.boot := rfl
@[simp] theorem State.modMover_ports (f c : Nat) (g : Mover → Mover) : (s.modMover f c g).ports = s.ports := rfl
@[simp] theorem State.modMover_clocks (f c : Nat) (g : Mover → Mover) : (s.modMover f c g).clocks = s.clocks := rfl
@[simp] theorem State.modMover_supply (f c : Nat) (g : Mover → Mover) : (s.modMover f c g).supply = s.supply := rfl
@[simp] theorem State.modMover_jtag (f c : Nat) (g : Mover → Mover) : (s.modMover f c g).jtag = s.jtag := rfl

/-! ### modPower -/

@[simp] theorem State.modPower_pending (f : Nat) (g : PowerS → PowerS) : (s.modPower f g).pending = s.pending := rfl
@[simp] theorem State.modPower_outbox (f : Nat) (g : PowerS → PowerS) : (s.modPower f g).outbox = s.outbox := rfl
@[simp] theorem State.modPower_freeCount (f : Nat) (g : PowerS → PowerS) : (s.modPower f g).freeCount = s.freeCount := rfl
@[simp] theorem State.modPower_regs (f : Nat) (g : PowerS → PowerS) : (s.modPower f g).regs = s.regs := rfl
@[simp] theorem State.modPower_mem (f : Nat) (g : PowerS → PowerS) : (s.modPower f g).mem = s.mem := rfl
@[simp] theorem State.modPower_fields (f : Nat) (g : PowerS → PowerS) : (s.modPower f g).fields = s.fields.modify f fun x => { x with power := g x.power } := rfl
@[simp] theorem State.modPower_spans (f : Nat) (g : PowerS → PowerS) : (s.modPower f g).spans = s.spans := rfl
@[simp] theorem State.modPower_towers (f : Nat) (g : PowerS → PowerS) : (s.modPower f g).towers = s.towers := rfl
@[simp] theorem State.modPower_channels (f : Nat) (g : PowerS → PowerS) : (s.modPower f g).channels = s.channels := rfl
@[simp] theorem State.modPower_sets (f : Nat) (g : PowerS → PowerS) : (s.modPower f g).sets = s.sets := rfl
@[simp] theorem State.modPower_mesh (f : Nat) (g : PowerS → PowerS) : (s.modPower f g).mesh = s.mesh := rfl
@[simp] theorem State.modPower_recorder (f : Nat) (g : PowerS → PowerS) : (s.modPower f g).recorder = s.recorder := rfl
@[simp] theorem State.modPower_faults (f : Nat) (g : PowerS → PowerS) : (s.modPower f g).faults = s.faults := rfl
@[simp] theorem State.modPower_tests (f : Nat) (g : PowerS → PowerS) : (s.modPower f g).tests = s.tests := rfl
@[simp] theorem State.modPower_control (f : Nat) (g : PowerS → PowerS) : (s.modPower f g).control = s.control := rfl
@[simp] theorem State.modPower_boot (f : Nat) (g : PowerS → PowerS) : (s.modPower f g).boot = s.boot := rfl
@[simp] theorem State.modPower_ports (f : Nat) (g : PowerS → PowerS) : (s.modPower f g).ports = s.ports := rfl
@[simp] theorem State.modPower_clocks (f : Nat) (g : PowerS → PowerS) : (s.modPower f g).clocks = s.clocks := rfl
@[simp] theorem State.modPower_supply (f : Nat) (g : PowerS → PowerS) : (s.modPower f g).supply = s.supply := rfl
@[simp] theorem State.modPower_jtag (f : Nat) (g : PowerS → PowerS) : (s.modPower f g).jtag = s.jtag := rfl

/-! ### modClock -/

@[simp] theorem State.modClock_pending (f : Nat) (g : FieldClock → FieldClock) : (s.modClock f g).pending = s.pending := rfl
@[simp] theorem State.modClock_outbox (f : Nat) (g : FieldClock → FieldClock) : (s.modClock f g).outbox = s.outbox := rfl
@[simp] theorem State.modClock_freeCount (f : Nat) (g : FieldClock → FieldClock) : (s.modClock f g).freeCount = s.freeCount := rfl
@[simp] theorem State.modClock_regs (f : Nat) (g : FieldClock → FieldClock) : (s.modClock f g).regs = s.regs := rfl
@[simp] theorem State.modClock_mem (f : Nat) (g : FieldClock → FieldClock) : (s.modClock f g).mem = s.mem := rfl
@[simp] theorem State.modClock_fields (f : Nat) (g : FieldClock → FieldClock) : (s.modClock f g).fields = s.fields.modify f fun x => { x with clock := g x.clock } := rfl
@[simp] theorem State.modClock_spans (f : Nat) (g : FieldClock → FieldClock) : (s.modClock f g).spans = s.spans := rfl
@[simp] theorem State.modClock_towers (f : Nat) (g : FieldClock → FieldClock) : (s.modClock f g).towers = s.towers := rfl
@[simp] theorem State.modClock_channels (f : Nat) (g : FieldClock → FieldClock) : (s.modClock f g).channels = s.channels := rfl
@[simp] theorem State.modClock_sets (f : Nat) (g : FieldClock → FieldClock) : (s.modClock f g).sets = s.sets := rfl
@[simp] theorem State.modClock_mesh (f : Nat) (g : FieldClock → FieldClock) : (s.modClock f g).mesh = s.mesh := rfl
@[simp] theorem State.modClock_recorder (f : Nat) (g : FieldClock → FieldClock) : (s.modClock f g).recorder = s.recorder := rfl
@[simp] theorem State.modClock_faults (f : Nat) (g : FieldClock → FieldClock) : (s.modClock f g).faults = s.faults := rfl
@[simp] theorem State.modClock_tests (f : Nat) (g : FieldClock → FieldClock) : (s.modClock f g).tests = s.tests := rfl
@[simp] theorem State.modClock_control (f : Nat) (g : FieldClock → FieldClock) : (s.modClock f g).control = s.control := rfl
@[simp] theorem State.modClock_boot (f : Nat) (g : FieldClock → FieldClock) : (s.modClock f g).boot = s.boot := rfl
@[simp] theorem State.modClock_ports (f : Nat) (g : FieldClock → FieldClock) : (s.modClock f g).ports = s.ports := rfl
@[simp] theorem State.modClock_clocks (f : Nat) (g : FieldClock → FieldClock) : (s.modClock f g).clocks = s.clocks := rfl
@[simp] theorem State.modClock_supply (f : Nat) (g : FieldClock → FieldClock) : (s.modClock f g).supply = s.supply := rfl
@[simp] theorem State.modClock_jtag (f : Nat) (g : FieldClock → FieldClock) : (s.modClock f g).jtag = s.jtag := rfl

/-! ### modRec -/

@[simp] theorem State.modRec_pending (g : Recorder → Recorder) : (s.modRec g).pending = s.pending := rfl
@[simp] theorem State.modRec_outbox (g : Recorder → Recorder) : (s.modRec g).outbox = s.outbox := rfl
@[simp] theorem State.modRec_freeCount (g : Recorder → Recorder) : (s.modRec g).freeCount = s.freeCount := rfl
@[simp] theorem State.modRec_regs (g : Recorder → Recorder) : (s.modRec g).regs = s.regs := rfl
@[simp] theorem State.modRec_mem (g : Recorder → Recorder) : (s.modRec g).mem = s.mem := rfl
@[simp] theorem State.modRec_fields (g : Recorder → Recorder) : (s.modRec g).fields = s.fields := rfl
@[simp] theorem State.modRec_spans (g : Recorder → Recorder) : (s.modRec g).spans = s.spans := rfl
@[simp] theorem State.modRec_towers (g : Recorder → Recorder) : (s.modRec g).towers = s.towers := rfl
@[simp] theorem State.modRec_channels (g : Recorder → Recorder) : (s.modRec g).channels = s.channels := rfl
@[simp] theorem State.modRec_sets (g : Recorder → Recorder) : (s.modRec g).sets = s.sets := rfl
@[simp] theorem State.modRec_mesh (g : Recorder → Recorder) : (s.modRec g).mesh = s.mesh := rfl
@[simp] theorem State.modRec_recorder (g : Recorder → Recorder) : (s.modRec g).recorder = g s.recorder := rfl
@[simp] theorem State.modRec_faults (g : Recorder → Recorder) : (s.modRec g).faults = s.faults := rfl
@[simp] theorem State.modRec_tests (g : Recorder → Recorder) : (s.modRec g).tests = s.tests := rfl
@[simp] theorem State.modRec_control (g : Recorder → Recorder) : (s.modRec g).control = s.control := rfl
@[simp] theorem State.modRec_boot (g : Recorder → Recorder) : (s.modRec g).boot = s.boot := rfl
@[simp] theorem State.modRec_ports (g : Recorder → Recorder) : (s.modRec g).ports = s.ports := rfl
@[simp] theorem State.modRec_clocks (g : Recorder → Recorder) : (s.modRec g).clocks = s.clocks := rfl
@[simp] theorem State.modRec_supply (g : Recorder → Recorder) : (s.modRec g).supply = s.supply := rfl
@[simp] theorem State.modRec_jtag (g : Recorder → Recorder) : (s.modRec g).jtag = s.jtag := rfl

/-! ### modFaults -/

@[simp] theorem State.modFaults_pending (g : Faults → Faults) : (s.modFaults g).pending = s.pending := rfl
@[simp] theorem State.modFaults_outbox (g : Faults → Faults) : (s.modFaults g).outbox = s.outbox := rfl
@[simp] theorem State.modFaults_freeCount (g : Faults → Faults) : (s.modFaults g).freeCount = s.freeCount := rfl
@[simp] theorem State.modFaults_regs (g : Faults → Faults) : (s.modFaults g).regs = s.regs := rfl
@[simp] theorem State.modFaults_mem (g : Faults → Faults) : (s.modFaults g).mem = s.mem := rfl
@[simp] theorem State.modFaults_fields (g : Faults → Faults) : (s.modFaults g).fields = s.fields := rfl
@[simp] theorem State.modFaults_spans (g : Faults → Faults) : (s.modFaults g).spans = s.spans := rfl
@[simp] theorem State.modFaults_towers (g : Faults → Faults) : (s.modFaults g).towers = s.towers := rfl
@[simp] theorem State.modFaults_channels (g : Faults → Faults) : (s.modFaults g).channels = s.channels := rfl
@[simp] theorem State.modFaults_sets (g : Faults → Faults) : (s.modFaults g).sets = s.sets := rfl
@[simp] theorem State.modFaults_mesh (g : Faults → Faults) : (s.modFaults g).mesh = s.mesh := rfl
@[simp] theorem State.modFaults_recorder (g : Faults → Faults) : (s.modFaults g).recorder = s.recorder := rfl
@[simp] theorem State.modFaults_faults (g : Faults → Faults) : (s.modFaults g).faults = g s.faults := rfl
@[simp] theorem State.modFaults_tests (g : Faults → Faults) : (s.modFaults g).tests = s.tests := rfl
@[simp] theorem State.modFaults_control (g : Faults → Faults) : (s.modFaults g).control = s.control := rfl
@[simp] theorem State.modFaults_boot (g : Faults → Faults) : (s.modFaults g).boot = s.boot := rfl
@[simp] theorem State.modFaults_ports (g : Faults → Faults) : (s.modFaults g).ports = s.ports := rfl
@[simp] theorem State.modFaults_clocks (g : Faults → Faults) : (s.modFaults g).clocks = s.clocks := rfl
@[simp] theorem State.modFaults_supply (g : Faults → Faults) : (s.modFaults g).supply = s.supply := rfl
@[simp] theorem State.modFaults_jtag (g : Faults → Faults) : (s.modFaults g).jtag = s.jtag := rfl

/-! ### modTests -/

@[simp] theorem State.modTests_pending (g : TestEngine → TestEngine) : (s.modTests g).pending = s.pending := rfl
@[simp] theorem State.modTests_outbox (g : TestEngine → TestEngine) : (s.modTests g).outbox = s.outbox := rfl
@[simp] theorem State.modTests_freeCount (g : TestEngine → TestEngine) : (s.modTests g).freeCount = s.freeCount := rfl
@[simp] theorem State.modTests_regs (g : TestEngine → TestEngine) : (s.modTests g).regs = s.regs := rfl
@[simp] theorem State.modTests_mem (g : TestEngine → TestEngine) : (s.modTests g).mem = s.mem := rfl
@[simp] theorem State.modTests_fields (g : TestEngine → TestEngine) : (s.modTests g).fields = s.fields := rfl
@[simp] theorem State.modTests_spans (g : TestEngine → TestEngine) : (s.modTests g).spans = s.spans := rfl
@[simp] theorem State.modTests_towers (g : TestEngine → TestEngine) : (s.modTests g).towers = s.towers := rfl
@[simp] theorem State.modTests_channels (g : TestEngine → TestEngine) : (s.modTests g).channels = s.channels := rfl
@[simp] theorem State.modTests_sets (g : TestEngine → TestEngine) : (s.modTests g).sets = s.sets := rfl
@[simp] theorem State.modTests_mesh (g : TestEngine → TestEngine) : (s.modTests g).mesh = s.mesh := rfl
@[simp] theorem State.modTests_recorder (g : TestEngine → TestEngine) : (s.modTests g).recorder = s.recorder := rfl
@[simp] theorem State.modTests_faults (g : TestEngine → TestEngine) : (s.modTests g).faults = s.faults := rfl
@[simp] theorem State.modTests_tests (g : TestEngine → TestEngine) : (s.modTests g).tests = g s.tests := rfl
@[simp] theorem State.modTests_control (g : TestEngine → TestEngine) : (s.modTests g).control = s.control := rfl
@[simp] theorem State.modTests_boot (g : TestEngine → TestEngine) : (s.modTests g).boot = s.boot := rfl
@[simp] theorem State.modTests_ports (g : TestEngine → TestEngine) : (s.modTests g).ports = s.ports := rfl
@[simp] theorem State.modTests_clocks (g : TestEngine → TestEngine) : (s.modTests g).clocks = s.clocks := rfl
@[simp] theorem State.modTests_supply (g : TestEngine → TestEngine) : (s.modTests g).supply = s.supply := rfl
@[simp] theorem State.modTests_jtag (g : TestEngine → TestEngine) : (s.modTests g).jtag = s.jtag := rfl

/-! ### modCtl -/

@[simp] theorem State.modCtl_pending (g : Control → Control) : (s.modCtl g).pending = s.pending := rfl
@[simp] theorem State.modCtl_outbox (g : Control → Control) : (s.modCtl g).outbox = s.outbox := rfl
@[simp] theorem State.modCtl_freeCount (g : Control → Control) : (s.modCtl g).freeCount = s.freeCount := rfl
@[simp] theorem State.modCtl_regs (g : Control → Control) : (s.modCtl g).regs = s.regs := rfl
@[simp] theorem State.modCtl_mem (g : Control → Control) : (s.modCtl g).mem = s.mem := rfl
@[simp] theorem State.modCtl_fields (g : Control → Control) : (s.modCtl g).fields = s.fields := rfl
@[simp] theorem State.modCtl_spans (g : Control → Control) : (s.modCtl g).spans = s.spans := rfl
@[simp] theorem State.modCtl_towers (g : Control → Control) : (s.modCtl g).towers = s.towers := rfl
@[simp] theorem State.modCtl_channels (g : Control → Control) : (s.modCtl g).channels = s.channels := rfl
@[simp] theorem State.modCtl_sets (g : Control → Control) : (s.modCtl g).sets = s.sets := rfl
@[simp] theorem State.modCtl_mesh (g : Control → Control) : (s.modCtl g).mesh = s.mesh := rfl
@[simp] theorem State.modCtl_recorder (g : Control → Control) : (s.modCtl g).recorder = s.recorder := rfl
@[simp] theorem State.modCtl_faults (g : Control → Control) : (s.modCtl g).faults = s.faults := rfl
@[simp] theorem State.modCtl_tests (g : Control → Control) : (s.modCtl g).tests = s.tests := rfl
@[simp] theorem State.modCtl_control (g : Control → Control) : (s.modCtl g).control = g s.control := rfl
@[simp] theorem State.modCtl_boot (g : Control → Control) : (s.modCtl g).boot = s.boot := rfl
@[simp] theorem State.modCtl_ports (g : Control → Control) : (s.modCtl g).ports = s.ports := rfl
@[simp] theorem State.modCtl_clocks (g : Control → Control) : (s.modCtl g).clocks = s.clocks := rfl
@[simp] theorem State.modCtl_supply (g : Control → Control) : (s.modCtl g).supply = s.supply := rfl
@[simp] theorem State.modCtl_jtag (g : Control → Control) : (s.modCtl g).jtag = s.jtag := rfl

/-! ### modBoot -/

@[simp] theorem State.modBoot_pending (g : Boot → Boot) : (s.modBoot g).pending = s.pending := rfl
@[simp] theorem State.modBoot_outbox (g : Boot → Boot) : (s.modBoot g).outbox = s.outbox := rfl
@[simp] theorem State.modBoot_freeCount (g : Boot → Boot) : (s.modBoot g).freeCount = s.freeCount := rfl
@[simp] theorem State.modBoot_regs (g : Boot → Boot) : (s.modBoot g).regs = s.regs := rfl
@[simp] theorem State.modBoot_mem (g : Boot → Boot) : (s.modBoot g).mem = s.mem := rfl
@[simp] theorem State.modBoot_fields (g : Boot → Boot) : (s.modBoot g).fields = s.fields := rfl
@[simp] theorem State.modBoot_spans (g : Boot → Boot) : (s.modBoot g).spans = s.spans := rfl
@[simp] theorem State.modBoot_towers (g : Boot → Boot) : (s.modBoot g).towers = s.towers := rfl
@[simp] theorem State.modBoot_channels (g : Boot → Boot) : (s.modBoot g).channels = s.channels := rfl
@[simp] theorem State.modBoot_sets (g : Boot → Boot) : (s.modBoot g).sets = s.sets := rfl
@[simp] theorem State.modBoot_mesh (g : Boot → Boot) : (s.modBoot g).mesh = s.mesh := rfl
@[simp] theorem State.modBoot_recorder (g : Boot → Boot) : (s.modBoot g).recorder = s.recorder := rfl
@[simp] theorem State.modBoot_faults (g : Boot → Boot) : (s.modBoot g).faults = s.faults := rfl
@[simp] theorem State.modBoot_tests (g : Boot → Boot) : (s.modBoot g).tests = s.tests := rfl
@[simp] theorem State.modBoot_control (g : Boot → Boot) : (s.modBoot g).control = s.control := rfl
@[simp] theorem State.modBoot_boot (g : Boot → Boot) : (s.modBoot g).boot = g s.boot := rfl
@[simp] theorem State.modBoot_ports (g : Boot → Boot) : (s.modBoot g).ports = s.ports := rfl
@[simp] theorem State.modBoot_clocks (g : Boot → Boot) : (s.modBoot g).clocks = s.clocks := rfl
@[simp] theorem State.modBoot_supply (g : Boot → Boot) : (s.modBoot g).supply = s.supply := rfl
@[simp] theorem State.modBoot_jtag (g : Boot → Boot) : (s.modBoot g).jtag = s.jtag := rfl

/-! ### modPorts -/

@[simp] theorem State.modPorts_pending (g : Ports → Ports) : (s.modPorts g).pending = s.pending := rfl
@[simp] theorem State.modPorts_outbox (g : Ports → Ports) : (s.modPorts g).outbox = s.outbox := rfl
@[simp] theorem State.modPorts_freeCount (g : Ports → Ports) : (s.modPorts g).freeCount = s.freeCount := rfl
@[simp] theorem State.modPorts_regs (g : Ports → Ports) : (s.modPorts g).regs = s.regs := rfl
@[simp] theorem State.modPorts_mem (g : Ports → Ports) : (s.modPorts g).mem = s.mem := rfl
@[simp] theorem State.modPorts_fields (g : Ports → Ports) : (s.modPorts g).fields = s.fields := rfl
@[simp] theorem State.modPorts_spans (g : Ports → Ports) : (s.modPorts g).spans = s.spans := rfl
@[simp] theorem State.modPorts_towers (g : Ports → Ports) : (s.modPorts g).towers = s.towers := rfl
@[simp] theorem State.modPorts_channels (g : Ports → Ports) : (s.modPorts g).channels = s.channels := rfl
@[simp] theorem State.modPorts_sets (g : Ports → Ports) : (s.modPorts g).sets = s.sets := rfl
@[simp] theorem State.modPorts_mesh (g : Ports → Ports) : (s.modPorts g).mesh = s.mesh := rfl
@[simp] theorem State.modPorts_recorder (g : Ports → Ports) : (s.modPorts g).recorder = s.recorder := rfl
@[simp] theorem State.modPorts_faults (g : Ports → Ports) : (s.modPorts g).faults = s.faults := rfl
@[simp] theorem State.modPorts_tests (g : Ports → Ports) : (s.modPorts g).tests = s.tests := rfl
@[simp] theorem State.modPorts_control (g : Ports → Ports) : (s.modPorts g).control = s.control := rfl
@[simp] theorem State.modPorts_boot (g : Ports → Ports) : (s.modPorts g).boot = s.boot := rfl
@[simp] theorem State.modPorts_ports (g : Ports → Ports) : (s.modPorts g).ports = g s.ports := rfl
@[simp] theorem State.modPorts_clocks (g : Ports → Ports) : (s.modPorts g).clocks = s.clocks := rfl
@[simp] theorem State.modPorts_supply (g : Ports → Ports) : (s.modPorts g).supply = s.supply := rfl
@[simp] theorem State.modPorts_jtag (g : Ports → Ports) : (s.modPorts g).jtag = s.jtag := rfl

/-! ### modClocks -/

@[simp] theorem State.modClocks_pending (g : Clocks → Clocks) : (s.modClocks g).pending = s.pending := rfl
@[simp] theorem State.modClocks_outbox (g : Clocks → Clocks) : (s.modClocks g).outbox = s.outbox := rfl
@[simp] theorem State.modClocks_freeCount (g : Clocks → Clocks) : (s.modClocks g).freeCount = s.freeCount := rfl
@[simp] theorem State.modClocks_regs (g : Clocks → Clocks) : (s.modClocks g).regs = s.regs := rfl
@[simp] theorem State.modClocks_mem (g : Clocks → Clocks) : (s.modClocks g).mem = s.mem := rfl
@[simp] theorem State.modClocks_fields (g : Clocks → Clocks) : (s.modClocks g).fields = s.fields := rfl
@[simp] theorem State.modClocks_spans (g : Clocks → Clocks) : (s.modClocks g).spans = s.spans := rfl
@[simp] theorem State.modClocks_towers (g : Clocks → Clocks) : (s.modClocks g).towers = s.towers := rfl
@[simp] theorem State.modClocks_channels (g : Clocks → Clocks) : (s.modClocks g).channels = s.channels := rfl
@[simp] theorem State.modClocks_sets (g : Clocks → Clocks) : (s.modClocks g).sets = s.sets := rfl
@[simp] theorem State.modClocks_mesh (g : Clocks → Clocks) : (s.modClocks g).mesh = s.mesh := rfl
@[simp] theorem State.modClocks_recorder (g : Clocks → Clocks) : (s.modClocks g).recorder = s.recorder := rfl
@[simp] theorem State.modClocks_faults (g : Clocks → Clocks) : (s.modClocks g).faults = s.faults := rfl
@[simp] theorem State.modClocks_tests (g : Clocks → Clocks) : (s.modClocks g).tests = s.tests := rfl
@[simp] theorem State.modClocks_control (g : Clocks → Clocks) : (s.modClocks g).control = s.control := rfl
@[simp] theorem State.modClocks_boot (g : Clocks → Clocks) : (s.modClocks g).boot = s.boot := rfl
@[simp] theorem State.modClocks_ports (g : Clocks → Clocks) : (s.modClocks g).ports = s.ports := rfl
@[simp] theorem State.modClocks_clocks (g : Clocks → Clocks) : (s.modClocks g).clocks = g s.clocks := rfl
@[simp] theorem State.modClocks_supply (g : Clocks → Clocks) : (s.modClocks g).supply = s.supply := rfl
@[simp] theorem State.modClocks_jtag (g : Clocks → Clocks) : (s.modClocks g).jtag = s.jtag := rfl

/-! ### modSupply -/

@[simp] theorem State.modSupply_pending (g : Supply → Supply) : (s.modSupply g).pending = s.pending := rfl
@[simp] theorem State.modSupply_outbox (g : Supply → Supply) : (s.modSupply g).outbox = s.outbox := rfl
@[simp] theorem State.modSupply_freeCount (g : Supply → Supply) : (s.modSupply g).freeCount = s.freeCount := rfl
@[simp] theorem State.modSupply_regs (g : Supply → Supply) : (s.modSupply g).regs = s.regs := rfl
@[simp] theorem State.modSupply_mem (g : Supply → Supply) : (s.modSupply g).mem = s.mem := rfl
@[simp] theorem State.modSupply_fields (g : Supply → Supply) : (s.modSupply g).fields = s.fields := rfl
@[simp] theorem State.modSupply_spans (g : Supply → Supply) : (s.modSupply g).spans = s.spans := rfl
@[simp] theorem State.modSupply_towers (g : Supply → Supply) : (s.modSupply g).towers = s.towers := rfl
@[simp] theorem State.modSupply_channels (g : Supply → Supply) : (s.modSupply g).channels = s.channels := rfl
@[simp] theorem State.modSupply_sets (g : Supply → Supply) : (s.modSupply g).sets = s.sets := rfl
@[simp] theorem State.modSupply_mesh (g : Supply → Supply) : (s.modSupply g).mesh = s.mesh := rfl
@[simp] theorem State.modSupply_recorder (g : Supply → Supply) : (s.modSupply g).recorder = s.recorder := rfl
@[simp] theorem State.modSupply_faults (g : Supply → Supply) : (s.modSupply g).faults = s.faults := rfl
@[simp] theorem State.modSupply_tests (g : Supply → Supply) : (s.modSupply g).tests = s.tests := rfl
@[simp] theorem State.modSupply_control (g : Supply → Supply) : (s.modSupply g).control = s.control := rfl
@[simp] theorem State.modSupply_boot (g : Supply → Supply) : (s.modSupply g).boot = s.boot := rfl
@[simp] theorem State.modSupply_ports (g : Supply → Supply) : (s.modSupply g).ports = s.ports := rfl
@[simp] theorem State.modSupply_clocks (g : Supply → Supply) : (s.modSupply g).clocks = s.clocks := rfl
@[simp] theorem State.modSupply_supply (g : Supply → Supply) : (s.modSupply g).supply = g s.supply := rfl
@[simp] theorem State.modSupply_jtag (g : Supply → Supply) : (s.modSupply g).jtag = s.jtag := rfl

/-! ### modEth -/

@[simp] theorem State.modEth_pending (e : Nat) (g : EthPort → EthPort) : (s.modEth e g).pending = s.pending := rfl
@[simp] theorem State.modEth_outbox (e : Nat) (g : EthPort → EthPort) : (s.modEth e g).outbox = s.outbox := rfl
@[simp] theorem State.modEth_freeCount (e : Nat) (g : EthPort → EthPort) : (s.modEth e g).freeCount = s.freeCount := rfl
@[simp] theorem State.modEth_regs (e : Nat) (g : EthPort → EthPort) : (s.modEth e g).regs = s.regs := rfl
@[simp] theorem State.modEth_mem (e : Nat) (g : EthPort → EthPort) : (s.modEth e g).mem = s.mem := rfl
@[simp] theorem State.modEth_fields (e : Nat) (g : EthPort → EthPort) : (s.modEth e g).fields = s.fields := rfl
@[simp] theorem State.modEth_spans (e : Nat) (g : EthPort → EthPort) : (s.modEth e g).spans = s.spans := rfl
@[simp] theorem State.modEth_towers (e : Nat) (g : EthPort → EthPort) : (s.modEth e g).towers = s.towers := rfl
@[simp] theorem State.modEth_channels (e : Nat) (g : EthPort → EthPort) : (s.modEth e g).channels = s.channels := rfl
@[simp] theorem State.modEth_sets (e : Nat) (g : EthPort → EthPort) : (s.modEth e g).sets = s.sets := rfl
@[simp] theorem State.modEth_mesh (e : Nat) (g : EthPort → EthPort) : (s.modEth e g).mesh = s.mesh := rfl
@[simp] theorem State.modEth_recorder (e : Nat) (g : EthPort → EthPort) : (s.modEth e g).recorder = s.recorder := rfl
@[simp] theorem State.modEth_faults (e : Nat) (g : EthPort → EthPort) : (s.modEth e g).faults = s.faults := rfl
@[simp] theorem State.modEth_tests (e : Nat) (g : EthPort → EthPort) : (s.modEth e g).tests = s.tests := rfl
@[simp] theorem State.modEth_control (e : Nat) (g : EthPort → EthPort) : (s.modEth e g).control = s.control := rfl
@[simp] theorem State.modEth_boot (e : Nat) (g : EthPort → EthPort) : (s.modEth e g).boot = s.boot := rfl
@[simp] theorem State.modEth_ports (e : Nat) (g : EthPort → EthPort) : (s.modEth e g).ports = { s.ports with eth := s.ports.eth.modify e g } := rfl
@[simp] theorem State.modEth_clocks (e : Nat) (g : EthPort → EthPort) : (s.modEth e g).clocks = s.clocks := rfl
@[simp] theorem State.modEth_supply (e : Nat) (g : EthPort → EthPort) : (s.modEth e g).supply = s.supply := rfl
@[simp] theorem State.modEth_jtag (e : Nat) (g : EthPort → EthPort) : (s.modEth e g).jtag = s.jtag := rfl

/-! ### modLink -/

@[simp] theorem State.modLink_pending (p : Nat) (g : Spanlink → Spanlink) : (s.modLink p g).pending = s.pending := rfl
@[simp] theorem State.modLink_outbox (p : Nat) (g : Spanlink → Spanlink) : (s.modLink p g).outbox = s.outbox := rfl
@[simp] theorem State.modLink_freeCount (p : Nat) (g : Spanlink → Spanlink) : (s.modLink p g).freeCount = s.freeCount := rfl
@[simp] theorem State.modLink_regs (p : Nat) (g : Spanlink → Spanlink) : (s.modLink p g).regs = s.regs := rfl
@[simp] theorem State.modLink_mem (p : Nat) (g : Spanlink → Spanlink) : (s.modLink p g).mem = s.mem := rfl
@[simp] theorem State.modLink_fields (p : Nat) (g : Spanlink → Spanlink) : (s.modLink p g).fields = s.fields := rfl
@[simp] theorem State.modLink_spans (p : Nat) (g : Spanlink → Spanlink) : (s.modLink p g).spans = s.spans := rfl
@[simp] theorem State.modLink_towers (p : Nat) (g : Spanlink → Spanlink) : (s.modLink p g).towers = s.towers := rfl
@[simp] theorem State.modLink_channels (p : Nat) (g : Spanlink → Spanlink) : (s.modLink p g).channels = s.channels := rfl
@[simp] theorem State.modLink_sets (p : Nat) (g : Spanlink → Spanlink) : (s.modLink p g).sets = s.sets := rfl
@[simp] theorem State.modLink_mesh (p : Nat) (g : Spanlink → Spanlink) : (s.modLink p g).mesh = s.mesh := rfl
@[simp] theorem State.modLink_recorder (p : Nat) (g : Spanlink → Spanlink) : (s.modLink p g).recorder = s.recorder := rfl
@[simp] theorem State.modLink_faults (p : Nat) (g : Spanlink → Spanlink) : (s.modLink p g).faults = s.faults := rfl
@[simp] theorem State.modLink_tests (p : Nat) (g : Spanlink → Spanlink) : (s.modLink p g).tests = s.tests := rfl
@[simp] theorem State.modLink_control (p : Nat) (g : Spanlink → Spanlink) : (s.modLink p g).control = s.control := rfl
@[simp] theorem State.modLink_boot (p : Nat) (g : Spanlink → Spanlink) : (s.modLink p g).boot = s.boot := rfl
@[simp] theorem State.modLink_ports (p : Nat) (g : Spanlink → Spanlink) : (s.modLink p g).ports = { s.ports with links := s.ports.links.modify p g } := rfl
@[simp] theorem State.modLink_clocks (p : Nat) (g : Spanlink → Spanlink) : (s.modLink p g).clocks = s.clocks := rfl
@[simp] theorem State.modLink_supply (p : Nat) (g : Spanlink → Spanlink) : (s.modLink p g).supply = s.supply := rfl
@[simp] theorem State.modLink_jtag (p : Nat) (g : Spanlink → Spanlink) : (s.modLink p g).jtag = s.jtag := rfl

/-! ### nextFree -/

@[simp] theorem State.nextFree_pending : (s.nextFree).pending = s.pending := rfl
@[simp] theorem State.nextFree_outbox : (s.nextFree).outbox = s.outbox := rfl
@[simp] theorem State.nextFree_freeCount : (s.nextFree).freeCount = s.freeCount + 1 := rfl
@[simp] theorem State.nextFree_regs : (s.nextFree).regs = s.regs := rfl
@[simp] theorem State.nextFree_mem : (s.nextFree).mem = s.mem := rfl
@[simp] theorem State.nextFree_fields : (s.nextFree).fields = s.fields := rfl
@[simp] theorem State.nextFree_spans : (s.nextFree).spans = s.spans := rfl
@[simp] theorem State.nextFree_towers : (s.nextFree).towers = s.towers := rfl
@[simp] theorem State.nextFree_channels : (s.nextFree).channels = s.channels := rfl
@[simp] theorem State.nextFree_sets : (s.nextFree).sets = s.sets := rfl
@[simp] theorem State.nextFree_mesh : (s.nextFree).mesh = s.mesh := rfl
@[simp] theorem State.nextFree_recorder : (s.nextFree).recorder = s.recorder := rfl
@[simp] theorem State.nextFree_faults : (s.nextFree).faults = s.faults := rfl
@[simp] theorem State.nextFree_tests : (s.nextFree).tests = s.tests := rfl
@[simp] theorem State.nextFree_control : (s.nextFree).control = s.control := rfl
@[simp] theorem State.nextFree_boot : (s.nextFree).boot = s.boot := rfl
@[simp] theorem State.nextFree_ports : (s.nextFree).ports = s.ports := rfl
@[simp] theorem State.nextFree_clocks : (s.nextFree).clocks = s.clocks := rfl
@[simp] theorem State.nextFree_supply : (s.nextFree).supply = s.supply := rfl
@[simp] theorem State.nextFree_jtag : (s.nextFree).jtag = s.jtag := rfl

/-! ### emit -/

@[simp] theorem State.emit_pending (e : Emission) : (s.emit e).pending = s.pending := rfl
@[simp] theorem State.emit_outbox (e : Emission) : (s.emit e).outbox = e :: s.outbox := rfl
@[simp] theorem State.emit_freeCount (e : Emission) : (s.emit e).freeCount = s.freeCount := rfl
@[simp] theorem State.emit_regs (e : Emission) : (s.emit e).regs = s.regs := rfl
@[simp] theorem State.emit_mem (e : Emission) : (s.emit e).mem = s.mem := rfl
@[simp] theorem State.emit_fields (e : Emission) : (s.emit e).fields = s.fields := rfl
@[simp] theorem State.emit_spans (e : Emission) : (s.emit e).spans = s.spans := rfl
@[simp] theorem State.emit_towers (e : Emission) : (s.emit e).towers = s.towers := rfl
@[simp] theorem State.emit_channels (e : Emission) : (s.emit e).channels = s.channels := rfl
@[simp] theorem State.emit_sets (e : Emission) : (s.emit e).sets = s.sets := rfl
@[simp] theorem State.emit_mesh (e : Emission) : (s.emit e).mesh = s.mesh := rfl
@[simp] theorem State.emit_recorder (e : Emission) : (s.emit e).recorder = s.recorder := rfl
@[simp] theorem State.emit_faults (e : Emission) : (s.emit e).faults = s.faults := rfl
@[simp] theorem State.emit_tests (e : Emission) : (s.emit e).tests = s.tests := rfl
@[simp] theorem State.emit_control (e : Emission) : (s.emit e).control = s.control := rfl
@[simp] theorem State.emit_boot (e : Emission) : (s.emit e).boot = s.boot := rfl
@[simp] theorem State.emit_ports (e : Emission) : (s.emit e).ports = s.ports := rfl
@[simp] theorem State.emit_clocks (e : Emission) : (s.emit e).clocks = s.clocks := rfl
@[simp] theorem State.emit_supply (e : Emission) : (s.emit e).supply = s.supply := rfl
@[simp] theorem State.emit_jtag (e : Emission) : (s.emit e).jtag = s.jtag := rfl

/-! ### write -/

@[simp] theorem State.write_pending (k : Nat) (l : List Byte) : (s.write k l).pending = s.pending := rfl
@[simp] theorem State.write_outbox (k : Nat) (l : List Byte) : (s.write k l).outbox = s.outbox := rfl
@[simp] theorem State.write_freeCount (k : Nat) (l : List Byte) : (s.write k l).freeCount = s.freeCount := rfl
@[simp] theorem State.write_regs (k : Nat) (l : List Byte) : (s.write k l).regs = s.regs := rfl
@[simp] theorem State.write_mem (k : Nat) (l : List Byte) : (s.write k l).mem = s.mem.write k l := rfl
@[simp] theorem State.write_fields (k : Nat) (l : List Byte) : (s.write k l).fields = s.fields := rfl
@[simp] theorem State.write_spans (k : Nat) (l : List Byte) : (s.write k l).spans = s.spans := rfl
@[simp] theorem State.write_towers (k : Nat) (l : List Byte) : (s.write k l).towers = s.towers := rfl
@[simp] theorem State.write_channels (k : Nat) (l : List Byte) : (s.write k l).channels = s.channels := rfl
@[simp] theorem State.write_sets (k : Nat) (l : List Byte) : (s.write k l).sets = s.sets := rfl
@[simp] theorem State.write_mesh (k : Nat) (l : List Byte) : (s.write k l).mesh = s.mesh := rfl
@[simp] theorem State.write_recorder (k : Nat) (l : List Byte) : (s.write k l).recorder = s.recorder := rfl
@[simp] theorem State.write_faults (k : Nat) (l : List Byte) : (s.write k l).faults = s.faults := rfl
@[simp] theorem State.write_tests (k : Nat) (l : List Byte) : (s.write k l).tests = s.tests := rfl
@[simp] theorem State.write_control (k : Nat) (l : List Byte) : (s.write k l).control = s.control := rfl
@[simp] theorem State.write_boot (k : Nat) (l : List Byte) : (s.write k l).boot = s.boot := rfl
@[simp] theorem State.write_ports (k : Nat) (l : List Byte) : (s.write k l).ports = s.ports := rfl
@[simp] theorem State.write_clocks (k : Nat) (l : List Byte) : (s.write k l).clocks = s.clocks := rfl
@[simp] theorem State.write_supply (k : Nat) (l : List Byte) : (s.write k l).supply = s.supply := rfl
@[simp] theorem State.write_jtag (k : Nat) (l : List Byte) : (s.write k l).jtag = s.jtag := rfl

/-! ### wipe -/

@[simp] theorem State.wipe_pending (lo hi : Nat) : (s.wipe lo hi).pending = s.pending := rfl
@[simp] theorem State.wipe_outbox (lo hi : Nat) : (s.wipe lo hi).outbox = s.outbox := rfl
@[simp] theorem State.wipe_freeCount (lo hi : Nat) : (s.wipe lo hi).freeCount = s.freeCount := rfl
@[simp] theorem State.wipe_regs (lo hi : Nat) : (s.wipe lo hi).regs = s.regs := rfl
@[simp] theorem State.wipe_mem (lo hi : Nat) : (s.wipe lo hi).mem = s.mem.clear lo hi := rfl
@[simp] theorem State.wipe_fields (lo hi : Nat) : (s.wipe lo hi).fields = s.fields := rfl
@[simp] theorem State.wipe_spans (lo hi : Nat) : (s.wipe lo hi).spans = s.spans := rfl
@[simp] theorem State.wipe_towers (lo hi : Nat) : (s.wipe lo hi).towers = s.towers := rfl
@[simp] theorem State.wipe_channels (lo hi : Nat) : (s.wipe lo hi).channels = s.channels := rfl
@[simp] theorem State.wipe_sets (lo hi : Nat) : (s.wipe lo hi).sets = s.sets := rfl
@[simp] theorem State.wipe_mesh (lo hi : Nat) : (s.wipe lo hi).mesh = s.mesh := rfl
@[simp] theorem State.wipe_recorder (lo hi : Nat) : (s.wipe lo hi).recorder = s.recorder := rfl
@[simp] theorem State.wipe_faults (lo hi : Nat) : (s.wipe lo hi).faults = s.faults := rfl
@[simp] theorem State.wipe_tests (lo hi : Nat) : (s.wipe lo hi).tests = s.tests := rfl
@[simp] theorem State.wipe_control (lo hi : Nat) : (s.wipe lo hi).control = s.control := rfl
@[simp] theorem State.wipe_boot (lo hi : Nat) : (s.wipe lo hi).boot = s.boot := rfl
@[simp] theorem State.wipe_ports (lo hi : Nat) : (s.wipe lo hi).ports = s.ports := rfl
@[simp] theorem State.wipe_clocks (lo hi : Nat) : (s.wipe lo hi).clocks = s.clocks := rfl
@[simp] theorem State.wipe_supply (lo hi : Nat) : (s.wipe lo hi).supply = s.supply := rfl
@[simp] theorem State.wipe_jtag (lo hi : Nat) : (s.wipe lo hi).jtag = s.jtag := rfl

/-! ### event -/

@[simp] theorem State.event_pending (source code : Nat) (data : List Byte) : (s.event source code data).pending = s.pending := rfl
@[simp] theorem State.event_outbox (source code : Nat) (data : List Byte) : (s.event source code data).outbox = s.outbox := rfl
@[simp] theorem State.event_freeCount (source code : Nat) (data : List Byte) : (s.event source code data).freeCount = s.freeCount := rfl
@[simp] theorem State.event_regs (source code : Nat) (data : List Byte) : (s.event source code data).regs = s.regs := rfl
@[simp] theorem State.event_mem (source code : Nat) (data : List Byte) : (s.event source code data).mem = s.mem := rfl
@[simp] theorem State.event_fields (source code : Nat) (data : List Byte) : (s.event source code data).fields = s.fields := rfl
@[simp] theorem State.event_spans (source code : Nat) (data : List Byte) : (s.event source code data).spans = s.spans := rfl
@[simp] theorem State.event_towers (source code : Nat) (data : List Byte) : (s.event source code data).towers = s.towers := rfl
@[simp] theorem State.event_channels (source code : Nat) (data : List Byte) : (s.event source code data).channels = s.channels := rfl
@[simp] theorem State.event_sets (source code : Nat) (data : List Byte) : (s.event source code data).sets = s.sets := rfl
@[simp] theorem State.event_mesh (source code : Nat) (data : List Byte) : (s.event source code data).mesh = s.mesh := rfl
@[simp] theorem State.event_faults (source code : Nat) (data : List Byte) : (s.event source code data).faults = s.faults := rfl
@[simp] theorem State.event_tests (source code : Nat) (data : List Byte) : (s.event source code data).tests = s.tests := rfl
@[simp] theorem State.event_control (source code : Nat) (data : List Byte) : (s.event source code data).control = s.control := rfl
@[simp] theorem State.event_boot (source code : Nat) (data : List Byte) : (s.event source code data).boot = s.boot := rfl
@[simp] theorem State.event_ports (source code : Nat) (data : List Byte) : (s.event source code data).ports = s.ports := rfl
@[simp] theorem State.event_clocks (source code : Nat) (data : List Byte) : (s.event source code data).clocks = s.clocks := rfl
@[simp] theorem State.event_supply (source code : Nat) (data : List Byte) : (s.event source code data).supply = s.supply := rfl
@[simp] theorem State.event_jtag (source code : Nat) (data : List Byte) : (s.event source code data).jtag = s.jtag := rfl

/-! ### supEvent -/

@[simp] theorem State.supEvent_pending (code : Nat) (data : List Byte) : (s.supEvent code data).pending = s.pending := rfl
@[simp] theorem State.supEvent_outbox (code : Nat) (data : List Byte) : (s.supEvent code data).outbox = s.outbox := rfl
@[simp] theorem State.supEvent_freeCount (code : Nat) (data : List Byte) : (s.supEvent code data).freeCount = s.freeCount := rfl
@[simp] theorem State.supEvent_regs (code : Nat) (data : List Byte) : (s.supEvent code data).regs = s.regs := rfl
@[simp] theorem State.supEvent_mem (code : Nat) (data : List Byte) : (s.supEvent code data).mem = s.mem := rfl
@[simp] theorem State.supEvent_fields (code : Nat) (data : List Byte) : (s.supEvent code data).fields = s.fields := rfl
@[simp] theorem State.supEvent_spans (code : Nat) (data : List Byte) : (s.supEvent code data).spans = s.spans := rfl
@[simp] theorem State.supEvent_towers (code : Nat) (data : List Byte) : (s.supEvent code data).towers = s.towers := rfl
@[simp] theorem State.supEvent_channels (code : Nat) (data : List Byte) : (s.supEvent code data).channels = s.channels := rfl
@[simp] theorem State.supEvent_sets (code : Nat) (data : List Byte) : (s.supEvent code data).sets = s.sets := rfl
@[simp] theorem State.supEvent_mesh (code : Nat) (data : List Byte) : (s.supEvent code data).mesh = s.mesh := rfl
@[simp] theorem State.supEvent_faults (code : Nat) (data : List Byte) : (s.supEvent code data).faults = s.faults := rfl
@[simp] theorem State.supEvent_tests (code : Nat) (data : List Byte) : (s.supEvent code data).tests = s.tests := rfl
@[simp] theorem State.supEvent_control (code : Nat) (data : List Byte) : (s.supEvent code data).control = s.control := rfl
@[simp] theorem State.supEvent_boot (code : Nat) (data : List Byte) : (s.supEvent code data).boot = s.boot := rfl
@[simp] theorem State.supEvent_ports (code : Nat) (data : List Byte) : (s.supEvent code data).ports = s.ports := rfl
@[simp] theorem State.supEvent_clocks (code : Nat) (data : List Byte) : (s.supEvent code data).clocks = s.clocks := rfl
@[simp] theorem State.supEvent_supply (code : Nat) (data : List Byte) : (s.supEvent code data).supply = s.supply := rfl
@[simp] theorem State.supEvent_jtag (code : Nat) (data : List Byte) : (s.supEvent code data).jtag = s.jtag := rfl

/-! ### ignored -/

@[simp] theorem State.ignored_pending (k n : Nat) : (s.ignored k n).pending = s.pending := rfl
@[simp] theorem State.ignored_outbox (k n : Nat) : (s.ignored k n).outbox = s.outbox := rfl
@[simp] theorem State.ignored_freeCount (k n : Nat) : (s.ignored k n).freeCount = s.freeCount := rfl
@[simp] theorem State.ignored_regs (k n : Nat) : (s.ignored k n).regs = s.regs := rfl
@[simp] theorem State.ignored_mem (k n : Nat) : (s.ignored k n).mem = s.mem := rfl
@[simp] theorem State.ignored_fields (k n : Nat) : (s.ignored k n).fields = s.fields := rfl
@[simp] theorem State.ignored_spans (k n : Nat) : (s.ignored k n).spans = s.spans := rfl
@[simp] theorem State.ignored_towers (k n : Nat) : (s.ignored k n).towers = s.towers := rfl
@[simp] theorem State.ignored_channels (k n : Nat) : (s.ignored k n).channels = s.channels := rfl
@[simp] theorem State.ignored_sets (k n : Nat) : (s.ignored k n).sets = s.sets := rfl
@[simp] theorem State.ignored_mesh (k n : Nat) : (s.ignored k n).mesh = s.mesh := rfl
@[simp] theorem State.ignored_faults (k n : Nat) : (s.ignored k n).faults = s.faults := rfl
@[simp] theorem State.ignored_tests (k n : Nat) : (s.ignored k n).tests = s.tests := rfl
@[simp] theorem State.ignored_control (k n : Nat) : (s.ignored k n).control = s.control := rfl
@[simp] theorem State.ignored_boot (k n : Nat) : (s.ignored k n).boot = s.boot := rfl
@[simp] theorem State.ignored_ports (k n : Nat) : (s.ignored k n).ports = s.ports := rfl
@[simp] theorem State.ignored_clocks (k n : Nat) : (s.ignored k n).clocks = s.clocks := rfl
@[simp] theorem State.ignored_supply (k n : Nat) : (s.ignored k n).supply = s.supply := rfl
@[simp] theorem State.ignored_jtag (k n : Nat) : (s.ignored k n).jtag = s.jtag := rfl

/-! ### markPause -/

@[simp] theorem State.markPause_pending (k : Nat) (r : PauseReason) : (s.markPause k r).pending = s.pending := rfl
@[simp] theorem State.markPause_outbox (k : Nat) (r : PauseReason) : (s.markPause k r).outbox = s.outbox := rfl
@[simp] theorem State.markPause_freeCount (k : Nat) (r : PauseReason) : (s.markPause k r).freeCount = s.freeCount := rfl
@[simp] theorem State.markPause_regs (k : Nat) (r : PauseReason) : (s.markPause k r).regs = s.regs := rfl
@[simp] theorem State.markPause_mem (k : Nat) (r : PauseReason) : (s.markPause k r).mem = s.mem := rfl
@[simp] theorem State.markPause_fields (k : Nat) (r : PauseReason) : (s.markPause k r).fields = s.fields := rfl
@[simp] theorem State.markPause_towers (k : Nat) (r : PauseReason) : (s.markPause k r).towers = s.towers := rfl
@[simp] theorem State.markPause_channels (k : Nat) (r : PauseReason) : (s.markPause k r).channels = s.channels := rfl
@[simp] theorem State.markPause_sets (k : Nat) (r : PauseReason) : (s.markPause k r).sets = s.sets := rfl
@[simp] theorem State.markPause_mesh (k : Nat) (r : PauseReason) : (s.markPause k r).mesh = s.mesh := rfl
@[simp] theorem State.markPause_recorder (k : Nat) (r : PauseReason) : (s.markPause k r).recorder = s.recorder := rfl
@[simp] theorem State.markPause_faults (k : Nat) (r : PauseReason) : (s.markPause k r).faults = s.faults := rfl
@[simp] theorem State.markPause_tests (k : Nat) (r : PauseReason) : (s.markPause k r).tests = s.tests := rfl
@[simp] theorem State.markPause_control (k : Nat) (r : PauseReason) : (s.markPause k r).control = s.control := rfl
@[simp] theorem State.markPause_boot (k : Nat) (r : PauseReason) : (s.markPause k r).boot = s.boot := rfl
@[simp] theorem State.markPause_ports (k : Nat) (r : PauseReason) : (s.markPause k r).ports = s.ports := rfl
@[simp] theorem State.markPause_clocks (k : Nat) (r : PauseReason) : (s.markPause k r).clocks = s.clocks := rfl
@[simp] theorem State.markPause_supply (k : Nat) (r : PauseReason) : (s.markPause k r).supply = s.supply := rfl
@[simp] theorem State.markPause_jtag (k : Nat) (r : PauseReason) : (s.markPause k r).jtag = s.jtag := rfl

/-! ### The readers of State pass over the updates of other parts -/

@[simp] theorem State.field_setRegAt (o : Obj) (i j v : Nat) (x : Nat) : (s.setRegAt o i j v).field x = s.field x := rfl
@[simp] theorem State.field_setReg (o : Obj) (i v : Nat) (x : Nat) : (s.setReg o i v).field x = s.field x := rfl
@[simp] theorem State.field_bump (o : Obj) (i n : Nat) (x : Nat) : (s.bump o i n).field x = s.field x := rfl
@[simp] theorem State.field_modSpan (k : Nat) (g : Span → Span) (x : Nat) : (s.modSpan k g).field x = s.field x := rfl
@[simp] theorem State.field_modChannel (c : Nat) (g : Channel → Channel) (x : Nat) : (s.modChannel c g).field x = s.field x := rfl
@[simp] theorem State.field_modSet (k : Nat) (g : ISet → ISet) (x : Nat) : (s.modSet k g).field x = s.field x := rfl
@[simp] theorem State.field_modTower (t : Nat) (g : Tower → Tower) (x : Nat) : (s.modTower t g).field x = s.field x := rfl
@[simp] theorem State.field_modMesh (g : Mesh → Mesh) (x : Nat) : (s.modMesh g).field x = s.field x := rfl
@[simp] theorem State.field_modRouter (r : Nat) (g : Router → Router) (x : Nat) : (s.modRouter r g).field x = s.field x := rfl
@[simp] theorem State.field_modRec (g : Recorder → Recorder) (x : Nat) : (s.modRec g).field x = s.field x := rfl
@[simp] theorem State.field_modFaults (g : Faults → Faults) (x : Nat) : (s.modFaults g).field x = s.field x := rfl
@[simp] theorem State.field_modTests (g : TestEngine → TestEngine) (x : Nat) : (s.modTests g).field x = s.field x := rfl
@[simp] theorem State.field_modCtl (g : Control → Control) (x : Nat) : (s.modCtl g).field x = s.field x := rfl
@[simp] theorem State.field_modBoot (g : Boot → Boot) (x : Nat) : (s.modBoot g).field x = s.field x := rfl
@[simp] theorem State.field_modPorts (g : Ports → Ports) (x : Nat) : (s.modPorts g).field x = s.field x := rfl
@[simp] theorem State.field_modClocks (g : Clocks → Clocks) (x : Nat) : (s.modClocks g).field x = s.field x := rfl
@[simp] theorem State.field_modSupply (g : Supply → Supply) (x : Nat) : (s.modSupply g).field x = s.field x := rfl
@[simp] theorem State.field_modEth (e : Nat) (g : EthPort → EthPort) (x : Nat) : (s.modEth e g).field x = s.field x := rfl
@[simp] theorem State.field_modLink (p : Nat) (g : Spanlink → Spanlink) (x : Nat) : (s.modLink p g).field x = s.field x := rfl
@[simp] theorem State.field_nextFree (x : Nat) : (s.nextFree).field x = s.field x := rfl
@[simp] theorem State.field_emit (e : Emission) (x : Nat) : (s.emit e).field x = s.field x := rfl
@[simp] theorem State.field_write (k : Nat) (l : List Byte) (x : Nat) : (s.write k l).field x = s.field x := rfl
@[simp] theorem State.field_wipe (lo hi : Nat) (x : Nat) : (s.wipe lo hi).field x = s.field x := rfl
@[simp] theorem State.field_event (source code : Nat) (data : List Byte) (x : Nat) : (s.event source code data).field x = s.field x := rfl
@[simp] theorem State.field_supEvent (code : Nat) (data : List Byte) (x : Nat) : (s.supEvent code data).field x = s.field x := rfl
@[simp] theorem State.field_ignored (k n : Nat) (x : Nat) : (s.ignored k n).field x = s.field x := rfl
@[simp] theorem State.field_markPause (k : Nat) (r : PauseReason) (x : Nat) : (s.markPause k r).field x = s.field x := rfl

@[simp] theorem State.span_setRegAt (o : Obj) (i j v : Nat) (x : Nat) : (s.setRegAt o i j v).span x = s.span x := rfl
@[simp] theorem State.span_setReg (o : Obj) (i v : Nat) (x : Nat) : (s.setReg o i v).span x = s.span x := rfl
@[simp] theorem State.span_bump (o : Obj) (i n : Nat) (x : Nat) : (s.bump o i n).span x = s.span x := rfl
@[simp] theorem State.span_modField (f : Nat) (g : Field → Field) (x : Nat) : (s.modField f g).span x = s.span x := rfl
@[simp] theorem State.span_modChannel (c : Nat) (g : Channel → Channel) (x : Nat) : (s.modChannel c g).span x = s.span x := rfl
@[simp] theorem State.span_modSet (k : Nat) (g : ISet → ISet) (x : Nat) : (s.modSet k g).span x = s.span x := rfl
@[simp] theorem State.span_modTower (t : Nat) (g : Tower → Tower) (x : Nat) : (s.modTower t g).span x = s.span x := rfl
@[simp] theorem State.span_modMesh (g : Mesh → Mesh) (x : Nat) : (s.modMesh g).span x = s.span x := rfl
@[simp] theorem State.span_modRouter (r : Nat) (g : Router → Router) (x : Nat) : (s.modRouter r g).span x = s.span x := rfl
@[simp] theorem State.span_modSeq (f : Nat) (g : Sequencer → Sequencer) (x : Nat) : (s.modSeq f g).span x = s.span x := rfl
@[simp] theorem State.span_modArray (f : Nat) (g : ArrayS → ArrayS) (x : Nat) : (s.modArray f g).span x = s.span x := rfl
@[simp] theorem State.span_modBank (f b : Nat) (g : Bank → Bank) (x : Nat) : (s.modBank f b g).span x = s.span x := rfl
@[simp] theorem State.span_modMover (f c : Nat) (g : Mover → Mover) (x : Nat) : (s.modMover f c g).span x = s.span x := rfl
@[simp] theorem State.span_modPower (f : Nat) (g : PowerS → PowerS) (x : Nat) : (s.modPower f g).span x = s.span x := rfl
@[simp] theorem State.span_modClock (f : Nat) (g : FieldClock → FieldClock) (x : Nat) : (s.modClock f g).span x = s.span x := rfl
@[simp] theorem State.span_modRec (g : Recorder → Recorder) (x : Nat) : (s.modRec g).span x = s.span x := rfl
@[simp] theorem State.span_modFaults (g : Faults → Faults) (x : Nat) : (s.modFaults g).span x = s.span x := rfl
@[simp] theorem State.span_modTests (g : TestEngine → TestEngine) (x : Nat) : (s.modTests g).span x = s.span x := rfl
@[simp] theorem State.span_modCtl (g : Control → Control) (x : Nat) : (s.modCtl g).span x = s.span x := rfl
@[simp] theorem State.span_modBoot (g : Boot → Boot) (x : Nat) : (s.modBoot g).span x = s.span x := rfl
@[simp] theorem State.span_modPorts (g : Ports → Ports) (x : Nat) : (s.modPorts g).span x = s.span x := rfl
@[simp] theorem State.span_modClocks (g : Clocks → Clocks) (x : Nat) : (s.modClocks g).span x = s.span x := rfl
@[simp] theorem State.span_modSupply (g : Supply → Supply) (x : Nat) : (s.modSupply g).span x = s.span x := rfl
@[simp] theorem State.span_modEth (e : Nat) (g : EthPort → EthPort) (x : Nat) : (s.modEth e g).span x = s.span x := rfl
@[simp] theorem State.span_modLink (p : Nat) (g : Spanlink → Spanlink) (x : Nat) : (s.modLink p g).span x = s.span x := rfl
@[simp] theorem State.span_nextFree (x : Nat) : (s.nextFree).span x = s.span x := rfl
@[simp] theorem State.span_emit (e : Emission) (x : Nat) : (s.emit e).span x = s.span x := rfl
@[simp] theorem State.span_write (k : Nat) (l : List Byte) (x : Nat) : (s.write k l).span x = s.span x := rfl
@[simp] theorem State.span_wipe (lo hi : Nat) (x : Nat) : (s.wipe lo hi).span x = s.span x := rfl
@[simp] theorem State.span_event (source code : Nat) (data : List Byte) (x : Nat) : (s.event source code data).span x = s.span x := rfl
@[simp] theorem State.span_supEvent (code : Nat) (data : List Byte) (x : Nat) : (s.supEvent code data).span x = s.span x := rfl
@[simp] theorem State.span_ignored (k n : Nat) (x : Nat) : (s.ignored k n).span x = s.span x := rfl

@[simp] theorem State.channel_setRegAt (o : Obj) (i j v : Nat) (x : Nat) : (s.setRegAt o i j v).channel x = s.channel x := rfl
@[simp] theorem State.channel_setReg (o : Obj) (i v : Nat) (x : Nat) : (s.setReg o i v).channel x = s.channel x := rfl
@[simp] theorem State.channel_bump (o : Obj) (i n : Nat) (x : Nat) : (s.bump o i n).channel x = s.channel x := rfl
@[simp] theorem State.channel_modField (f : Nat) (g : Field → Field) (x : Nat) : (s.modField f g).channel x = s.channel x := rfl
@[simp] theorem State.channel_modSpan (k : Nat) (g : Span → Span) (x : Nat) : (s.modSpan k g).channel x = s.channel x := rfl
@[simp] theorem State.channel_modSet (k : Nat) (g : ISet → ISet) (x : Nat) : (s.modSet k g).channel x = s.channel x := rfl
@[simp] theorem State.channel_modTower (t : Nat) (g : Tower → Tower) (x : Nat) : (s.modTower t g).channel x = s.channel x := rfl
@[simp] theorem State.channel_modMesh (g : Mesh → Mesh) (x : Nat) : (s.modMesh g).channel x = s.channel x := rfl
@[simp] theorem State.channel_modRouter (r : Nat) (g : Router → Router) (x : Nat) : (s.modRouter r g).channel x = s.channel x := rfl
@[simp] theorem State.channel_modSeq (f : Nat) (g : Sequencer → Sequencer) (x : Nat) : (s.modSeq f g).channel x = s.channel x := rfl
@[simp] theorem State.channel_modArray (f : Nat) (g : ArrayS → ArrayS) (x : Nat) : (s.modArray f g).channel x = s.channel x := rfl
@[simp] theorem State.channel_modBank (f b : Nat) (g : Bank → Bank) (x : Nat) : (s.modBank f b g).channel x = s.channel x := rfl
@[simp] theorem State.channel_modMover (f c : Nat) (g : Mover → Mover) (x : Nat) : (s.modMover f c g).channel x = s.channel x := rfl
@[simp] theorem State.channel_modPower (f : Nat) (g : PowerS → PowerS) (x : Nat) : (s.modPower f g).channel x = s.channel x := rfl
@[simp] theorem State.channel_modClock (f : Nat) (g : FieldClock → FieldClock) (x : Nat) : (s.modClock f g).channel x = s.channel x := rfl
@[simp] theorem State.channel_modRec (g : Recorder → Recorder) (x : Nat) : (s.modRec g).channel x = s.channel x := rfl
@[simp] theorem State.channel_modFaults (g : Faults → Faults) (x : Nat) : (s.modFaults g).channel x = s.channel x := rfl
@[simp] theorem State.channel_modTests (g : TestEngine → TestEngine) (x : Nat) : (s.modTests g).channel x = s.channel x := rfl
@[simp] theorem State.channel_modCtl (g : Control → Control) (x : Nat) : (s.modCtl g).channel x = s.channel x := rfl
@[simp] theorem State.channel_modBoot (g : Boot → Boot) (x : Nat) : (s.modBoot g).channel x = s.channel x := rfl
@[simp] theorem State.channel_modPorts (g : Ports → Ports) (x : Nat) : (s.modPorts g).channel x = s.channel x := rfl
@[simp] theorem State.channel_modClocks (g : Clocks → Clocks) (x : Nat) : (s.modClocks g).channel x = s.channel x := rfl
@[simp] theorem State.channel_modSupply (g : Supply → Supply) (x : Nat) : (s.modSupply g).channel x = s.channel x := rfl
@[simp] theorem State.channel_modEth (e : Nat) (g : EthPort → EthPort) (x : Nat) : (s.modEth e g).channel x = s.channel x := rfl
@[simp] theorem State.channel_modLink (p : Nat) (g : Spanlink → Spanlink) (x : Nat) : (s.modLink p g).channel x = s.channel x := rfl
@[simp] theorem State.channel_nextFree (x : Nat) : (s.nextFree).channel x = s.channel x := rfl
@[simp] theorem State.channel_emit (e : Emission) (x : Nat) : (s.emit e).channel x = s.channel x := rfl
@[simp] theorem State.channel_write (k : Nat) (l : List Byte) (x : Nat) : (s.write k l).channel x = s.channel x := rfl
@[simp] theorem State.channel_wipe (lo hi : Nat) (x : Nat) : (s.wipe lo hi).channel x = s.channel x := rfl
@[simp] theorem State.channel_event (source code : Nat) (data : List Byte) (x : Nat) : (s.event source code data).channel x = s.channel x := rfl
@[simp] theorem State.channel_supEvent (code : Nat) (data : List Byte) (x : Nat) : (s.supEvent code data).channel x = s.channel x := rfl
@[simp] theorem State.channel_ignored (k n : Nat) (x : Nat) : (s.ignored k n).channel x = s.channel x := rfl
@[simp] theorem State.channel_markPause (k : Nat) (r : PauseReason) (x : Nat) : (s.markPause k r).channel x = s.channel x := rfl

@[simp] theorem State.set_setRegAt (o : Obj) (i j v : Nat) (x : Nat) : (s.setRegAt o i j v).set x = s.set x := rfl
@[simp] theorem State.set_setReg (o : Obj) (i v : Nat) (x : Nat) : (s.setReg o i v).set x = s.set x := rfl
@[simp] theorem State.set_bump (o : Obj) (i n : Nat) (x : Nat) : (s.bump o i n).set x = s.set x := rfl
@[simp] theorem State.set_modField (f : Nat) (g : Field → Field) (x : Nat) : (s.modField f g).set x = s.set x := rfl
@[simp] theorem State.set_modSpan (k : Nat) (g : Span → Span) (x : Nat) : (s.modSpan k g).set x = s.set x := rfl
@[simp] theorem State.set_modChannel (c : Nat) (g : Channel → Channel) (x : Nat) : (s.modChannel c g).set x = s.set x := rfl
@[simp] theorem State.set_modTower (t : Nat) (g : Tower → Tower) (x : Nat) : (s.modTower t g).set x = s.set x := rfl
@[simp] theorem State.set_modMesh (g : Mesh → Mesh) (x : Nat) : (s.modMesh g).set x = s.set x := rfl
@[simp] theorem State.set_modRouter (r : Nat) (g : Router → Router) (x : Nat) : (s.modRouter r g).set x = s.set x := rfl
@[simp] theorem State.set_modSeq (f : Nat) (g : Sequencer → Sequencer) (x : Nat) : (s.modSeq f g).set x = s.set x := rfl
@[simp] theorem State.set_modArray (f : Nat) (g : ArrayS → ArrayS) (x : Nat) : (s.modArray f g).set x = s.set x := rfl
@[simp] theorem State.set_modBank (f b : Nat) (g : Bank → Bank) (x : Nat) : (s.modBank f b g).set x = s.set x := rfl
@[simp] theorem State.set_modMover (f c : Nat) (g : Mover → Mover) (x : Nat) : (s.modMover f c g).set x = s.set x := rfl
@[simp] theorem State.set_modPower (f : Nat) (g : PowerS → PowerS) (x : Nat) : (s.modPower f g).set x = s.set x := rfl
@[simp] theorem State.set_modClock (f : Nat) (g : FieldClock → FieldClock) (x : Nat) : (s.modClock f g).set x = s.set x := rfl
@[simp] theorem State.set_modRec (g : Recorder → Recorder) (x : Nat) : (s.modRec g).set x = s.set x := rfl
@[simp] theorem State.set_modFaults (g : Faults → Faults) (x : Nat) : (s.modFaults g).set x = s.set x := rfl
@[simp] theorem State.set_modTests (g : TestEngine → TestEngine) (x : Nat) : (s.modTests g).set x = s.set x := rfl
@[simp] theorem State.set_modCtl (g : Control → Control) (x : Nat) : (s.modCtl g).set x = s.set x := rfl
@[simp] theorem State.set_modBoot (g : Boot → Boot) (x : Nat) : (s.modBoot g).set x = s.set x := rfl
@[simp] theorem State.set_modPorts (g : Ports → Ports) (x : Nat) : (s.modPorts g).set x = s.set x := rfl
@[simp] theorem State.set_modClocks (g : Clocks → Clocks) (x : Nat) : (s.modClocks g).set x = s.set x := rfl
@[simp] theorem State.set_modSupply (g : Supply → Supply) (x : Nat) : (s.modSupply g).set x = s.set x := rfl
@[simp] theorem State.set_modEth (e : Nat) (g : EthPort → EthPort) (x : Nat) : (s.modEth e g).set x = s.set x := rfl
@[simp] theorem State.set_modLink (p : Nat) (g : Spanlink → Spanlink) (x : Nat) : (s.modLink p g).set x = s.set x := rfl
@[simp] theorem State.set_nextFree (x : Nat) : (s.nextFree).set x = s.set x := rfl
@[simp] theorem State.set_emit (e : Emission) (x : Nat) : (s.emit e).set x = s.set x := rfl
@[simp] theorem State.set_write (k : Nat) (l : List Byte) (x : Nat) : (s.write k l).set x = s.set x := rfl
@[simp] theorem State.set_wipe (lo hi : Nat) (x : Nat) : (s.wipe lo hi).set x = s.set x := rfl
@[simp] theorem State.set_event (source code : Nat) (data : List Byte) (x : Nat) : (s.event source code data).set x = s.set x := rfl
@[simp] theorem State.set_supEvent (code : Nat) (data : List Byte) (x : Nat) : (s.supEvent code data).set x = s.set x := rfl
@[simp] theorem State.set_ignored (k n : Nat) (x : Nat) : (s.ignored k n).set x = s.set x := rfl
@[simp] theorem State.set_markPause (k : Nat) (r : PauseReason) (x : Nat) : (s.markPause k r).set x = s.set x := rfl

@[simp] theorem State.tower_setRegAt (o : Obj) (i j v : Nat) (x : Nat) : (s.setRegAt o i j v).tower x = s.tower x := rfl
@[simp] theorem State.tower_setReg (o : Obj) (i v : Nat) (x : Nat) : (s.setReg o i v).tower x = s.tower x := rfl
@[simp] theorem State.tower_bump (o : Obj) (i n : Nat) (x : Nat) : (s.bump o i n).tower x = s.tower x := rfl
@[simp] theorem State.tower_modField (f : Nat) (g : Field → Field) (x : Nat) : (s.modField f g).tower x = s.tower x := rfl
@[simp] theorem State.tower_modSpan (k : Nat) (g : Span → Span) (x : Nat) : (s.modSpan k g).tower x = s.tower x := rfl
@[simp] theorem State.tower_modChannel (c : Nat) (g : Channel → Channel) (x : Nat) : (s.modChannel c g).tower x = s.tower x := rfl
@[simp] theorem State.tower_modSet (k : Nat) (g : ISet → ISet) (x : Nat) : (s.modSet k g).tower x = s.tower x := rfl
@[simp] theorem State.tower_modMesh (g : Mesh → Mesh) (x : Nat) : (s.modMesh g).tower x = s.tower x := rfl
@[simp] theorem State.tower_modRouter (r : Nat) (g : Router → Router) (x : Nat) : (s.modRouter r g).tower x = s.tower x := rfl
@[simp] theorem State.tower_modSeq (f : Nat) (g : Sequencer → Sequencer) (x : Nat) : (s.modSeq f g).tower x = s.tower x := rfl
@[simp] theorem State.tower_modArray (f : Nat) (g : ArrayS → ArrayS) (x : Nat) : (s.modArray f g).tower x = s.tower x := rfl
@[simp] theorem State.tower_modBank (f b : Nat) (g : Bank → Bank) (x : Nat) : (s.modBank f b g).tower x = s.tower x := rfl
@[simp] theorem State.tower_modMover (f c : Nat) (g : Mover → Mover) (x : Nat) : (s.modMover f c g).tower x = s.tower x := rfl
@[simp] theorem State.tower_modPower (f : Nat) (g : PowerS → PowerS) (x : Nat) : (s.modPower f g).tower x = s.tower x := rfl
@[simp] theorem State.tower_modClock (f : Nat) (g : FieldClock → FieldClock) (x : Nat) : (s.modClock f g).tower x = s.tower x := rfl
@[simp] theorem State.tower_modRec (g : Recorder → Recorder) (x : Nat) : (s.modRec g).tower x = s.tower x := rfl
@[simp] theorem State.tower_modFaults (g : Faults → Faults) (x : Nat) : (s.modFaults g).tower x = s.tower x := rfl
@[simp] theorem State.tower_modTests (g : TestEngine → TestEngine) (x : Nat) : (s.modTests g).tower x = s.tower x := rfl
@[simp] theorem State.tower_modCtl (g : Control → Control) (x : Nat) : (s.modCtl g).tower x = s.tower x := rfl
@[simp] theorem State.tower_modBoot (g : Boot → Boot) (x : Nat) : (s.modBoot g).tower x = s.tower x := rfl
@[simp] theorem State.tower_modPorts (g : Ports → Ports) (x : Nat) : (s.modPorts g).tower x = s.tower x := rfl
@[simp] theorem State.tower_modClocks (g : Clocks → Clocks) (x : Nat) : (s.modClocks g).tower x = s.tower x := rfl
@[simp] theorem State.tower_modSupply (g : Supply → Supply) (x : Nat) : (s.modSupply g).tower x = s.tower x := rfl
@[simp] theorem State.tower_modEth (e : Nat) (g : EthPort → EthPort) (x : Nat) : (s.modEth e g).tower x = s.tower x := rfl
@[simp] theorem State.tower_modLink (p : Nat) (g : Spanlink → Spanlink) (x : Nat) : (s.modLink p g).tower x = s.tower x := rfl
@[simp] theorem State.tower_nextFree (x : Nat) : (s.nextFree).tower x = s.tower x := rfl
@[simp] theorem State.tower_emit (e : Emission) (x : Nat) : (s.emit e).tower x = s.tower x := rfl
@[simp] theorem State.tower_write (k : Nat) (l : List Byte) (x : Nat) : (s.write k l).tower x = s.tower x := rfl
@[simp] theorem State.tower_wipe (lo hi : Nat) (x : Nat) : (s.wipe lo hi).tower x = s.tower x := rfl
@[simp] theorem State.tower_event (source code : Nat) (data : List Byte) (x : Nat) : (s.event source code data).tower x = s.tower x := rfl
@[simp] theorem State.tower_supEvent (code : Nat) (data : List Byte) (x : Nat) : (s.supEvent code data).tower x = s.tower x := rfl
@[simp] theorem State.tower_ignored (k n : Nat) (x : Nat) : (s.ignored k n).tower x = s.tower x := rfl
@[simp] theorem State.tower_markPause (k : Nat) (r : PauseReason) (x : Nat) : (s.markPause k r).tower x = s.tower x := rfl

@[simp] theorem State.router_setRegAt (o : Obj) (i j v : Nat) (x : Nat) : (s.setRegAt o i j v).router x = s.router x := rfl
@[simp] theorem State.router_setReg (o : Obj) (i v : Nat) (x : Nat) : (s.setReg o i v).router x = s.router x := rfl
@[simp] theorem State.router_bump (o : Obj) (i n : Nat) (x : Nat) : (s.bump o i n).router x = s.router x := rfl
@[simp] theorem State.router_modField (f : Nat) (g : Field → Field) (x : Nat) : (s.modField f g).router x = s.router x := rfl
@[simp] theorem State.router_modSpan (k : Nat) (g : Span → Span) (x : Nat) : (s.modSpan k g).router x = s.router x := rfl
@[simp] theorem State.router_modChannel (c : Nat) (g : Channel → Channel) (x : Nat) : (s.modChannel c g).router x = s.router x := rfl
@[simp] theorem State.router_modSet (k : Nat) (g : ISet → ISet) (x : Nat) : (s.modSet k g).router x = s.router x := rfl
@[simp] theorem State.router_modTower (t : Nat) (g : Tower → Tower) (x : Nat) : (s.modTower t g).router x = s.router x := rfl
@[simp] theorem State.router_modSeq (f : Nat) (g : Sequencer → Sequencer) (x : Nat) : (s.modSeq f g).router x = s.router x := rfl
@[simp] theorem State.router_modArray (f : Nat) (g : ArrayS → ArrayS) (x : Nat) : (s.modArray f g).router x = s.router x := rfl
@[simp] theorem State.router_modBank (f b : Nat) (g : Bank → Bank) (x : Nat) : (s.modBank f b g).router x = s.router x := rfl
@[simp] theorem State.router_modMover (f c : Nat) (g : Mover → Mover) (x : Nat) : (s.modMover f c g).router x = s.router x := rfl
@[simp] theorem State.router_modPower (f : Nat) (g : PowerS → PowerS) (x : Nat) : (s.modPower f g).router x = s.router x := rfl
@[simp] theorem State.router_modClock (f : Nat) (g : FieldClock → FieldClock) (x : Nat) : (s.modClock f g).router x = s.router x := rfl
@[simp] theorem State.router_modRec (g : Recorder → Recorder) (x : Nat) : (s.modRec g).router x = s.router x := rfl
@[simp] theorem State.router_modFaults (g : Faults → Faults) (x : Nat) : (s.modFaults g).router x = s.router x := rfl
@[simp] theorem State.router_modTests (g : TestEngine → TestEngine) (x : Nat) : (s.modTests g).router x = s.router x := rfl
@[simp] theorem State.router_modCtl (g : Control → Control) (x : Nat) : (s.modCtl g).router x = s.router x := rfl
@[simp] theorem State.router_modBoot (g : Boot → Boot) (x : Nat) : (s.modBoot g).router x = s.router x := rfl
@[simp] theorem State.router_modPorts (g : Ports → Ports) (x : Nat) : (s.modPorts g).router x = s.router x := rfl
@[simp] theorem State.router_modClocks (g : Clocks → Clocks) (x : Nat) : (s.modClocks g).router x = s.router x := rfl
@[simp] theorem State.router_modSupply (g : Supply → Supply) (x : Nat) : (s.modSupply g).router x = s.router x := rfl
@[simp] theorem State.router_modEth (e : Nat) (g : EthPort → EthPort) (x : Nat) : (s.modEth e g).router x = s.router x := rfl
@[simp] theorem State.router_modLink (p : Nat) (g : Spanlink → Spanlink) (x : Nat) : (s.modLink p g).router x = s.router x := rfl
@[simp] theorem State.router_nextFree (x : Nat) : (s.nextFree).router x = s.router x := rfl
@[simp] theorem State.router_emit (e : Emission) (x : Nat) : (s.emit e).router x = s.router x := rfl
@[simp] theorem State.router_write (k : Nat) (l : List Byte) (x : Nat) : (s.write k l).router x = s.router x := rfl
@[simp] theorem State.router_wipe (lo hi : Nat) (x : Nat) : (s.wipe lo hi).router x = s.router x := rfl
@[simp] theorem State.router_event (source code : Nat) (data : List Byte) (x : Nat) : (s.event source code data).router x = s.router x := rfl
@[simp] theorem State.router_supEvent (code : Nat) (data : List Byte) (x : Nat) : (s.supEvent code data).router x = s.router x := rfl
@[simp] theorem State.router_ignored (k n : Nat) (x : Nat) : (s.ignored k n).router x = s.router x := rfl
@[simp] theorem State.router_markPause (k : Nat) (r : PauseReason) (x : Nat) : (s.markPause k r).router x = s.router x := rfl

@[simp] theorem State.eth_setRegAt (o : Obj) (i j v : Nat) (x : Nat) : (s.setRegAt o i j v).eth x = s.eth x := rfl
@[simp] theorem State.eth_setReg (o : Obj) (i v : Nat) (x : Nat) : (s.setReg o i v).eth x = s.eth x := rfl
@[simp] theorem State.eth_bump (o : Obj) (i n : Nat) (x : Nat) : (s.bump o i n).eth x = s.eth x := rfl
@[simp] theorem State.eth_modField (f : Nat) (g : Field → Field) (x : Nat) : (s.modField f g).eth x = s.eth x := rfl
@[simp] theorem State.eth_modSpan (k : Nat) (g : Span → Span) (x : Nat) : (s.modSpan k g).eth x = s.eth x := rfl
@[simp] theorem State.eth_modChannel (c : Nat) (g : Channel → Channel) (x : Nat) : (s.modChannel c g).eth x = s.eth x := rfl
@[simp] theorem State.eth_modSet (k : Nat) (g : ISet → ISet) (x : Nat) : (s.modSet k g).eth x = s.eth x := rfl
@[simp] theorem State.eth_modTower (t : Nat) (g : Tower → Tower) (x : Nat) : (s.modTower t g).eth x = s.eth x := rfl
@[simp] theorem State.eth_modMesh (g : Mesh → Mesh) (x : Nat) : (s.modMesh g).eth x = s.eth x := rfl
@[simp] theorem State.eth_modRouter (r : Nat) (g : Router → Router) (x : Nat) : (s.modRouter r g).eth x = s.eth x := rfl
@[simp] theorem State.eth_modSeq (f : Nat) (g : Sequencer → Sequencer) (x : Nat) : (s.modSeq f g).eth x = s.eth x := rfl
@[simp] theorem State.eth_modArray (f : Nat) (g : ArrayS → ArrayS) (x : Nat) : (s.modArray f g).eth x = s.eth x := rfl
@[simp] theorem State.eth_modBank (f b : Nat) (g : Bank → Bank) (x : Nat) : (s.modBank f b g).eth x = s.eth x := rfl
@[simp] theorem State.eth_modMover (f c : Nat) (g : Mover → Mover) (x : Nat) : (s.modMover f c g).eth x = s.eth x := rfl
@[simp] theorem State.eth_modPower (f : Nat) (g : PowerS → PowerS) (x : Nat) : (s.modPower f g).eth x = s.eth x := rfl
@[simp] theorem State.eth_modClock (f : Nat) (g : FieldClock → FieldClock) (x : Nat) : (s.modClock f g).eth x = s.eth x := rfl
@[simp] theorem State.eth_modRec (g : Recorder → Recorder) (x : Nat) : (s.modRec g).eth x = s.eth x := rfl
@[simp] theorem State.eth_modFaults (g : Faults → Faults) (x : Nat) : (s.modFaults g).eth x = s.eth x := rfl
@[simp] theorem State.eth_modTests (g : TestEngine → TestEngine) (x : Nat) : (s.modTests g).eth x = s.eth x := rfl
@[simp] theorem State.eth_modCtl (g : Control → Control) (x : Nat) : (s.modCtl g).eth x = s.eth x := rfl
@[simp] theorem State.eth_modBoot (g : Boot → Boot) (x : Nat) : (s.modBoot g).eth x = s.eth x := rfl
@[simp] theorem State.eth_modClocks (g : Clocks → Clocks) (x : Nat) : (s.modClocks g).eth x = s.eth x := rfl
@[simp] theorem State.eth_modSupply (g : Supply → Supply) (x : Nat) : (s.modSupply g).eth x = s.eth x := rfl
@[simp] theorem State.eth_nextFree (x : Nat) : (s.nextFree).eth x = s.eth x := rfl
@[simp] theorem State.eth_emit (e : Emission) (x : Nat) : (s.emit e).eth x = s.eth x := rfl
@[simp] theorem State.eth_write (k : Nat) (l : List Byte) (x : Nat) : (s.write k l).eth x = s.eth x := rfl
@[simp] theorem State.eth_wipe (lo hi : Nat) (x : Nat) : (s.wipe lo hi).eth x = s.eth x := rfl
@[simp] theorem State.eth_event (source code : Nat) (data : List Byte) (x : Nat) : (s.event source code data).eth x = s.eth x := rfl
@[simp] theorem State.eth_supEvent (code : Nat) (data : List Byte) (x : Nat) : (s.supEvent code data).eth x = s.eth x := rfl
@[simp] theorem State.eth_ignored (k n : Nat) (x : Nat) : (s.ignored k n).eth x = s.eth x := rfl
@[simp] theorem State.eth_markPause (k : Nat) (r : PauseReason) (x : Nat) : (s.markPause k r).eth x = s.eth x := rfl

@[simp] theorem State.link_setRegAt (o : Obj) (i j v : Nat) (x : Nat) : (s.setRegAt o i j v).link x = s.link x := rfl
@[simp] theorem State.link_setReg (o : Obj) (i v : Nat) (x : Nat) : (s.setReg o i v).link x = s.link x := rfl
@[simp] theorem State.link_bump (o : Obj) (i n : Nat) (x : Nat) : (s.bump o i n).link x = s.link x := rfl
@[simp] theorem State.link_modField (f : Nat) (g : Field → Field) (x : Nat) : (s.modField f g).link x = s.link x := rfl
@[simp] theorem State.link_modSpan (k : Nat) (g : Span → Span) (x : Nat) : (s.modSpan k g).link x = s.link x := rfl
@[simp] theorem State.link_modChannel (c : Nat) (g : Channel → Channel) (x : Nat) : (s.modChannel c g).link x = s.link x := rfl
@[simp] theorem State.link_modSet (k : Nat) (g : ISet → ISet) (x : Nat) : (s.modSet k g).link x = s.link x := rfl
@[simp] theorem State.link_modTower (t : Nat) (g : Tower → Tower) (x : Nat) : (s.modTower t g).link x = s.link x := rfl
@[simp] theorem State.link_modMesh (g : Mesh → Mesh) (x : Nat) : (s.modMesh g).link x = s.link x := rfl
@[simp] theorem State.link_modRouter (r : Nat) (g : Router → Router) (x : Nat) : (s.modRouter r g).link x = s.link x := rfl
@[simp] theorem State.link_modSeq (f : Nat) (g : Sequencer → Sequencer) (x : Nat) : (s.modSeq f g).link x = s.link x := rfl
@[simp] theorem State.link_modArray (f : Nat) (g : ArrayS → ArrayS) (x : Nat) : (s.modArray f g).link x = s.link x := rfl
@[simp] theorem State.link_modBank (f b : Nat) (g : Bank → Bank) (x : Nat) : (s.modBank f b g).link x = s.link x := rfl
@[simp] theorem State.link_modMover (f c : Nat) (g : Mover → Mover) (x : Nat) : (s.modMover f c g).link x = s.link x := rfl
@[simp] theorem State.link_modPower (f : Nat) (g : PowerS → PowerS) (x : Nat) : (s.modPower f g).link x = s.link x := rfl
@[simp] theorem State.link_modClock (f : Nat) (g : FieldClock → FieldClock) (x : Nat) : (s.modClock f g).link x = s.link x := rfl
@[simp] theorem State.link_modRec (g : Recorder → Recorder) (x : Nat) : (s.modRec g).link x = s.link x := rfl
@[simp] theorem State.link_modFaults (g : Faults → Faults) (x : Nat) : (s.modFaults g).link x = s.link x := rfl
@[simp] theorem State.link_modTests (g : TestEngine → TestEngine) (x : Nat) : (s.modTests g).link x = s.link x := rfl
@[simp] theorem State.link_modCtl (g : Control → Control) (x : Nat) : (s.modCtl g).link x = s.link x := rfl
@[simp] theorem State.link_modBoot (g : Boot → Boot) (x : Nat) : (s.modBoot g).link x = s.link x := rfl
@[simp] theorem State.link_modClocks (g : Clocks → Clocks) (x : Nat) : (s.modClocks g).link x = s.link x := rfl
@[simp] theorem State.link_modSupply (g : Supply → Supply) (x : Nat) : (s.modSupply g).link x = s.link x := rfl
@[simp] theorem State.link_nextFree (x : Nat) : (s.nextFree).link x = s.link x := rfl
@[simp] theorem State.link_emit (e : Emission) (x : Nat) : (s.emit e).link x = s.link x := rfl
@[simp] theorem State.link_write (k : Nat) (l : List Byte) (x : Nat) : (s.write k l).link x = s.link x := rfl
@[simp] theorem State.link_wipe (lo hi : Nat) (x : Nat) : (s.wipe lo hi).link x = s.link x := rfl
@[simp] theorem State.link_event (source code : Nat) (data : List Byte) (x : Nat) : (s.event source code data).link x = s.link x := rfl
@[simp] theorem State.link_supEvent (code : Nat) (data : List Byte) (x : Nat) : (s.supEvent code data).link x = s.link x := rfl
@[simp] theorem State.link_ignored (k n : Nat) (x : Nat) : (s.ignored k n).link x = s.link x := rfl
@[simp] theorem State.link_markPause (k : Nat) (r : PauseReason) (x : Nat) : (s.markPause k r).link x = s.link x := rfl

@[simp] theorem State.regAt_modField (f : Nat) (g : Field → Field) (q : Obj) (x y : Nat) : (s.modField f g).regAt q x y = s.regAt q x y := rfl
@[simp] theorem State.regAt_modSpan (k : Nat) (g : Span → Span) (q : Obj) (x y : Nat) : (s.modSpan k g).regAt q x y = s.regAt q x y := rfl
@[simp] theorem State.regAt_modChannel (c : Nat) (g : Channel → Channel) (q : Obj) (x y : Nat) : (s.modChannel c g).regAt q x y = s.regAt q x y := rfl
@[simp] theorem State.regAt_modSet (k : Nat) (g : ISet → ISet) (q : Obj) (x y : Nat) : (s.modSet k g).regAt q x y = s.regAt q x y := rfl
@[simp] theorem State.regAt_modTower (t : Nat) (g : Tower → Tower) (q : Obj) (x y : Nat) : (s.modTower t g).regAt q x y = s.regAt q x y := rfl
@[simp] theorem State.regAt_modMesh (g : Mesh → Mesh) (q : Obj) (x y : Nat) : (s.modMesh g).regAt q x y = s.regAt q x y := rfl
@[simp] theorem State.regAt_modRouter (r : Nat) (g : Router → Router) (q : Obj) (x y : Nat) : (s.modRouter r g).regAt q x y = s.regAt q x y := rfl
@[simp] theorem State.regAt_modSeq (f : Nat) (g : Sequencer → Sequencer) (q : Obj) (x y : Nat) : (s.modSeq f g).regAt q x y = s.regAt q x y := rfl
@[simp] theorem State.regAt_modArray (f : Nat) (g : ArrayS → ArrayS) (q : Obj) (x y : Nat) : (s.modArray f g).regAt q x y = s.regAt q x y := rfl
@[simp] theorem State.regAt_modBank (f b : Nat) (g : Bank → Bank) (q : Obj) (x y : Nat) : (s.modBank f b g).regAt q x y = s.regAt q x y := rfl
@[simp] theorem State.regAt_modMover (f c : Nat) (g : Mover → Mover) (q : Obj) (x y : Nat) : (s.modMover f c g).regAt q x y = s.regAt q x y := rfl
@[simp] theorem State.regAt_modPower (f : Nat) (g : PowerS → PowerS) (q : Obj) (x y : Nat) : (s.modPower f g).regAt q x y = s.regAt q x y := rfl
@[simp] theorem State.regAt_modClock (f : Nat) (g : FieldClock → FieldClock) (q : Obj) (x y : Nat) : (s.modClock f g).regAt q x y = s.regAt q x y := rfl
@[simp] theorem State.regAt_modRec (g : Recorder → Recorder) (q : Obj) (x y : Nat) : (s.modRec g).regAt q x y = s.regAt q x y := rfl
@[simp] theorem State.regAt_modFaults (g : Faults → Faults) (q : Obj) (x y : Nat) : (s.modFaults g).regAt q x y = s.regAt q x y := rfl
@[simp] theorem State.regAt_modTests (g : TestEngine → TestEngine) (q : Obj) (x y : Nat) : (s.modTests g).regAt q x y = s.regAt q x y := rfl
@[simp] theorem State.regAt_modCtl (g : Control → Control) (q : Obj) (x y : Nat) : (s.modCtl g).regAt q x y = s.regAt q x y := rfl
@[simp] theorem State.regAt_modBoot (g : Boot → Boot) (q : Obj) (x y : Nat) : (s.modBoot g).regAt q x y = s.regAt q x y := rfl
@[simp] theorem State.regAt_modPorts (g : Ports → Ports) (q : Obj) (x y : Nat) : (s.modPorts g).regAt q x y = s.regAt q x y := rfl
@[simp] theorem State.regAt_modClocks (g : Clocks → Clocks) (q : Obj) (x y : Nat) : (s.modClocks g).regAt q x y = s.regAt q x y := rfl
@[simp] theorem State.regAt_modSupply (g : Supply → Supply) (q : Obj) (x y : Nat) : (s.modSupply g).regAt q x y = s.regAt q x y := rfl
@[simp] theorem State.regAt_modEth (e : Nat) (g : EthPort → EthPort) (q : Obj) (x y : Nat) : (s.modEth e g).regAt q x y = s.regAt q x y := rfl
@[simp] theorem State.regAt_modLink (p : Nat) (g : Spanlink → Spanlink) (q : Obj) (x y : Nat) : (s.modLink p g).regAt q x y = s.regAt q x y := rfl
@[simp] theorem State.regAt_nextFree (q : Obj) (x y : Nat) : (s.nextFree).regAt q x y = s.regAt q x y := rfl
@[simp] theorem State.regAt_emit (e : Emission) (q : Obj) (x y : Nat) : (s.emit e).regAt q x y = s.regAt q x y := rfl
@[simp] theorem State.regAt_write (k : Nat) (l : List Byte) (q : Obj) (x y : Nat) : (s.write k l).regAt q x y = s.regAt q x y := rfl
@[simp] theorem State.regAt_wipe (lo hi : Nat) (q : Obj) (x y : Nat) : (s.wipe lo hi).regAt q x y = s.regAt q x y := rfl
@[simp] theorem State.regAt_event (source code : Nat) (data : List Byte) (q : Obj) (x y : Nat) : (s.event source code data).regAt q x y = s.regAt q x y := rfl
@[simp] theorem State.regAt_supEvent (code : Nat) (data : List Byte) (q : Obj) (x y : Nat) : (s.supEvent code data).regAt q x y = s.regAt q x y := rfl
@[simp] theorem State.regAt_ignored (k n : Nat) (q : Obj) (x y : Nat) : (s.ignored k n).regAt q x y = s.regAt q x y := rfl
@[simp] theorem State.regAt_markPause (k : Nat) (r : PauseReason) (q : Obj) (x y : Nat) : (s.markPause k r).regAt q x y = s.regAt q x y := rfl

@[simp] theorem State.reg_modField (f : Nat) (g : Field → Field) (q : Obj) (x : Nat) : (s.modField f g).reg q x = s.reg q x := rfl
@[simp] theorem State.reg_modSpan (k : Nat) (g : Span → Span) (q : Obj) (x : Nat) : (s.modSpan k g).reg q x = s.reg q x := rfl
@[simp] theorem State.reg_modChannel (c : Nat) (g : Channel → Channel) (q : Obj) (x : Nat) : (s.modChannel c g).reg q x = s.reg q x := rfl
@[simp] theorem State.reg_modSet (k : Nat) (g : ISet → ISet) (q : Obj) (x : Nat) : (s.modSet k g).reg q x = s.reg q x := rfl
@[simp] theorem State.reg_modTower (t : Nat) (g : Tower → Tower) (q : Obj) (x : Nat) : (s.modTower t g).reg q x = s.reg q x := rfl
@[simp] theorem State.reg_modMesh (g : Mesh → Mesh) (q : Obj) (x : Nat) : (s.modMesh g).reg q x = s.reg q x := rfl
@[simp] theorem State.reg_modRouter (r : Nat) (g : Router → Router) (q : Obj) (x : Nat) : (s.modRouter r g).reg q x = s.reg q x := rfl
@[simp] theorem State.reg_modSeq (f : Nat) (g : Sequencer → Sequencer) (q : Obj) (x : Nat) : (s.modSeq f g).reg q x = s.reg q x := rfl
@[simp] theorem State.reg_modArray (f : Nat) (g : ArrayS → ArrayS) (q : Obj) (x : Nat) : (s.modArray f g).reg q x = s.reg q x := rfl
@[simp] theorem State.reg_modBank (f b : Nat) (g : Bank → Bank) (q : Obj) (x : Nat) : (s.modBank f b g).reg q x = s.reg q x := rfl
@[simp] theorem State.reg_modMover (f c : Nat) (g : Mover → Mover) (q : Obj) (x : Nat) : (s.modMover f c g).reg q x = s.reg q x := rfl
@[simp] theorem State.reg_modPower (f : Nat) (g : PowerS → PowerS) (q : Obj) (x : Nat) : (s.modPower f g).reg q x = s.reg q x := rfl
@[simp] theorem State.reg_modClock (f : Nat) (g : FieldClock → FieldClock) (q : Obj) (x : Nat) : (s.modClock f g).reg q x = s.reg q x := rfl
@[simp] theorem State.reg_modRec (g : Recorder → Recorder) (q : Obj) (x : Nat) : (s.modRec g).reg q x = s.reg q x := rfl
@[simp] theorem State.reg_modFaults (g : Faults → Faults) (q : Obj) (x : Nat) : (s.modFaults g).reg q x = s.reg q x := rfl
@[simp] theorem State.reg_modTests (g : TestEngine → TestEngine) (q : Obj) (x : Nat) : (s.modTests g).reg q x = s.reg q x := rfl
@[simp] theorem State.reg_modCtl (g : Control → Control) (q : Obj) (x : Nat) : (s.modCtl g).reg q x = s.reg q x := rfl
@[simp] theorem State.reg_modBoot (g : Boot → Boot) (q : Obj) (x : Nat) : (s.modBoot g).reg q x = s.reg q x := rfl
@[simp] theorem State.reg_modPorts (g : Ports → Ports) (q : Obj) (x : Nat) : (s.modPorts g).reg q x = s.reg q x := rfl
@[simp] theorem State.reg_modClocks (g : Clocks → Clocks) (q : Obj) (x : Nat) : (s.modClocks g).reg q x = s.reg q x := rfl
@[simp] theorem State.reg_modSupply (g : Supply → Supply) (q : Obj) (x : Nat) : (s.modSupply g).reg q x = s.reg q x := rfl
@[simp] theorem State.reg_modEth (e : Nat) (g : EthPort → EthPort) (q : Obj) (x : Nat) : (s.modEth e g).reg q x = s.reg q x := rfl
@[simp] theorem State.reg_modLink (p : Nat) (g : Spanlink → Spanlink) (q : Obj) (x : Nat) : (s.modLink p g).reg q x = s.reg q x := rfl
@[simp] theorem State.reg_nextFree (q : Obj) (x : Nat) : (s.nextFree).reg q x = s.reg q x := rfl
@[simp] theorem State.reg_emit (e : Emission) (q : Obj) (x : Nat) : (s.emit e).reg q x = s.reg q x := rfl
@[simp] theorem State.reg_write (k : Nat) (l : List Byte) (q : Obj) (x : Nat) : (s.write k l).reg q x = s.reg q x := rfl
@[simp] theorem State.reg_wipe (lo hi : Nat) (q : Obj) (x : Nat) : (s.wipe lo hi).reg q x = s.reg q x := rfl
@[simp] theorem State.reg_event (source code : Nat) (data : List Byte) (q : Obj) (x : Nat) : (s.event source code data).reg q x = s.reg q x := rfl
@[simp] theorem State.reg_supEvent (code : Nat) (data : List Byte) (q : Obj) (x : Nat) : (s.supEvent code data).reg q x = s.reg q x := rfl
@[simp] theorem State.reg_ignored (k n : Nat) (q : Obj) (x : Nat) : (s.ignored k n).reg q x = s.reg q x := rfl
@[simp] theorem State.reg_markPause (k : Nat) (r : PauseReason) (q : Obj) (x : Nat) : (s.markPause k r).reg q x = s.reg q x := rfl

@[simp] theorem State.read_setRegAt (o : Obj) (i j v : Nat) (x y : Nat) : (s.setRegAt o i j v).read x y = s.read x y := rfl
@[simp] theorem State.read_setReg (o : Obj) (i v : Nat) (x y : Nat) : (s.setReg o i v).read x y = s.read x y := rfl
@[simp] theorem State.read_bump (o : Obj) (i n : Nat) (x y : Nat) : (s.bump o i n).read x y = s.read x y := rfl
@[simp] theorem State.read_modField (f : Nat) (g : Field → Field) (x y : Nat) : (s.modField f g).read x y = s.read x y := rfl
@[simp] theorem State.read_modSpan (k : Nat) (g : Span → Span) (x y : Nat) : (s.modSpan k g).read x y = s.read x y := rfl
@[simp] theorem State.read_modChannel (c : Nat) (g : Channel → Channel) (x y : Nat) : (s.modChannel c g).read x y = s.read x y := rfl
@[simp] theorem State.read_modSet (k : Nat) (g : ISet → ISet) (x y : Nat) : (s.modSet k g).read x y = s.read x y := rfl
@[simp] theorem State.read_modTower (t : Nat) (g : Tower → Tower) (x y : Nat) : (s.modTower t g).read x y = s.read x y := rfl
@[simp] theorem State.read_modMesh (g : Mesh → Mesh) (x y : Nat) : (s.modMesh g).read x y = s.read x y := rfl
@[simp] theorem State.read_modRouter (r : Nat) (g : Router → Router) (x y : Nat) : (s.modRouter r g).read x y = s.read x y := rfl
@[simp] theorem State.read_modSeq (f : Nat) (g : Sequencer → Sequencer) (x y : Nat) : (s.modSeq f g).read x y = s.read x y := rfl
@[simp] theorem State.read_modArray (f : Nat) (g : ArrayS → ArrayS) (x y : Nat) : (s.modArray f g).read x y = s.read x y := rfl
@[simp] theorem State.read_modBank (f b : Nat) (g : Bank → Bank) (x y : Nat) : (s.modBank f b g).read x y = s.read x y := rfl
@[simp] theorem State.read_modMover (f c : Nat) (g : Mover → Mover) (x y : Nat) : (s.modMover f c g).read x y = s.read x y := rfl
@[simp] theorem State.read_modPower (f : Nat) (g : PowerS → PowerS) (x y : Nat) : (s.modPower f g).read x y = s.read x y := rfl
@[simp] theorem State.read_modClock (f : Nat) (g : FieldClock → FieldClock) (x y : Nat) : (s.modClock f g).read x y = s.read x y := rfl
@[simp] theorem State.read_modRec (g : Recorder → Recorder) (x y : Nat) : (s.modRec g).read x y = s.read x y := rfl
@[simp] theorem State.read_modFaults (g : Faults → Faults) (x y : Nat) : (s.modFaults g).read x y = s.read x y := rfl
@[simp] theorem State.read_modTests (g : TestEngine → TestEngine) (x y : Nat) : (s.modTests g).read x y = s.read x y := rfl
@[simp] theorem State.read_modCtl (g : Control → Control) (x y : Nat) : (s.modCtl g).read x y = s.read x y := rfl
@[simp] theorem State.read_modBoot (g : Boot → Boot) (x y : Nat) : (s.modBoot g).read x y = s.read x y := rfl
@[simp] theorem State.read_modPorts (g : Ports → Ports) (x y : Nat) : (s.modPorts g).read x y = s.read x y := rfl
@[simp] theorem State.read_modClocks (g : Clocks → Clocks) (x y : Nat) : (s.modClocks g).read x y = s.read x y := rfl
@[simp] theorem State.read_modSupply (g : Supply → Supply) (x y : Nat) : (s.modSupply g).read x y = s.read x y := rfl
@[simp] theorem State.read_modEth (e : Nat) (g : EthPort → EthPort) (x y : Nat) : (s.modEth e g).read x y = s.read x y := rfl
@[simp] theorem State.read_modLink (p : Nat) (g : Spanlink → Spanlink) (x y : Nat) : (s.modLink p g).read x y = s.read x y := rfl
@[simp] theorem State.read_nextFree (x y : Nat) : (s.nextFree).read x y = s.read x y := rfl
@[simp] theorem State.read_emit (e : Emission) (x y : Nat) : (s.emit e).read x y = s.read x y := rfl
@[simp] theorem State.read_event (source code : Nat) (data : List Byte) (x y : Nat) : (s.event source code data).read x y = s.read x y := rfl
@[simp] theorem State.read_supEvent (code : Nat) (data : List Byte) (x y : Nat) : (s.supEvent code data).read x y = s.read x y := rfl
@[simp] theorem State.read_ignored (k n : Nat) (x y : Nat) : (s.ignored k n).read x y = s.read x y := rfl
@[simp] theorem State.read_markPause (k : Nat) (r : PauseReason) (x y : Nat) : (s.markPause k r).read x y = s.read x y := rfl

@[simp] theorem State.now_setRegAt (o : Obj) (i j v : Nat) : (s.setRegAt o i j v).now = s.now := rfl
@[simp] theorem State.now_setReg (o : Obj) (i v : Nat) : (s.setReg o i v).now = s.now := rfl
@[simp] theorem State.now_bump (o : Obj) (i n : Nat) : (s.bump o i n).now = s.now := rfl
@[simp] theorem State.now_modField (f : Nat) (g : Field → Field) : (s.modField f g).now = s.now := rfl
@[simp] theorem State.now_modSpan (k : Nat) (g : Span → Span) : (s.modSpan k g).now = s.now := rfl
@[simp] theorem State.now_modChannel (c : Nat) (g : Channel → Channel) : (s.modChannel c g).now = s.now := rfl
@[simp] theorem State.now_modSet (k : Nat) (g : ISet → ISet) : (s.modSet k g).now = s.now := rfl
@[simp] theorem State.now_modTower (t : Nat) (g : Tower → Tower) : (s.modTower t g).now = s.now := rfl
@[simp] theorem State.now_modMesh (g : Mesh → Mesh) : (s.modMesh g).now = s.now := rfl
@[simp] theorem State.now_modRouter (r : Nat) (g : Router → Router) : (s.modRouter r g).now = s.now := rfl
@[simp] theorem State.now_modSeq (f : Nat) (g : Sequencer → Sequencer) : (s.modSeq f g).now = s.now := rfl
@[simp] theorem State.now_modArray (f : Nat) (g : ArrayS → ArrayS) : (s.modArray f g).now = s.now := rfl
@[simp] theorem State.now_modBank (f b : Nat) (g : Bank → Bank) : (s.modBank f b g).now = s.now := rfl
@[simp] theorem State.now_modMover (f c : Nat) (g : Mover → Mover) : (s.modMover f c g).now = s.now := rfl
@[simp] theorem State.now_modPower (f : Nat) (g : PowerS → PowerS) : (s.modPower f g).now = s.now := rfl
@[simp] theorem State.now_modClock (f : Nat) (g : FieldClock → FieldClock) : (s.modClock f g).now = s.now := rfl
@[simp] theorem State.now_modRec (g : Recorder → Recorder) : (s.modRec g).now = s.now := rfl
@[simp] theorem State.now_modFaults (g : Faults → Faults) : (s.modFaults g).now = s.now := rfl
@[simp] theorem State.now_modTests (g : TestEngine → TestEngine) : (s.modTests g).now = s.now := rfl
@[simp] theorem State.now_modCtl (g : Control → Control) : (s.modCtl g).now = s.now := rfl
@[simp] theorem State.now_modBoot (g : Boot → Boot) : (s.modBoot g).now = s.now := rfl
@[simp] theorem State.now_modPorts (g : Ports → Ports) : (s.modPorts g).now = s.now := rfl
@[simp] theorem State.now_modSupply (g : Supply → Supply) : (s.modSupply g).now = s.now := rfl
@[simp] theorem State.now_modEth (e : Nat) (g : EthPort → EthPort) : (s.modEth e g).now = s.now := rfl
@[simp] theorem State.now_modLink (p : Nat) (g : Spanlink → Spanlink) : (s.modLink p g).now = s.now := rfl
@[simp] theorem State.now_nextFree : (s.nextFree).now = s.now := rfl
@[simp] theorem State.now_emit (e : Emission) : (s.emit e).now = s.now := rfl
@[simp] theorem State.now_write (k : Nat) (l : List Byte) : (s.write k l).now = s.now := rfl
@[simp] theorem State.now_wipe (lo hi : Nat) : (s.wipe lo hi).now = s.now := rfl
@[simp] theorem State.now_event (source code : Nat) (data : List Byte) : (s.event source code data).now = s.now := rfl
@[simp] theorem State.now_supEvent (code : Nat) (data : List Byte) : (s.supEvent code data).now = s.now := rfl
@[simp] theorem State.now_ignored (k n : Nat) : (s.ignored k n).now = s.now := rfl
@[simp] theorem State.now_markPause (k : Nat) (r : PauseReason) : (s.markPause k r).now = s.now := rfl

@[simp] theorem State.supervisor_setRegAt (o : Obj) (i j v : Nat) : (s.setRegAt o i j v).supervisor = s.supervisor := rfl
@[simp] theorem State.supervisor_setReg (o : Obj) (i v : Nat) : (s.setReg o i v).supervisor = s.supervisor := rfl
@[simp] theorem State.supervisor_bump (o : Obj) (i n : Nat) : (s.bump o i n).supervisor = s.supervisor := rfl
@[simp] theorem State.supervisor_modField (f : Nat) (g : Field → Field) : (s.modField f g).supervisor = s.supervisor := rfl
@[simp] theorem State.supervisor_modSpan (k : Nat) (g : Span → Span) : (s.modSpan k g).supervisor = s.supervisor := rfl
@[simp] theorem State.supervisor_modChannel (c : Nat) (g : Channel → Channel) : (s.modChannel c g).supervisor = s.supervisor := rfl
@[simp] theorem State.supervisor_modSet (k : Nat) (g : ISet → ISet) : (s.modSet k g).supervisor = s.supervisor := rfl
@[simp] theorem State.supervisor_modTower (t : Nat) (g : Tower → Tower) : (s.modTower t g).supervisor = s.supervisor := rfl
@[simp] theorem State.supervisor_modMesh (g : Mesh → Mesh) : (s.modMesh g).supervisor = s.supervisor := rfl
@[simp] theorem State.supervisor_modRouter (r : Nat) (g : Router → Router) : (s.modRouter r g).supervisor = s.supervisor := rfl
@[simp] theorem State.supervisor_modSeq (f : Nat) (g : Sequencer → Sequencer) : (s.modSeq f g).supervisor = s.supervisor := rfl
@[simp] theorem State.supervisor_modArray (f : Nat) (g : ArrayS → ArrayS) : (s.modArray f g).supervisor = s.supervisor := rfl
@[simp] theorem State.supervisor_modBank (f b : Nat) (g : Bank → Bank) : (s.modBank f b g).supervisor = s.supervisor := rfl
@[simp] theorem State.supervisor_modMover (f c : Nat) (g : Mover → Mover) : (s.modMover f c g).supervisor = s.supervisor := rfl
@[simp] theorem State.supervisor_modPower (f : Nat) (g : PowerS → PowerS) : (s.modPower f g).supervisor = s.supervisor := rfl
@[simp] theorem State.supervisor_modClock (f : Nat) (g : FieldClock → FieldClock) : (s.modClock f g).supervisor = s.supervisor := rfl
@[simp] theorem State.supervisor_modRec (g : Recorder → Recorder) : (s.modRec g).supervisor = s.supervisor := rfl
@[simp] theorem State.supervisor_modFaults (g : Faults → Faults) : (s.modFaults g).supervisor = s.supervisor := rfl
@[simp] theorem State.supervisor_modTests (g : TestEngine → TestEngine) : (s.modTests g).supervisor = s.supervisor := rfl
@[simp] theorem State.supervisor_modBoot (g : Boot → Boot) : (s.modBoot g).supervisor = s.supervisor := rfl
@[simp] theorem State.supervisor_modPorts (g : Ports → Ports) : (s.modPorts g).supervisor = s.supervisor := rfl
@[simp] theorem State.supervisor_modClocks (g : Clocks → Clocks) : (s.modClocks g).supervisor = s.supervisor := rfl
@[simp] theorem State.supervisor_modSupply (g : Supply → Supply) : (s.modSupply g).supervisor = s.supervisor := rfl
@[simp] theorem State.supervisor_modEth (e : Nat) (g : EthPort → EthPort) : (s.modEth e g).supervisor = s.supervisor := rfl
@[simp] theorem State.supervisor_modLink (p : Nat) (g : Spanlink → Spanlink) : (s.modLink p g).supervisor = s.supervisor := rfl
@[simp] theorem State.supervisor_nextFree : (s.nextFree).supervisor = s.supervisor := rfl
@[simp] theorem State.supervisor_emit (e : Emission) : (s.emit e).supervisor = s.supervisor := rfl
@[simp] theorem State.supervisor_write (k : Nat) (l : List Byte) : (s.write k l).supervisor = s.supervisor := rfl
@[simp] theorem State.supervisor_wipe (lo hi : Nat) : (s.wipe lo hi).supervisor = s.supervisor := rfl
@[simp] theorem State.supervisor_event (source code : Nat) (data : List Byte) : (s.event source code data).supervisor = s.supervisor := rfl
@[simp] theorem State.supervisor_supEvent (code : Nat) (data : List Byte) : (s.supEvent code data).supervisor = s.supervisor := rfl
@[simp] theorem State.supervisor_ignored (k n : Nat) : (s.ignored k n).supervisor = s.supervisor := rfl
@[simp] theorem State.supervisor_markPause (k : Nat) (r : PauseReason) : (s.markPause k r).supervisor = s.supervisor := rfl

/-! ### A unit just changed, and the others -/

theorem getD_modify_same {α : Type} (l : List α) (i : Nat) (g : α → α) (d : α) (h : i < l.length) :
    (l.modify i g).getD i d = g (l.getD i d) := by
  simp [List.getD_eq_getElem?_getD, h]

theorem getD_modify_other {α : Type} (l : List α) (i j : Nat) (g : α → α) (d : α) (h : i ≠ j) :
    (l.modify i g).getD j d = l.getD j d := by
  simp [List.getD_eq_getElem?_getD, h]

theorem State.sized_iff : s.sized = true ↔
    s.fields.length = 30 ∧ s.spans.length = 8 ∧ s.towers.length = 24 ∧ s.channels.length = 192 ∧ s.sets.length = 16 := by
  simp [State.sized, and_assoc]

theorem State.field_modField_same (f : Nat) (g : Field → Field) (h : f < s.fields.length) : (s.modField f g).field f = g (s.field f) :=
  getD_modify_same _ _ _ _ h
theorem State.field_modField_other (f j : Nat) (g : Field → Field) (h : f ≠ j) : (s.modField f g).field j = s.field j :=
  getD_modify_other _ _ _ _ _ h

theorem State.span_modSpan_same (k : Nat) (g : Span → Span) (h : k < s.spans.length) : (s.modSpan k g).span k = g (s.span k) :=
  getD_modify_same _ _ _ _ h
theorem State.span_modSpan_other (k j : Nat) (g : Span → Span) (h : k ≠ j) : (s.modSpan k g).span j = s.span j :=
  getD_modify_other _ _ _ _ _ h

theorem State.channel_modChannel_same (c : Nat) (g : Channel → Channel) (h : c < s.channels.length) : (s.modChannel c g).channel c = g (s.channel c) :=
  getD_modify_same _ _ _ _ h
theorem State.channel_modChannel_other (c j : Nat) (g : Channel → Channel) (h : c ≠ j) : (s.modChannel c g).channel j = s.channel j :=
  getD_modify_other _ _ _ _ _ h

theorem State.set_modSet_same (k : Nat) (g : ISet → ISet) (h : k < s.sets.length) : (s.modSet k g).set k = g (s.set k) :=
  getD_modify_same _ _ _ _ h
theorem State.set_modSet_other (k j : Nat) (g : ISet → ISet) (h : k ≠ j) : (s.modSet k g).set j = s.set j :=
  getD_modify_other _ _ _ _ _ h

theorem State.tower_modTower_same (t : Nat) (g : Tower → Tower) (h : t < s.towers.length) : (s.modTower t g).tower t = g (s.tower t) :=
  getD_modify_same _ _ _ _ h
theorem State.tower_modTower_other (t j : Nat) (g : Tower → Tower) (h : t ≠ j) : (s.modTower t g).tower j = s.tower j :=
  getD_modify_other _ _ _ _ _ h

/-! ### Object values -/

/-- An object just written holds what was written, cut to its size. -/
theorem State.regAt_setRegAt_same (o : Obj) (i j v : Nat) : (s.setRegAt o i j v).regAt o i j = v % 256 ^ o.size :=
  RegFile.find_put_same _ _ _ _

/-- Objects with another key keep their values. -/
theorem State.regAt_setRegAt_other (o p : Obj) (i j x y v : Nat) (h : p.key x y ≠ o.key i j) :
    (s.setRegAt o i j v).regAt p x y = s.regAt p x y := by
  simp only [State.regAt, RegFile.value, State.setRegAt, RegFile.find_put_other _ _ _ _ _ h]

theorem State.reg_setReg_same (o : Obj) (i v : Nat) : (s.setReg o i v).reg o i = v % 256 ^ o.size := s.regAt_setRegAt_same o i 0 v

theorem State.reg_setReg_other (o p : Obj) (i x v : Nat) (h : p.key x 0 ≠ o.key i 0) : (s.setReg o i v).reg p x = s.reg p x :=
  s.regAt_setRegAt_other o p i 0 x 0 v h

end Sys2Proof.Machine
end

