-- ==== Sys2Proof/Laws/Follows.lean ====
section
/-! SUPPORT. One relation that every operation keeps: the queue is left alone, nothing sent is taken back, no free value is used again, a
well-kept state stays well kept, and the next SEQ of the recorder does not fall.  Here it is proved of the basic updates. -/

namespace Sys2Proof.Machine

/-- `s` comes about from `a` by operations of the model. -/
def Follows (a s : State) : Prop :=
  s.pending = a.pending ∧ (∃ l, s.outbox = l ++ a.outbox) ∧ a.freeCount ≤ s.freeCount ∧
  (a.wf = true → s.wf = true ∧ a.recorder.nextSeq ≤ s.recorder.nextSeq)

theorem follows_refl (a : State) : Follows a a := ⟨rfl, ⟨[], rfl⟩, Nat.le_refl _, fun h => ⟨h, Nat.le_refl _⟩⟩

theorem follows_trans {a s t : State} (h : Follows a s) (k : Follows s t) : Follows a t := by
  obtain ⟨h1, ⟨l, h2⟩, h3, h4⟩ := h
  obtain ⟨k1, ⟨m, k2⟩, k3, k4⟩ := k
  refine ⟨k1.trans h1, ⟨m ++ l, by rw [k2, h2, List.append_assoc]⟩, le_trans h3 k3, fun w => ?_⟩
  obtain ⟨w1, w2⟩ := h4 w
  exact ⟨(k4 w1).1, le_trans w2 (k4 w1).2⟩

theorem State.wf_iff (s : State) : s.wf = true ↔ s.mem.wf = true ∧ s.regs.wf = true ∧ s.sized = true ∧ s.recorder.numbered = true := by
  simp [State.wf, and_assoc]

/-- An update that leaves the queue, the outbox, the free values, memory, the register file, the numbers of units and the recorder. -/
theorem follows_plain {a s t : State} (h : Follows a s) (h1 : t.pending = s.pending) (h2 : t.outbox = s.outbox) (h3 : t.freeCount = s.freeCount)
    (h4 : t.mem = s.mem) (h5 : t.regs = s.regs) (h6 : t.recorder = s.recorder) (h7 : t.sized = s.sized) : Follows a t :=
  follows_trans h ⟨h1, ⟨[], h2⟩, Nat.le_of_eq h3.symm, fun w => ⟨by rw [State.wf_iff] at w ⊢; rwa [h4, h5, h6, h7], by rw [h6]⟩⟩

variable {a s : State}

theorem follows_setRegAt (h : Follows a s) (o : Obj) (i j v : Nat) : Follows a (s.setRegAt o i j v) :=
  follows_trans h ⟨rfl, ⟨[], rfl⟩, Nat.le_refl _, fun w => ⟨by
    rw [State.wf_iff] at w ⊢; exact ⟨w.1, RegFile.wf_put _ _ _ _ w.2.1, w.2.2⟩, Nat.le_refl _⟩⟩

theorem follows_setReg (h : Follows a s) (o : Obj) (i v : Nat) : Follows a (s.setReg o i v) := follows_setRegAt h o i 0 v

theorem follows_bump (h : Follows a s) (o : Obj) (i n : Nat) : Follows a (s.bump o i n) := follows_setReg h o i _

theorem follows_write (h : Follows a s) (k : Nat) (l : List Byte) : Follows a (s.write k l) :=
  follows_trans h ⟨rfl, ⟨[], rfl⟩, Nat.le_refl _, fun w => ⟨by
    rw [State.wf_iff] at w ⊢; exact ⟨Memory.wf_write _ _ _ w.1, w.2⟩, Nat.le_refl _⟩⟩

/-- Dropping cells of memory. -/
theorem follows_dropMem (h : Follows a s) (p : Nat × Byte → Bool) : Follows a { s with mem := s.mem.filter p } :=
  follows_trans h ⟨rfl, ⟨[], rfl⟩, Nat.le_refl _, fun w => ⟨by
    rw [State.wf_iff] at w ⊢; exact ⟨Memory.wf_filter _ _ w.1, w.2⟩, Nat.le_refl _⟩⟩

theorem follows_wipe (h : Follows a s) (lo hi : Nat) : Follows a (s.wipe lo hi) := follows_dropMem h _

theorem follows_emit (h : Follows a s) (e : Emission) : Follows a (s.emit e) :=
  follows_trans h ⟨rfl, ⟨[e], rfl⟩, Nat.le_refl _, fun w => ⟨w, Nat.le_refl _⟩⟩

/-- Free values are used up. -/
theorem follows_free (h : Follows a s) (n : Nat) : Follows a { s with freeCount := s.freeCount + n } :=
  follows_trans h ⟨rfl, ⟨[], rfl⟩, Nat.le_add_right _ _, fun w => ⟨w, Nat.le_refl _⟩⟩

theorem follows_nextFree (h : Follows a s) : Follows a s.nextFree := follows_free h 1

/-- A change of the recorder that keeps the numbering and does not lower the next SEQ. -/
theorem follows_modRec (h : Follows a s) (g : Recorder → Recorder) (hg : s.recorder.numbered = true →
    (g s.recorder).numbered = true ∧ s.recorder.nextSeq ≤ (g s.recorder).nextSeq) : Follows a (s.modRec g) :=
  follows_trans h ⟨rfl, ⟨[], rfl⟩, Nat.le_refl _, fun w => by
    rw [State.wf_iff] at w
    obtain ⟨k1, k2⟩ := hg w.2.2.2
    exact ⟨by rw [State.wf_iff]; exact ⟨w.1, w.2.1, w.2.2.1, k1⟩, k2⟩⟩

/-- A report waiting in a unit's notices. -/
theorem follows_notice (h : Follows a s) (unit source code : Nat) (data : List Byte) : Follows a (s.notice unit source code data) := by
  refine follows_modRec h _ fun w => ?_
  split <;> exact ⟨w, Nat.le_refl _⟩

theorem follows_event (h : Follows a s) (source code : Nat) (data : List Byte) : Follows a (s.event source code data) :=
  follows_notice h source source code data

theorem follows_supEvent (h : Follows a s) (code : Nat) (data : List Byte) : Follows a (s.supEvent code data) :=
  follows_modRec h _ fun w => ⟨w, Nat.le_refl _⟩

theorem follows_modField (h : Follows a s) (f : Nat) (g : Field → Field) : Follows a (s.modField f g) :=
  follows_plain h rfl rfl rfl rfl rfl rfl (by simp [State.sized])
theorem follows_modSpan (h : Follows a s) (k : Nat) (g : Span → Span) : Follows a (s.modSpan k g) :=
  follows_plain h rfl rfl rfl rfl rfl rfl (by simp [State.sized])
theorem follows_modChannel (h : Follows a s) (c : Nat) (g : Channel → Channel) : Follows a (s.modChannel c g) :=
  follows_plain h rfl rfl rfl rfl rfl rfl (by simp [State.sized])
theorem follows_modSet (h : Follows a s) (k : Nat) (g : ISet → ISet) : Follows a (s.modSet k g) :=
  follows_plain h rfl rfl rfl rfl rfl rfl (by simp [State.sized])
theorem follows_modTower (h : Follows a s) (t : Nat) (g : Tower → Tower) : Follows a (s.modTower t g) :=
  follows_plain h rfl rfl rfl rfl rfl rfl (by simp [State.sized])
theorem follows_modMesh (h : Follows a s) (g : Mesh → Mesh) : Follows a (s.modMesh g) := follows_plain h rfl rfl rfl rfl rfl rfl rfl
theorem follows_modFaults (h : Follows a s) (g : Faults → Faults) : Follows a (s.modFaults g) := follows_plain h rfl rfl rfl rfl rfl rfl rfl
theorem follows_modTests (h : Follows a s) (g : TestEngine → TestEngine) : Follows a (s.modTests g) :=
  follows_plain h rfl rfl rfl rfl rfl rfl rfl
theorem follows_modCtl (h : Follows a s) (g : Control → Control) : Follows a (s.modCtl g) := follows_plain h rfl rfl rfl rfl rfl rfl rfl
theorem follows_modBoot (h : Follows a s) (g : Boot → Boot) : Follows a (s.modBoot g) := follows_plain h rfl rfl rfl rfl rfl rfl rfl
theorem follows_modPorts (h : Follows a s) (g : Ports → Ports) : Follows a (s.modPorts g) := follows_plain h rfl rfl rfl rfl rfl rfl rfl
theorem follows_modClocks (h : Follows a s) (g : Clocks → Clocks) : Follows a (s.modClocks g) := follows_plain h rfl rfl rfl rfl rfl rfl rfl
theorem follows_modSupply (h : Follows a s) (g : Supply → Supply) : Follows a (s.modSupply g) := follows_plain h rfl rfl rfl rfl rfl rfl rfl
theorem follows_sleepers (h : Follows a s) (l : List Instr) : Follows a { s with sleepers := l } := follows_plain h rfl rfl rfl rfl rfl rfl rfl
theorem follows_lateReads (h : Follows a s) (l : List Nat) : Follows a { s with lateReads := l } := follows_plain h rfl rfl rfl rfl rfl rfl rfl
theorem follows_jtag (h : Follows a s) (j : Jtag) : Follows a { s with jtag := j } := follows_plain h rfl rfl rfl rfl rfl rfl rfl

/-! ### Iteration and choice -/

theorem follows_ite {c : Prop} [Decidable c] {t : State} (h : Follows a s) (k : Follows a t) : Follows a (if c then s else t) := by
  split
  · exact h
  · exact k

theorem follows_foldl {α : Type} (h : Follows a s) (l : List α) (g : State → α → State) (hg : ∀ t x, Follows a t → Follows a (g t x)) :
    Follows a (l.foldl g s) := by
  induction l generalizing s with
  | nil => exact h
  | cons x r ih => exact ih (hg s x h)

/-- A fold that carries a second value beside the state. -/
theorem follows_foldPair {α β : Type} (l : List α) (g : State × β → α → State × β) (hg : ∀ v x, Follows a v.1 → Follows a (g v x).1)
    (v : State × β) (h : Follows a v.1) : Follows a (l.foldl g v).1 := by
  induction l generalizing v with
  | nil => exact h
  | cons x r ih => exact ih _ (hg v x h)

theorem follows_each {α : Type} (h : Follows a s) (l : List α) (g : State → α → State) (hg : ∀ t x, Follows a t → Follows a (g t x)) :
    Follows a (s.each l g) := follows_foldl h l g hg

theorem follows_when (h : Follows a s) (c : Bool) (g : State → State) (hg : ∀ t, Follows a t → Follows a (g t)) : Follows a (s.when c g) := by
  unfold State.when; split
  · exact hg s h
  · exact h

/-- The state of a pair whose parts are known. -/
theorem follows_fst {β : Type} {p : State × β} {y : β} (e : p = (s, y)) (h : Follows a p.1) : Follows a s := by subst e; exact h

/-- The state after a command that answers a next state. -/
def FollowsNext (a : State) (r : Host.Outcome State Fault Refusal) : Prop := ∃ t, r = .next t ∧ Follows a t

theorem follows_next (h : Follows a s) : FollowsNext a (.next s) := ⟨s, rfl, h⟩

end Sys2Proof.Machine
end

