-- ==== Sys2Proof/Laws/Recorder.lean ====
section
/-! SUPPORT. The recorder keeps its numbering (R423): what the ring and flash hold, the next SEQ and the ceiling. -/

namespace Sys2Proof.Machine

/-- The clauses of `Recorder.numbered` as propositions. -/
theorem Recorder.numbered_iff (r : Recorder) : r.numbered = true ↔
    r.die.Pairwise (fun a b => a.seq < b.seq) ∧ r.flash.flatten.Pairwise (fun a b => a.seq < b.seq) ∧
    (∀ e ∈ r.die, e.seq < r.nextSeq) ∧ (∀ e ∈ r.flash.flatten, e.seq < r.nextSeq) ∧ r.pendingN ≤ r.die.length ∧
    (∀ e ∈ r.flash.flatten, ∀ d ∈ r.unwritten, e.seq < d.seq) ∧
    (r.ceiling = none → r.die = [] ∧ r.flash = [] ∧ r.nextSeq = 1) ∧ (∀ c, r.ceiling = some c → r.nextSeq < c) := by
  unfold Recorder.numbered
  cases hc : r.ceiling <;>
    simp only [Bool.and_eq_true, decide_eq_true_eq, List.all_eq_true, Nat.blt_eq, Nat.ble_eq, and_assoc, reduceCtorEq, false_implies,
      implies_true, forall_const, and_true, true_and, List.isEmpty_iff, Option.some.injEq, forall_eq', beq_iff_eq]

theorem flatten_mapIdx_sublist {α : Type} (g : Nat → List α → List α) (l : List (List α)) (hg : ∀ i x, (g i x).Sublist x) :
    (l.mapIdx g).flatten.Sublist l.flatten := by
  induction l generalizing g with
  | nil => simp
  | cons x r ih => simpa [List.mapIdx_cons] using (hg 0 x).append (ih (fun i => g (i + 1)) fun i => hg (i + 1))

/-- The sound records of flash are records of flash, in the order they stand there. -/
theorem Recorder.soundFlash_sublist (r : Recorder) (bad : List (Nat × Nat)) : (r.soundFlash bad).flatten.Sublist r.flash.flatten :=
  flatten_mapIdx_sublist _ _ fun i x => by
    simpa using (List.filter_sublist (p := fun e => !bad.contains (i, e.2)) (l := x.zipIdx)).map Prod.fst

theorem Recorder.reserve_numbered (r : Recorder) (h1 : r.die.Pairwise (fun a b => a.seq < b.seq))
    (h2 : r.flash.flatten.Pairwise (fun a b => a.seq < b.seq)) (h3 : ∀ e ∈ r.die, e.seq < r.nextSeq)
    (h4 : ∀ e ∈ r.flash.flatten, e.seq < r.nextSeq) (h5 : r.pendingN ≤ r.die.length)
    (h6 : ∀ e ∈ r.flash.flatten, ∀ d ∈ r.unwritten, e.seq < d.seq) (h7 : ∃ c, r.ceiling = some c ∧ r.nextSeq ≤ c) :
    r.reserve.numbered = true ∧ r.reserve.nextSeq = r.nextSeq := by
  obtain ⟨c, hc, hl⟩ := h7
  unfold Recorder.reserve
  rw [hc]
  dsimp only
  split
  · refine ⟨(Recorder.numbered_iff _).2 ⟨h1, h2, h3, h4, h5, h6, by simp, ?_⟩, rfl⟩
    intro d hd; simp only [Option.some.injEq] at hd; subst hd; show r.nextSeq < c + 65536; omega
  · refine ⟨(Recorder.numbered_iff _).2 ⟨h1, h2, h3, h4, h5, h6, by simp [hc], ?_⟩, rfl⟩
    intro d hd; rw [hc] at hd; simp only [Option.some.injEq] at hd; subst hd; omega

/-- A record that takes the next SEQ enters the ring: the numbering stays, and the next SEQ is one higher. -/
theorem Recorder.push_numbered (r : Recorder) (e : EventRec) (h : r.numbered = true) (he : e.seq = r.nextSeq)
    (hc : r.ceiling.isNone = false) : (r.push e).numbered = true ∧ (r.push e).nextSeq = r.nextSeq + 1 := by
  obtain ⟨h1, h2, h3, h4, h5, h6, -, h8⟩ := (Recorder.numbered_iff r).1 h
  obtain ⟨c, hcs⟩ : ∃ c, r.ceiling = some c := by cases hx : r.ceiling <;> simp_all
  have hpw : ∀ l : List EventRec, l.Sublist r.die → (l ++ [e]).Pairwise (fun a b => a.seq < b.seq) := fun l hl => by
    rw [List.pairwise_append]
    exact ⟨h1.sublist hl, by simp, fun x hx y hy => by
      rw [List.mem_singleton.1 hy, he]; exact h3 x (hl.subset hx)⟩
  have hin : ∀ l : List EventRec, l.Sublist r.die → ∀ x ∈ l ++ [e], x.seq < r.nextSeq + 1 := fun l hl x hx => by
    rcases List.mem_append.1 hx with hx | hx
    · have := h3 x (hl.subset hx); omega
    · rw [List.mem_singleton.1 hx, he]; omega
  refine Recorder.reserve_numbered _ ?_ h2 ?_ (fun x hx => by have := h4 x hx; dsimp only; omega) ?_ ?_ ⟨c, hcs, ?_⟩
  · dsimp only; split
    · exact hpw _ (List.drop_sublist 1 _)
    · exact hpw _ (List.Sublist.refl _)
  · dsimp only; split
    · exact hin _ (List.drop_sublist 1 _)
    · exact hin _ (List.Sublist.refl _)
  · dsimp only
    split <;> split <;> simp_all
    all_goals omega
  · intro x hx d hd
    have hx4 := h4 x hx
    rcases List.mem_append.1 (List.mem_of_mem_drop hd) with hm | hm
    · simp only [Recorder.unwritten] at hd h6
      have key : d ∈ r.die.drop (r.die.length - r.pendingN) ∨ d = e := by
        have hdie : d ∈ r.die := by
          revert hm; split
          · exact List.mem_of_mem_drop
          · exact id
        revert hd
        split <;> rename_i hfull
        · have hlen : r.die.length = 4096 := by simpa using hfull
          split <;> rename_i hp
          · have hpn : r.pendingN = 4096 := by simp at hp; exact hp.2
            intro _
            left; rw [hlen, hpn]
            exact hdie
          · have hpn : r.pendingN ≠ 4096 := by intro hh; apply hp; simp [hlen, hh]
            intro hd
            have e1 : (r.die.drop 1 ++ [e]).length - (r.pendingN + 1) = r.die.length - r.pendingN - 1 := by simp; omega
            rw [e1, List.drop_append] at hd
            rcases List.mem_append.1 hd with hd | hd
            · left; rw [List.drop_drop] at hd
              have : 1 + (r.die.length - r.pendingN - 1) = r.die.length - r.pendingN := by omega
              rwa [this] at hd
            · right; exact List.mem_singleton.1 (List.mem_of_mem_drop hd)
        · split <;> rename_i hp
          · simp at hp; simp [hp.1] at hfull
          · intro hd
            have e1 : (r.die ++ [e]).length - (r.pendingN + 1) = r.die.length - r.pendingN := by simp
            rw [e1, List.drop_append] at hd
            rcases List.mem_append.1 hd with hd | hd
            · left; exact hd
            · right; exact List.mem_singleton.1 (List.mem_of_mem_drop hd)
      rcases key with hk | hk
      · exact h6 x hx d hk
      · rw [hk, he]; exact hx4
    · rw [List.mem_singleton.1 hm, he]; exact hx4
  · have := h8 c hcs; dsimp only; omega

/-- A flash page takes up to `n` of the records that wait, oldest first; old pages may be dropped. -/
theorem Recorder.page_numbered (r : Recorder) (h : r.numbered = true) (hp : r.pendingN ≠ 0) (n k b l : Nat) :
    Recorder.numbered { r with flash := (r.flash ++ [r.unwritten.take n]).drop k, pendingN := r.pendingN - (r.unwritten.take n).length
                               bucket := b, lostSince := l } = true := by
  obtain ⟨h1, h2, h3, h4, h5, h6, h7, h8⟩ := (Recorder.numbered_iff r).1 h
  have hsub : (((r.flash ++ [r.unwritten.take n]).drop k).flatten).Sublist (r.flash.flatten ++ r.unwritten.take n) := by
    have : (r.flash ++ [r.unwritten.take n]).flatten = r.flash.flatten ++ r.unwritten.take n := by simp
    rw [← this]
    conv_rhs => rw [← List.take_append_drop k (r.flash ++ [r.unwritten.take n])]
    rw [List.flatten_append]
    exact List.sublist_append_right _ _
  have hun : ∀ d ∈ r.unwritten, d ∈ r.die := fun d hd => List.mem_of_mem_drop hd
  have hlen : r.unwritten.length = r.pendingN := by simp [Recorder.unwritten]; omega
  have hpw : r.unwritten.Pairwise (fun a b => a.seq < b.seq) := h1.sublist (List.drop_sublist _ _)
  have hnew : Recorder.unwritten { r with flash := (r.flash ++ [r.unwritten.take n]).drop k
                                          pendingN := r.pendingN - (r.unwritten.take n).length, bucket := b, lostSince := l } =
      r.unwritten.drop (r.unwritten.take n).length := by
    show r.die.drop _ = (r.die.drop _).drop _
    rw [List.drop_drop]
    congr 1
    simp only [List.length_take, hlen]; omega
  refine (Recorder.numbered_iff _).2 ⟨h1, ?_, h3, ?_, by dsimp only; omega, ?_, ?_, h8⟩
  · refine List.Pairwise.sublist hsub (List.pairwise_append.2 ⟨h2, hpw.sublist (List.take_sublist _ _), fun x hx y hy => ?_⟩)
    exact h6 x hx y (List.mem_of_mem_take hy)
  · intro e he
    rcases List.mem_append.1 (hsub.subset he) with he | he
    · exact h4 e he
    · exact h3 e (hun e (List.mem_of_mem_take he))
  · rw [hnew]
    intro e he d hd
    rcases List.mem_append.1 (hsub.subset he) with he | he
    · exact h6 e he d (List.mem_of_mem_drop hd)
    · have hs : (r.unwritten.take n ++ r.unwritten.drop (r.unwritten.take n).length).Pairwise (fun a b => a.seq < b.seq) := by
        have : r.unwritten.drop (r.unwritten.take n).length = r.unwritten.drop n := by
          rcases Nat.le_total n r.unwritten.length with hle | hle
          · simp [Nat.min_eq_left hle]
          · rw [List.take_of_length_le hle, List.drop_of_length_le hle, List.drop_of_length_le (Nat.le_refl _)]
        rw [this, List.take_append_drop]; exact hpw
      exact (List.pairwise_append.1 hs).2.2 e he d hd
  · intro hc
    obtain ⟨k1, k2, k3⟩ := h7 hc
    rw [k1] at h5
    exact absurd (Nat.le_zero.1 h5) hp

end Sys2Proof.Machine
end

