-- ==== Sys2Proof/Laws/FollowsOps1.lean ====
section
/-! SUPPORT. `Follows` of the shared operations, part 1 of 3. -/

set_option linter.all false

namespace Sys2Proof.Machine

theorem follows_modRouter {a s : State} (h : Follows a s) (r : Nat) (g : Router → Router) :
    Follows a (State.modRouter s r g) := by
  unfold State.modRouter
  repeat' first
    | with_reducible assumption | with_reducible apply follows_modMesh | with_reducible apply follows_ite | split | (intro t x ht; try dsimp only)
    | (intro t ht; try dsimp only) | (intro v; try beta_reduce) | dsimp only

theorem follows_modSeq {a s : State} (h : Follows a s) (f : Nat) (g : Sequencer → Sequencer) :
    Follows a (State.modSeq s f g) := by
  unfold State.modSeq
  repeat' first
    | with_reducible assumption | with_reducible apply follows_modField | with_reducible apply follows_ite | split | (intro t x ht; try dsimp only)
    | (intro t ht; try dsimp only) | (intro v; try beta_reduce) | dsimp only

theorem follows_modArray {a s : State} (h : Follows a s) (f : Nat) (g : ArrayS → ArrayS) :
    Follows a (State.modArray s f g) := by
  unfold State.modArray
  repeat' first
    | with_reducible assumption | with_reducible apply follows_modField | with_reducible apply follows_ite | split | (intro t x ht; try dsimp only)
    | (intro t ht; try dsimp only) | (intro v; try beta_reduce) | dsimp only

theorem follows_modBank {a s : State} (h : Follows a s) (f : Nat) (b : Nat) (g : Bank → Bank) :
    Follows a (State.modBank s f b g) := by
  unfold State.modBank
  repeat' first
    | with_reducible assumption | with_reducible apply follows_modField | with_reducible apply follows_ite | split | (intro t x ht; try dsimp only)
    | (intro t ht; try dsimp only) | (intro v; try beta_reduce) | dsimp only

theorem follows_modMover {a s : State} (h : Follows a s) (f : Nat) (c : Nat) (g : Mover → Mover) :
    Follows a (State.modMover s f c g) := by
  unfold State.modMover
  repeat' first
    | with_reducible assumption | with_reducible apply follows_modField | with_reducible apply follows_ite | split | (intro t x ht; try dsimp only)
    | (intro t ht; try dsimp only) | (intro v; try beta_reduce) | dsimp only

theorem follows_modPower {a s : State} (h : Follows a s) (f : Nat) (g : PowerS → PowerS) :
    Follows a (State.modPower s f g) := by
  unfold State.modPower
  repeat' first
    | with_reducible assumption | with_reducible apply follows_modField | with_reducible apply follows_ite | split | (intro t x ht; try dsimp only)
    | (intro t ht; try dsimp only) | (intro v; try beta_reduce) | dsimp only

theorem follows_modClock {a s : State} (h : Follows a s) (f : Nat) (g : FieldClock → FieldClock) :
    Follows a (State.modClock s f g) := by
  unfold State.modClock
  repeat' first
    | with_reducible assumption | with_reducible apply follows_modField | with_reducible apply follows_ite | split | (intro t x ht; try dsimp only)
    | (intro t ht; try dsimp only) | (intro v; try beta_reduce) | dsimp only

theorem follows_modEth {a s : State} (h : Follows a s) (e : Nat) (g : EthPort → EthPort) :
    Follows a (State.modEth s e g) := by
  unfold State.modEth
  repeat' first
    | with_reducible assumption | with_reducible apply follows_modPorts | with_reducible apply follows_ite | split | (intro t x ht; try dsimp only)
    | (intro t ht; try dsimp only) | (intro v; try beta_reduce) | dsimp only

theorem follows_modLink {a s : State} (h : Follows a s) (p : Nat) (g : Spanlink → Spanlink) :
    Follows a (State.modLink s p g) := by
  unfold State.modLink
  repeat' first
    | with_reducible assumption | with_reducible apply follows_modPorts | with_reducible apply follows_ite | split | (intro t x ht; try dsimp only)
    | (intro t ht; try dsimp only) | (intro v; try beta_reduce) | dsimp only

theorem follows_unitEvent {a s : State} (h : Follows a s) (unit : Nat) (code : Nat) (data : List Byte) :
    Follows a (State.unitEvent s unit code data) := by
  unfold State.unitEvent
  repeat' first
    | with_reducible assumption | with_reducible apply follows_notice | with_reducible apply follows_ite | split | (intro t x ht; try dsimp only)
    | (intro t ht; try dsimp only) | (intro v; try beta_reduce) | dsimp only

theorem follows_ignored {a s : State} (h : Follows a s) (k : Nat) (n : Nat) :
    Follows a (State.ignored s k n) := by
  unfold State.ignored
  repeat' first
    | with_reducible assumption | with_reducible apply follows_supEvent | with_reducible apply follows_event | with_reducible apply follows_ite
    | split | (intro t x ht; try dsimp only) | (intro t ht; try dsimp only) | (intro v; try beta_reduce) | dsimp only

theorem follows_vector {a s : State} (h : Follows a s) (v : Nat) :
    Follows a (State.vector s v) := by
  unfold State.vector
  repeat' first
    | with_reducible assumption | with_reducible apply follows_emit | with_reducible apply follows_modCtl | with_reducible apply follows_ite | split
    | (intro t x ht; try dsimp only) | (intro t ht; try dsimp only) | (intro v; try beta_reduce) | dsimp only

theorem follows_changed {a s : State} (h : Follows a s)  :
    Follows a (State.changed s) := by
  unfold State.changed
  repeat' first
    | with_reducible assumption | with_reducible apply follows_setReg | with_reducible apply follows_vector | with_reducible apply follows_ite | split
    | (intro t x ht; try dsimp only) | (intro t ht; try dsimp only) | (intro v; try beta_reduce) | dsimp only

theorem follows_setSpanState {a s : State} (h : Follows a s) (k : Nat) (x : SpanState) :
    Follows a (State.setSpanState s k x) := by
  unfold State.setSpanState
  repeat' first
    | with_reducible assumption | with_reducible apply follows_changed | with_reducible apply follows_modSpan | with_reducible apply follows_vector
    | with_reducible apply follows_ite | split | (intro t x ht; try dsimp only) | (intro t ht; try dsimp only) | (intro v; try beta_reduce)
    | dsimp only

theorem follows_capacityChanged {a s : State} (h : Follows a s)  :
    Follows a (State.capacityChanged s) := by
  unfold State.capacityChanged
  repeat' first
    | with_reducible assumption | with_reducible apply follows_changed | with_reducible apply follows_supEvent | with_reducible apply follows_event
    | with_reducible apply follows_ite | split | (intro t x ht; try dsimp only) | (intro t ht; try dsimp only) | (intro v; try beta_reduce)
    | dsimp only

theorem follows_setFieldState {a s : State} (h : Follows a s) (f : Nat) (x : FieldState) :
    Follows a (State.setFieldState s f x) := by
  unfold State.setFieldState
  repeat' first
    | with_reducible assumption | with_reducible apply follows_changed | with_reducible apply follows_modField | with_reducible apply follows_ite
    | split | (intro t x ht; try dsimp only) | (intro t ht; try dsimp only) | (intro v; try beta_reduce) | dsimp only

theorem follows_setPierPower {a s : State} (h : Follows a s) (f : Nat) (x : PierPower) :
    Follows a (State.setPierPower s f x) := by
  unfold State.setPierPower
  repeat' first
    | with_reducible assumption | with_reducible apply follows_changed | with_reducible apply follows_modPower | with_reducible apply follows_ite
    | split | (intro t x ht; try dsimp only) | (intro t ht; try dsimp only) | (intro v; try beta_reduce) | dsimp only

theorem follows_setChannelState {a s : State} (h : Follows a s) (c : Nat) (x : ChannelState) :
    Follows a (State.setChannelState s c x) := by
  unfold State.setChannelState
  repeat' first
    | with_reducible assumption | with_reducible apply follows_capacityChanged | with_reducible apply follows_changed
    | with_reducible apply follows_modChannel | with_reducible apply follows_ite | split | (intro t x ht; try dsimp only)
    | (intro t ht; try dsimp only) | (intro v; try beta_reduce) | dsimp only

theorem follows_setSetState {a s : State} (h : Follows a s) (k : Nat) (x : SetState) :
    Follows a (State.setSetState s k x) := by
  unfold State.setSetState
  repeat' first
    | with_reducible assumption | with_reducible apply follows_changed | with_reducible apply follows_modSet | with_reducible apply follows_ite
    | split | (intro t x ht; try dsimp only) | (intro t ht; try dsimp only) | (intro v; try beta_reduce) | dsimp only

theorem follows_setLinkState {a s : State} (h : Follows a s) (r : Nat) (d : Nat) (x : LinkState) :
    Follows a (State.setLinkState s r d x) := by
  unfold State.setLinkState
  repeat' first
    | with_reducible assumption | with_reducible apply follows_changed | with_reducible apply follows_modRouter | with_reducible apply follows_ite
    | split | (intro t x ht; try dsimp only) | (intro t ht; try dsimp only) | (intro v; try beta_reduce) | dsimp only

theorem follows_setPortState {a s : State} (h : Follows a s) (p : Nat) (x : PortState) :
    Follows a (State.setPortState s p x) := by
  unfold State.setPortState
  repeat' first
    | with_reducible assumption | with_reducible apply follows_capacityChanged | with_reducible apply follows_changed
    | with_reducible apply follows_modLink | with_reducible apply follows_ite | split | (intro t x ht; try dsimp only) | (intro t ht; try dsimp only)
    | (intro v; try beta_reduce) | dsimp only

theorem follows_setLanes {a s : State} (h : Follows a s) (p : Nat) (w : Nat) :
    Follows a (State.setLanes s p w) := by
  unfold State.setLanes
  repeat' first
    | with_reducible assumption | with_reducible apply follows_changed | with_reducible apply follows_modLink | with_reducible apply follows_ite
    | split | (intro t x ht; try dsimp only) | (intro t ht; try dsimp only) | (intro v; try beta_reduce) | dsimp only

theorem follows_setUpdate {a s : State} (h : Follows a s) (x : UpdateState) :
    Follows a (State.setUpdate s x) := by
  unfold State.setUpdate
  repeat' first
    | with_reducible assumption | with_reducible apply follows_modBoot | with_reducible apply follows_vector | with_reducible apply follows_ite
    | split | (intro t x ht; try dsimp only) | (intro t ht; try dsimp only) | (intro v; try beta_reduce) | dsimp only

theorem follows_setPierStatus {a s : State} (h : Follows a s) (f : Nat) (v : Nat) :
    Follows a (State.setPierStatus s f v) := by
  unfold State.setPierStatus
  repeat' first
    | with_reducible assumption | with_reducible apply follows_changed | with_reducible apply follows_setReg | with_reducible apply follows_ite
    | split | (intro t x ht; try dsimp only) | (intro t ht; try dsimp only) | (intro v; try beta_reduce) | dsimp only

theorem follows_markPause {a s : State} (h : Follows a s) (k : Nat) (r : PauseReason) :
    Follows a (State.markPause s k r) := by
  unfold State.markPause
  repeat' first
    | with_reducible assumption | with_reducible apply follows_modSpan | with_reducible apply follows_ite | split | (intro t x ht; try dsimp only)
    | (intro t ht; try dsimp only) | (intro v; try beta_reduce) | dsimp only

theorem follows_violation {a s : State} (h : Follows a s) (n : Nat) (master : Nat) (span : Nat) (right : Right) (addr : Nat) :
    Follows a (State.violation s n master span right addr) := by
  unfold State.violation
  repeat' first
    | with_reducible assumption | with_reducible apply follows_bump | with_reducible apply follows_modCtl | with_reducible apply follows_setReg
    | with_reducible apply follows_supEvent | with_reducible apply follows_event | with_reducible apply follows_ite | split
    | (intro t x ht; try dsimp only) | (intro t ht; try dsimp only) | (intro v; try beta_reduce) | dsimp only

theorem follows_dropStale {a s : State} (h : Follows a s) (p : Pkt) :
    Follows a (State.dropStale s p) := by
  unfold State.dropStale
  repeat' first
    | with_reducible assumption | with_reducible apply follows_bump | with_reducible apply follows_ite | split | (intro t x ht; try dsimp only)
    | (intro t ht; try dsimp only) | (intro v; try beta_reduce) | dsimp only

theorem follows_request {a s : State} (h : Follows a s) (o : Outstanding) :
    Follows a (State.request s o) := by
  unfold State.request
  repeat' first
    | with_reducible assumption | with_reducible apply follows_modMesh | with_reducible apply follows_ite | split | (intro t x ht; try dsimp only)
    | (intro t ht; try dsimp only) | (intro v; try beta_reduce) | dsimp only

theorem follows_endRequest {a s : State} (h : Follows a s) (master : Nat) (tag : Nat) :
    Follows a (State.endRequest s master tag) := by
  unfold State.endRequest
  repeat' first
    | with_reducible assumption | with_reducible apply follows_modMesh | with_reducible apply follows_ite | split | (intro t x ht; try dsimp only)
    | (intro t ht; try dsimp only) | (intro v; try beta_reduce) | dsimp only

theorem follows_rerouted {a s : State} (h : Follows a s)  :
    Follows a (State.rerouted s) := by
  unfold State.rerouted
  repeat' first
    | with_reducible assumption | with_reducible apply follows_modMesh | with_reducible apply follows_ite | split | (intro t x ht; try dsimp only)
    | (intro t ht; try dsimp only) | (intro v; try beta_reduce) | dsimp only

theorem follows_retireLink {a s : State} (h : Follows a s) (r : Nat) (d : Nat) :
    Follows a (State.retireLink s r d) := by
  unfold State.retireLink
  repeat' first
    | with_reducible assumption | with_reducible apply follows_capacityChanged | with_reducible apply follows_rerouted
    | with_reducible apply follows_setLinkState | with_reducible apply follows_supEvent | with_reducible apply follows_event
    | with_reducible apply follows_ite | split | (intro t x ht; try dsimp only) | (intro t ht; try dsimp only) | (intro v; try beta_reduce)
    | dsimp only

theorem follows_pauseFor {a s : State} (h : Follows a s) (k : Nat) (r : PauseReason) :
    Follows a (State.pauseFor s k r) := by
  unfold State.pauseFor
  repeat' first
    | with_reducible assumption | with_reducible apply follows_markPause | with_reducible apply follows_setSpanState
    | with_reducible apply follows_ite | split | (intro t x ht; try dsimp only) | (intro t ht; try dsimp only) | (intro v; try beta_reduce)
    | dsimp only

theorem follows_needEpoch {a s : State} (h : Follows a s) (k : Nat) :
    Follows a (State.needEpoch s k) := by
  unfold State.needEpoch
  repeat' first
    | with_reducible assumption | with_reducible apply follows_modSpan | with_reducible apply follows_pauseFor | with_reducible apply follows_ite
    | split | (intro t x ht; try dsimp only) | (intro t ht; try dsimp only) | (intro v; try beta_reduce) | dsimp only

theorem follows_setLoss {a s : State} (h : Follows a s) (k : Nat) (cs : List Nat) :
    Follows a (State.setLoss s k cs) := by
  unfold State.setLoss
  repeat' first
    | with_reducible assumption | with_reducible apply follows_modSpan | with_reducible apply follows_pauseFor | with_reducible apply follows_foldl
    | with_reducible apply follows_ite | split | (intro t x ht; try dsimp only) | (intro t ht; try dsimp only) | (intro v; try beta_reduce)
    | dsimp only

theorem follows_setDegraded {a s : State} (h : Follows a s) (k : Nat) (c : Nat) (cs : List Nat) :
    Follows a (State.setDegraded s k c cs) := by
  unfold State.setDegraded
  repeat' first
    | with_reducible assumption | with_reducible apply follows_setLoss | with_reducible apply follows_setReg
    | with_reducible apply follows_setSetState | with_reducible apply follows_supEvent | with_reducible apply follows_event
    | with_reducible apply follows_ite | split | (intro t x ht; try dsimp only) | (intro t ht; try dsimp only) | (intro v; try beta_reduce)
    | dsimp only

theorem follows_setFailed {a s : State} (h : Follows a s) (k : Nat) (c : Nat) (cs : List Nat) :
    Follows a (State.setFailed s k c cs) := by
  unfold State.setFailed
  repeat' first
    | with_reducible assumption | with_reducible apply follows_setLoss | with_reducible apply follows_setSetState
    | with_reducible apply follows_supEvent | with_reducible apply follows_event | with_reducible apply follows_ite | split
    | (intro t x ht; try dsimp only) | (intro t ht; try dsimp only) | (intro v; try beta_reduce) | dsimp only

theorem follows_setChannelRetired {a s : State} (h : Follows a s) (k : Nat) (c : Nat) :
    Follows a (State.setChannelRetired s k c) := by
  unfold State.setChannelRetired
  repeat' first
    | with_reducible assumption | with_reducible apply follows_setDegraded | with_reducible apply follows_setFailed | with_reducible apply follows_ite
    | split | (intro t x ht; try dsimp only) | (intro t ht; try dsimp only) | (intro v; try beta_reduce) | dsimp only

theorem follows_setTested {a s : State} (h : Follows a s) (k : Nat) :
    Follows a (State.setTested s k) := by
  unfold State.setTested
  repeat' first
    | with_reducible assumption | with_reducible apply follows_setDegraded | with_reducible apply follows_setFailed
    | with_reducible apply follows_setSetState | with_reducible apply follows_ite | split | (intro t x ht; try dsimp only)
    | (intro t ht; try dsimp only) | (intro v; try beta_reduce) | dsimp only

theorem follows_setWritten {a s : State} (h : Follows a s) (k : Nat) (l : List Byte) :
    Follows a (State.setWritten s k l) := by
  unfold State.setWritten
  repeat' first
    | with_reducible assumption | with_reducible apply follows_modSet | with_reducible apply follows_setReg | with_reducible apply follows_setSetState
    | with_reducible apply follows_setTested | with_reducible apply follows_ite | split | (intro t x ht; try dsimp only)
    | (intro t ht; try dsimp only) | (intro v; try beta_reduce) | dsimp only

theorem follows_mapCleared {a s : State} (h : Follows a s)  :
    Follows a (State.mapCleared s) := by
  unfold State.mapCleared
  repeat' first
    | with_reducible assumption | with_reducible apply follows_setReg | with_reducible apply follows_setWritten | with_reducible apply follows_ite
    | split | (intro t x ht; try dsimp only) | (intro t ht; try dsimp only) | (intro v; try beta_reduce) | dsimp only

theorem follows_noteRead {a s : State} (h : Follows a s) (a0 : Nat) (n : Nat) :
    Follows a (State.noteRead s a0 n) := by
  unfold State.noteRead
  repeat' first
    | with_reducible assumption | with_reducible apply follows_ite | with_reducible apply follows_lateReads | split | (intro t x ht; try dsimp only)
    | (intro t ht; try dsimp only) | (intro v; try beta_reduce) | dsimp only

theorem follows_pokePart {a s : State} (h : Follows a s) (a0 : Nat) (l : List Byte) :
    Follows a (State.pokePart s a0 l) := by
  unfold State.pokePart
  repeat' first
    | with_reducible assumption | with_reducible apply follows_write | with_reducible apply follows_foldl | with_reducible apply follows_ite | split
    | (intro t x ht; try dsimp only) | (intro t ht; try dsimp only) | (intro v; try beta_reduce) | dsimp only

theorem follows_poke {a s : State} (h : Follows a s) (a0 : Nat) (l : List Byte) :
    Follows a (State.poke s a0 l) := by
  unfold State.poke
  repeat' first
    | with_reducible assumption | with_reducible apply follows_pokePart | with_reducible apply follows_foldl | with_reducible apply follows_ite
    | split | (intro t x ht; try dsimp only) | (intro t ht; try dsimp only) | (intro v; try beta_reduce) | dsimp only

theorem follows_setRow {a s : State} (h : Follows a s) (f : Nat) (p : Nat) (l : List Byte) :
    Follows a (State.setRow s f p l) := by
  unfold State.setRow
  repeat' first
    | with_reducible assumption | with_reducible apply follows_write | with_reducible apply follows_ite | split | (intro t x ht; try dsimp only)
    | (intro t ht; try dsimp only) | (intro v; try beta_reduce) | dsimp only

theorem follows_setRows {a s : State} (h : Follows a s) (f : Nat) (p : Nat) (l : List Byte) :
    Follows a (State.setRows s f p l) := by
  unfold State.setRows
  repeat' first
    | with_reducible assumption | with_reducible apply follows_setRow | with_reducible apply follows_foldl | with_reducible apply follows_ite | split
    | (intro t x ht; try dsimp only) | (intro t ht; try dsimp only) | (intro v; try beta_reduce) | dsimp only

theorem follows_dropAhead {a s : State} (h : Follows a s) (f : Nat) (c : AheadFetch → Bool) :
    Follows a (State.dropAhead s f c) := by
  unfold State.dropAhead
  repeat' first
    | with_reducible assumption | with_reducible apply follows_bump | with_reducible apply follows_modMesh | with_reducible apply follows_modSeq
    | with_reducible apply follows_ite | split | (intro t x ht; try dsimp only) | (intro t ht; try dsimp only) | (intro v; try beta_reduce)
    | dsimp only

theorem follows_rowWritten {a s : State} (h : Follows a s) (f : Nat) (p : Nat) :
    Follows a (State.rowWritten s f p) := by
  unfold State.rowWritten
  repeat' first
    | with_reducible assumption | with_reducible apply follows_dropAhead | with_reducible apply follows_modField | with_reducible apply follows_ite
    | split | (intro t x ht; try dsimp only) | (intro t ht; try dsimp only) | (intro v; try beta_reduce) | dsimp only

theorem follows_bankTo {a s : State} (h : Follows a s) (f : Nat) (b : Nat) (x : BankState) :
    Follows a (State.bankTo s f b x) := by
  unfold State.bankTo
  repeat' first
    | with_reducible assumption | with_reducible apply follows_event | with_reducible apply follows_modBank | with_reducible apply follows_wipe
    | with_reducible apply follows_ite | split | (intro t x ht; try dsimp only) | (intro t ht; try dsimp only) | (intro v; try beta_reduce)
    | dsimp only

theorem follows_bankApply {a s : State} (h : Follows a s) (f : Nat) (b : Nat) (want : BankState) :
    Follows a (State.bankApply s f b want) := by
  unfold State.bankApply
  repeat' first
    | with_reducible assumption | with_reducible apply follows_bankTo | with_reducible apply follows_modBank | with_reducible apply follows_ite
    | split | (intro t x ht; try dsimp only) | (intro t ht; try dsimp only) | (intro v; try beta_reduce) | dsimp only

theorem follows_bankSettle {a s : State} (h : Follows a s) (f : Nat) (b : Nat) :
    Follows a (State.bankSettle s f b) := by
  unfold State.bankSettle
  repeat' first
    | with_reducible assumption | with_reducible apply follows_bankApply | with_reducible apply follows_ite | split | (intro t x ht; try dsimp only)
    | (intro t ht; try dsimp only) | (intro v; try beta_reduce) | dsimp only

theorem follows_banksApply {a s : State} (h : Follows a s) (f : Nat) :
    Follows a (State.banksApply s f) := by
  unfold State.banksApply
  repeat' first
    | with_reducible assumption | with_reducible apply follows_bankApply | with_reducible apply follows_foldl | with_reducible apply follows_ite
    | split | (intro t x ht; try dsimp only) | (intro t ht; try dsimp only) | (intro v; try beta_reduce) | dsimp only

theorem follows_banksPending {a s : State} (h : Follows a s) (f : Nat) (inSpan : Bool) :
    Follows a (State.banksPending s f inSpan) := by
  unfold State.banksPending
  repeat' first
    | with_reducible assumption | with_reducible apply follows_bankApply | with_reducible apply follows_banksApply
    | with_reducible apply follows_foldl | with_reducible apply follows_ite | split | (intro t x ht; try dsimp only) | (intro t ht; try dsimp only)
    | (intro v; try beta_reduce) | dsimp only

theorem follows_banksHeat {a s : State} (h : Follows a s) (f : Nat) :
    Follows a (State.banksHeat s f) := by
  unfold State.banksHeat
  repeat' first
    | with_reducible assumption | with_reducible apply follows_bankTo | with_reducible apply follows_modBank | with_reducible apply follows_foldl
    | with_reducible apply follows_ite | split | (intro t x ht; try dsimp only) | (intro t ht; try dsimp only) | (intro v; try beta_reduce)
    | dsimp only

theorem follows_banksWake {a s : State} (h : Follows a s) (f : Nat) :
    Follows a (State.banksWake s f) := by
  unfold State.banksWake
  repeat' first
    | with_reducible assumption | with_reducible apply follows_bankApply | with_reducible apply follows_modBank | with_reducible apply follows_foldl
    | with_reducible apply follows_ite | split | (intro t x ht; try dsimp only) | (intro t ht; try dsimp only) | (intro v; try beta_reduce)
    | dsimp only

theorem follows_banksOff {a s : State} (h : Follows a s) (f : Nat) :
    Follows a (State.banksOff s f) := by
  unfold State.banksOff
  repeat' first
    | with_reducible assumption | with_reducible apply follows_bankTo | with_reducible apply follows_foldl | with_reducible apply follows_ite | split
    | (intro t x ht; try dsimp only) | (intro t ht; try dsimp only) | (intro v; try beta_reduce) | dsimp only

theorem follows_sleep {a s : State} (h : Follows a s) (c : Instr) :
    Follows a (State.sleep s c) := by
  unfold State.sleep
  repeat' first
    | with_reducible assumption | with_reducible apply follows_ite | with_reducible apply follows_sleepers | split | (intro t x ht; try dsimp only)
    | (intro t ht; try dsimp only) | (intro v; try beta_reduce) | dsimp only

theorem follows_sendNth {a s : State} (h : Follows a s) (nth : Nat) (resent : Bool) (master : Nat) (ty : Nat) (span : Nat) (step : Nat) (attempt : Nat) (dst : Dest) (status : Nat) (data : List Nat) :
    Follows a (State.sendNth s nth resent master ty span step attempt dst status data) := by
  unfold State.sendNth
  repeat' first
    | with_reducible assumption | with_reducible apply follows_emit | with_reducible apply follows_ite | split | (intro t x ht; try dsimp only)
    | (intro t ht; try dsimp only) | (intro v; try beta_reduce) | dsimp only

theorem follows_send {a s : State} (h : Follows a s) (master : Nat) (ty : Nat) (span : Nat) (step : Nat) (attempt : Nat) (dst : Dest) (status : Nat) (data : List Nat) :
    Follows a (State.send s master ty span step attempt dst status data) := by
  unfold State.send
  repeat' first
    | with_reducible assumption | with_reducible apply follows_sendNth | with_reducible apply follows_ite | split | (intro t x ht; try dsimp only)
    | (intro t ht; try dsimp only) | (intro v; try beta_reduce) | dsimp only

theorem follows_toMembers {a s : State} (h : Follows a s) (master : Nat) (ty : Nat) (k : Nat) (step : Nat) (attempt : Nat) (ms : List (Nat × Nat)) (data : List Nat) :
    Follows a (State.toMembers s master ty k step attempt ms data) := by
  unfold State.toMembers
  repeat' first
    | with_reducible assumption | with_reducible apply follows_send | with_reducible apply follows_foldl | with_reducible apply follows_ite | split
    | (intro t x ht; try dsimp only) | (intro t ht; try dsimp only) | (intro v; try beta_reduce) | dsimp only

theorem follows_answerFrom {a s : State} (h : Follows a s) (e : Endpoint) (p : Pkt) (ty : Nat) (status : Nat) (data : List Nat) :
    Follows a (State.answerFrom s e p ty status data) := by
  unfold State.answerFrom
  repeat' first
    | with_reducible assumption | with_reducible apply follows_emit | with_reducible apply follows_ite | split | (intro t x ht; try dsimp only)
    | (intro t ht; try dsimp only) | (intro v; try beta_reduce) | dsimp only

theorem follows_answer {a s : State} (h : Follows a s) (p : Pkt) (ty : Nat) (status : Nat) (data : List Nat) :
    Follows a (State.answer s p ty status data) := by
  unfold State.answer
  repeat' first
    | with_reducible assumption | with_reducible apply follows_answerFrom | with_reducible apply follows_ite | split | (intro t x ht; try dsimp only)
    | (intro t ht; try dsimp only) | (intro v; try beta_reduce) | dsimp only

theorem follows_performed {a s : State} (h : Follows a s) (p : Pkt) (stream : Bool) :
    Follows a (State.performed s p stream) := by
  unfold State.performed
  repeat' first
    | with_reducible assumption | with_reducible apply follows_answer | with_reducible apply follows_ite | split | (intro t x ht; try dsimp only)
    | (intro t ht; try dsimp only) | (intro v; try beta_reduce) | dsimp only

theorem follows_flitsOut {a s : State} (h : Follows a s) (o : Nat × Nat) (n : Nat) :
    Follows a (State.flitsOut s o n) := by
  unfold State.flitsOut
  repeat' first
    | with_reducible assumption | with_reducible apply follows_setReg | with_reducible apply follows_ite | split | (intro t x ht; try dsimp only)
    | (intro t ht; try dsimp only) | (intro v; try beta_reduce) | dsimp only

theorem follows_hauled {a s : State} (h : Follows a s) (p : Pkt) (n : Nat) :
    Follows a (State.hauled s p n) := by
  unfold State.hauled
  repeat' first
    | with_reducible assumption | with_reducible apply follows_flitsOut | with_reducible apply follows_foldl | with_reducible apply follows_ite
    | split | (intro t x ht; try dsimp only) | (intro t ht; try dsimp only) | (intro v; try beta_reduce) | dsimp only

theorem follows_setAclk {a s : State} (h : Follows a s) (f : Nat) (mhz : Nat) :
    Follows a (State.setAclk s f mhz) := by
  unfold State.setAclk
  repeat' first
    | with_reducible assumption | with_reducible apply follows_modClock | with_reducible apply follows_ite | split | (intro t x ht; try dsimp only)
    | (intro t ht; try dsimp only) | (intro v; try beta_reduce) | dsimp only

theorem follows_pointReached {a s : State} (h : Follows a s) (f : Nat) (p : Nat) :
    Follows a (State.pointReached s f p) := by
  unfold State.pointReached
  repeat' first
    | with_reducible assumption | with_reducible apply follows_modPower | with_reducible apply follows_ite | split | (intro t x ht; try dsimp only)
    | (intro t ht; try dsimp only) | (intro v; try beta_reduce) | dsimp only

theorem follows_pointMove {a s : State} (h : Follows a s) (f : Nat) (p : Nat) :
    Follows a (State.pointMove s f p) := by
  unfold State.pointMove
  repeat' first
    | with_reducible assumption | with_reducible apply follows_modPower | with_reducible apply follows_pointReached | with_reducible apply follows_ite
    | split | (intro t x ht; try dsimp only) | (intro t ht; try dsimp only) | (intro v; try beta_reduce) | dsimp only

theorem follows_powerUpdate {a s : State} (h : Follows a s) (f : Nat) :
    Follows a (State.powerUpdate s f) := by
  unfold State.powerUpdate
  repeat' first
    | with_reducible assumption | with_reducible apply follows_modPower | with_reducible apply follows_pointMove | with_reducible apply follows_ite
    | split | (intro t x ht; try dsimp only) | (intro t ht; try dsimp only) | (intro v; try beta_reduce) | dsimp only

theorem follows_requestPoint {a s : State} (h : Follows a s) (f : Nat) :
    Follows a (State.requestPoint s f) := by
  unfold State.requestPoint
  repeat' first
    | with_reducible assumption | with_reducible apply follows_modPower | with_reducible apply follows_powerUpdate | with_reducible apply follows_ite
    | split | (intro t x ht; try dsimp only) | (intro t ht; try dsimp only) | (intro v; try beta_reduce) | dsimp only

theorem follows_powerAll {a s : State} (h : Follows a s)  :
    Follows a (State.powerAll s) := by
  unfold State.powerAll
  repeat' first
    | with_reducible assumption | with_reducible apply follows_powerUpdate | with_reducible apply follows_foldl | with_reducible apply follows_ite
    | split | (intro t x ht; try dsimp only) | (intro t ht; try dsimp only) | (intro v; try beta_reduce) | dsimp only

theorem follows_setCapLimit {a s : State} (h : Follows a s) (p : Nat) :
    Follows a (State.setCapLimit s p) := by
  unfold State.setCapLimit
  repeat' first
    | with_reducible assumption | with_reducible apply follows_powerAll | with_reducible apply follows_setReg | with_reducible apply follows_ite
    | split | (intro t x ht; try dsimp only) | (intro t ht; try dsimp only) | (intro v; try beta_reduce) | dsimp only

theorem follows_spinTo {a s : State} (h : Follows a s) (f : Nat) (x : SpinState) :
    Follows a (State.spinTo s f x) := by
  unfold State.spinTo
  repeat' first
    | with_reducible assumption | with_reducible apply follows_bump | with_reducible apply follows_modArray | with_reducible apply follows_ite | split
    | (intro t x ht; try dsimp only) | (intro t ht; try dsimp only) | (intro v; try beta_reduce) | dsimp only

theorem follows_arrayIdle {a s : State} (h : Follows a s) (f : Nat) :
    Follows a (State.arrayIdle s f) := by
  unfold State.arrayIdle
  repeat' first
    | with_reducible assumption | with_reducible apply follows_modArray | with_reducible apply follows_nextFree | with_reducible apply follows_spinTo
    | with_reducible apply follows_ite | split | (intro t x ht; try dsimp only) | (intro t ht; try dsimp only) | (intro v; try beta_reduce)
    | dsimp only

theorem follows_passesDropped {a s : State} (h : Follows a s) (f : Nat) :
    Follows a (State.passesDropped s f) := by
  unfold State.passesDropped
  repeat' first
    | with_reducible assumption | with_reducible apply follows_arrayIdle | with_reducible apply follows_modSeq | with_reducible apply follows_ite
    | split | (intro t x ht; try dsimp only) | (intro t ht; try dsimp only) | (intro v; try beta_reduce) | dsimp only

theorem follows_arrayResumes {a s : State} (h : Follows a s) (f : Nat) :
    Follows a (State.arrayResumes s f) := by
  unfold State.arrayResumes
  repeat' first
    | with_reducible assumption | with_reducible apply follows_bump | with_reducible apply follows_spinTo | with_reducible apply follows_ite | split
    | (intro t x ht; try dsimp only) | (intro t ht; try dsimp only) | (intro v; try beta_reduce) | dsimp only

theorem follows_arrayOff {a s : State} (h : Follows a s) (f : Nat) :
    Follows a (State.arrayOff s f) := by
  unfold State.arrayOff
  repeat' first
    | with_reducible assumption | with_reducible apply follows_modArray | with_reducible apply follows_spinTo | with_reducible apply follows_ite
    | split | (intro t x ht; try dsimp only) | (intro t ht; try dsimp only) | (intro v; try beta_reduce) | dsimp only

theorem follows_fetchRead {a s : State} (h : Follows a s) (f : Nat) (k : Nat) (a0 : Nat) (rows : Nat) (dst : Nat) (serial : Nat) (ahead : Option Nat) :
    Follows a (State.fetchRead s f k a0 rows dst serial ahead) := by
  unfold State.fetchRead
  repeat' first
    | with_reducible assumption | with_reducible apply follows_bump | with_reducible apply follows_request | with_reducible apply follows_send
    | with_reducible apply follows_write | with_reducible apply follows_ite | split | (intro t x ht; try dsimp only) | (intro t ht; try dsimp only)
    | (intro v; try beta_reduce) | dsimp only

theorem follows_fetchIssue {a s : State} (h : Follows a s) (f : Nat) (k : Nat) (serial : Nat) (reads : List (Nat × Nat × Nat)) :
    Follows a (State.fetchIssue s f k serial reads) := by
  unfold State.fetchIssue
  repeat' first
    | with_reducible assumption | with_reducible apply follows_fetchRead | with_reducible apply follows_modSeq | with_reducible apply follows_foldl
    | with_reducible apply follows_ite | split | (intro t x ht; try dsimp only) | (intro t ht; try dsimp only) | (intro v; try beta_reduce)
    | dsimp only

theorem follows_fetchNext {a s : State} (h : Follows a s) (f : Nat) (k : Nat) :
    Follows a (State.fetchNext s f k) := by
  unfold State.fetchNext
  repeat' first
    | with_reducible assumption | with_reducible apply follows_fetchRead | with_reducible apply follows_modSeq | with_reducible apply follows_ite
    | split | (intro t x ht; try dsimp only) | (intro t ht; try dsimp only) | (intro v; try beta_reduce) | dsimp only

theorem follows_aheadReads {a : State} (f k : Nat) (r : RunAhead) (l : List (Nat × Nat × Nat)) {s : State} (h : Follows a s) :
    Follows a (s.aheadReads f k r l) := by
  induction l generalizing s with
  | nil => exact follows_modSeq h _ _
  | cons x rest ih =>
    unfold State.aheadReads
    dsimp only
    split
    · exact ih (follows_modSeq (follows_fetchRead h _ _ _ _ _ _ _) _ _)
    · exact follows_modSeq h _ _

theorem follows_aheadIssue {a s : State} (h : Follows a s) (f : Nat) (k : Nat) (r : RunAhead) (reads : List (Nat × Nat × Nat)) (row : Option Nat) :
    Follows a (State.aheadIssue s f k r reads row) := by
  unfold State.aheadIssue
  repeat' first
    | with_reducible assumption | with_reducible apply follows_aheadReads | with_reducible apply follows_modSeq | with_reducible apply follows_ite
    | split | (intro t x ht; try dsimp only) | (intro t ht; try dsimp only) | (intro v; try beta_reduce) | dsimp only

theorem follows_aheadMove {a s : State} (h : Follows a s) (f : Nat) (k : Nat) (i : Image) (r : RunAhead) :
    Follows a (State.aheadMove s f k i r) := by
  unfold State.aheadMove
  repeat' first
    | with_reducible assumption | with_reducible apply follows_aheadIssue | with_reducible apply follows_modSeq | with_reducible apply follows_ite
    | split | (intro t x ht; try dsimp only) | (intro t ht; try dsimp only) | (intro v; try beta_reduce) | dsimp only

theorem follows_aheadRun {a : State} (f k n fuel : Nat) {s : State} (h : Follows a s) : Follows a (aheadRun f k n fuel s) := by
  induction fuel generalizing s with
  | zero => exact h
  | succ m ih =>
    unfold aheadRun
    dsimp only
    repeat' first
      | with_reducible assumption | with_reducible apply ih | with_reducible apply follows_modSeq | with_reducible apply follows_aheadMove
      | with_reducible apply follows_aheadReads | split

theorem follows_aheadGo {a s : State} (h : Follows a s) (f : Nat) : Follows a (s.aheadGo f) := by
  unfold State.aheadGo
  split
  · exact follows_aheadRun _ _ _ _ h
  · exact h

theorem follows_aheadClear {a s : State} (h : Follows a s) (f : Nat) :
    Follows a (State.aheadClear s f) := by
  unfold State.aheadClear
  repeat' first
    | with_reducible assumption | with_reducible apply follows_dropAhead | with_reducible apply follows_modSeq | with_reducible apply follows_ite
    | split | (intro t x ht; try dsimp only) | (intro t ht; try dsimp only) | (intro v; try beta_reduce) | dsimp only

theorem follows_aheadOpen {a s : State} (h : Follows a s) (f : Nat) (n : Nat) (variant : Nat) :
    Follows a (State.aheadOpen s f n variant) := by
  unfold State.aheadOpen
  repeat' first
    | with_reducible assumption | with_reducible apply follows_aheadClear | with_reducible apply follows_aheadGo
    | with_reducible apply follows_dropAhead | with_reducible apply follows_modSeq | with_reducible apply follows_ite | split
    | (intro t x ht; try dsimp only) | (intro t ht; try dsimp only) | (intro v; try beta_reduce) | dsimp only

theorem follows_attemptStart {a s : State} (h : Follows a s) (f : Nat) (n : Nat) (variant : Nat) :
    Follows a (State.attemptStart s f n variant) := by
  unfold State.attemptStart
  repeat' first
    | with_reducible assumption | with_reducible apply follows_aheadOpen | with_reducible apply follows_modArray | with_reducible apply follows_modSeq
    | with_reducible apply follows_setReg | with_reducible apply follows_ite | split | (intro t x ht; try dsimp only) | (intro t ht; try dsimp only)
    | (intro v; try beta_reduce) | dsimp only

theorem follows_declarePhase {a s : State} (h : Follows a s) (f : Nat) (code : Nat) :
    Follows a (State.declarePhase s f code) := by
  unfold State.declarePhase
  repeat' first
    | with_reducible assumption | with_reducible apply follows_modPower | with_reducible apply follows_powerUpdate
    | with_reducible apply follows_setReg | with_reducible apply follows_ite | split | (intro t x ht; try dsimp only) | (intro t ht; try dsimp only)
    | (intro v; try beta_reduce) | dsimp only

theorem follows_seqWait {a s : State} (h : Follows a s) (f : Nat) :
    Follows a (State.seqWait s f) := by
  unfold State.seqWait
  repeat' first
    | with_reducible assumption | with_reducible apply follows_declarePhase | with_reducible apply follows_modArray
    | with_reducible apply follows_modSeq | with_reducible apply follows_passesDropped | with_reducible apply follows_ite | split
    | (intro t x ht; try dsimp only) | (intro t ht; try dsimp only) | (intro v; try beta_reduce) | dsimp only

theorem follows_prologueStart {a s : State} (h : Follows a s) (f : Nat) (n : Nat) :
    Follows a (State.prologueStart s f n) := by
  unfold State.prologueStart
  repeat' first
    | with_reducible assumption | with_reducible apply follows_modArray | with_reducible apply follows_modSeq | with_reducible apply follows_ite
    | split | (intro t x ht; try dsimp only) | (intro t ht; try dsimp only) | (intro v; try beta_reduce) | dsimp only

theorem follows_seqEmpty {a s : State} (h : Follows a s) (f : Nat) :
    Follows a (State.seqEmpty s f) := by
  unfold State.seqEmpty
  repeat' first
    | with_reducible assumption | with_reducible apply follows_aheadClear | with_reducible apply follows_modSeq | with_reducible apply follows_setReg
    | with_reducible apply follows_ite | split | (intro t x ht; try dsimp only) | (intro t ht; try dsimp only) | (intro v; try beta_reduce)
    | dsimp only

theorem follows_pokeAny {a s : State} (h : Follows a s) (a0 : Nat) (l : List Byte) :
    Follows a (State.pokeAny s a0 l) := by
  unfold State.pokeAny
  repeat' first
    | with_reducible assumption | with_reducible apply follows_modChannel | with_reducible apply follows_poke
    | with_reducible apply follows_rowWritten | with_reducible apply follows_write | with_reducible apply follows_foldl
    | with_reducible apply follows_ite | split | (intro t x ht; try dsimp only) | (intro t ht; try dsimp only) | (intro v; try beta_reduce)
    | dsimp only

theorem follows_reportFail {a s : State} (h : Follows a s) (f : Nat) (bits : Nat) :
    Follows a (State.reportFail s f bits) := by
  unfold State.reportFail
  repeat' first
    | with_reducible assumption | with_reducible apply follows_modSeq | with_reducible apply follows_send | with_reducible apply follows_ite | split
    | (intro t x ht; try dsimp only) | (intro t ht; try dsimp only) | (intro v; try beta_reduce) | dsimp only

theorem follows_reportSpan {a s : State} (h : Follows a s) (k : Nat) (master : Nat) (bits : Nat) :
    Follows a (State.reportSpan s k master bits) := by
  unfold State.reportSpan
  repeat' first
    | with_reducible assumption | with_reducible apply follows_send | with_reducible apply follows_ite | split | (intro t x ht; try dsimp only)
    | (intro t ht; try dsimp only) | (intro v; try beta_reduce) | dsimp only

theorem follows_noteOutside {a s : State} (h : Follows a s) (x n : Nat) :
    Follows a (State.noteOutside s x n) := by
  unfold State.noteOutside
  split
  · with_reducible exact follows_supEvent h _ _
  · exact h

theorem follows_noteRefusal {a s : State} (h : Follows a s) (master : Nat) (span : Nat) (right : Right) (a0 : Nat) (n : Nat) (code : Nat) :
    Follows a (State.noteRefusal s master span right a0 n code) := by
  unfold State.noteRefusal
  repeat' first
    | with_reducible assumption | with_reducible apply follows_event | with_reducible apply follows_nextFree
    | with_reducible apply follows_noteOutside | with_reducible apply follows_reportFail | with_reducible apply follows_supEvent
    | with_reducible apply follows_violation | with_reducible apply follows_ite | split | (intro t x ht; try dsimp only)
    | (intro t ht; try dsimp only) | (intro v; try beta_reduce) | dsimp only

theorem follows_moverEpochs {a s : State} (h : Follows a s) (f : Nat) :
    Follows a (State.moverEpochs s f) := by
  unfold State.moverEpochs
  repeat' first
    | with_reducible assumption | with_reducible apply follows_modMover | with_reducible apply follows_foldl | with_reducible apply follows_ite
    | split | (intro t x ht; try dsimp only) | (intro t ht; try dsimp only) | (intro v; try beta_reduce) | dsimp only

theorem follows_interrupt {a s : State} (h : Follows a s) (f : Nat) (cause : Nat) (args : List Nat) :
    Follows a (State.interrupt s f cause args) := by
  unfold State.interrupt
  repeat' first
    | with_reducible assumption | with_reducible apply follows_emit | with_reducible apply follows_ite | split | (intro t x ht; try dsimp only)
    | (intro t ht; try dsimp only) | (intro v; try beta_reduce) | dsimp only

theorem follows_moverFail {a s : State} (h : Follows a s) (f : Nat) (c : Nat) (code : Nat) (addr : Nat) :
    Follows a (State.moverFail s f c code addr) := by
  unfold State.moverFail
  repeat' first
    | with_reducible assumption | with_reducible apply follows_bump | with_reducible apply follows_event | with_reducible apply follows_interrupt
    | with_reducible apply follows_modMover | with_reducible apply follows_reportSpan | with_reducible apply follows_ite | split
    | (intro t x ht; try dsimp only) | (intro t ht; try dsimp only) | (intro v; try beta_reduce) | dsimp only

theorem follows_moverChainFail {a : State} (f n : Nat) {s : State} (h : Follows a s) (c : Nat) : Follows a (moverChainFail f n s c) := by
  induction n generalizing s c with
  | zero => exact h
  | succ m ih =>
    unfold moverChainFail
    refine follows_foldl h _ _ fun t e ht => ?_
    dsimp only
    split
    · exact ih (follows_moverFail ht _ _ _ _) _
    · exact ht

theorem follows_moverError {a s : State} (h : Follows a s) (f c code addr : Nat) : Follows a (s.moverError f c code addr) :=
  follows_moverChainFail _ _ (follows_moverFail h _ _ _ _) _

theorem follows_moverPreempt {a s : State} (h : Follows a s) (f : Nat) :
    Follows a (State.moverPreempt s f) := by
  unfold State.moverPreempt
  repeat' first
    | with_reducible assumption | with_reducible apply follows_bump | with_reducible apply follows_modMover | with_reducible apply follows_foldl
    | with_reducible apply follows_ite | split | (intro t x ht; try dsimp only) | (intro t ht; try dsimp only) | (intro v; try beta_reduce)
    | dsimp only

theorem follows_moverStart {a s : State} (h : Follows a s) (f : Nat) (c : Nat) (late : Bool) :
    Follows a (State.moverStart s f c late) := by
  unfold State.moverStart
  repeat' first
    | with_reducible assumption | with_reducible apply follows_bump | with_reducible apply follows_modMover
    | with_reducible apply follows_moverPreempt | with_reducible apply follows_ite | split | (intro t x ht; try dsimp only)
    | (intro t ht; try dsimp only) | (intro v; try beta_reduce) | dsimp only

theorem follows_moverTry {a s : State} (h : Follows a s) (f : Nat) (c : Nat) :
    Follows a (State.moverTry s f c) := by
  unfold State.moverTry
  repeat' first
    | with_reducible assumption | with_reducible apply follows_moverStart | with_reducible apply follows_ite | split | (intro t x ht; try dsimp only)
    | (intro t ht; try dsimp only) | (intro v; try beta_reduce) | dsimp only

theorem follows_moverEvent {a s : State} (h : Follows a s) (f : Nat) (c : Nat) :
    Follows a (State.moverEvent s f c) := by
  unfold State.moverEvent
  repeat' first
    | with_reducible assumption | with_reducible apply follows_bump | with_reducible apply follows_event | with_reducible apply follows_modMover
    | with_reducible apply follows_moverTry | with_reducible apply follows_ite | split | (intro t x ht; try dsimp only) | (intro t ht; try dsimp only)
    | (intro v; try beta_reduce) | dsimp only

theorem follows_moverEvents {a s : State} (h : Follows a s) (f : Nat) (isMine : MoverSet → Bool) :
    Follows a (State.moverEvents s f isMine) := by
  unfold State.moverEvents
  repeat' first
    | with_reducible assumption | with_reducible apply follows_moverEvent | with_reducible apply follows_foldl | with_reducible apply follows_ite
    | split | (intro t x ht; try dsimp only) | (intro t ht; try dsimp only) | (intro v; try beta_reduce) | dsimp only

theorem follows_moverSeqEvent {a s : State} (h : Follows a s) (f : Nat) (kind : Nat) (code : Nat) :
    Follows a (State.moverSeqEvent s f kind code) := by
  unfold State.moverSeqEvent
  repeat' first
    | with_reducible assumption | with_reducible apply follows_moverEvents | with_reducible apply follows_ite | split | (intro t x ht; try dsimp only)
    | (intro t ht; try dsimp only) | (intro v; try beta_reduce) | dsimp only

theorem follows_moverMediaEvent {a s : State} (h : Follows a s) (isGroup : Bool) (n : Nat) :
    Follows a (State.moverMediaEvent s isGroup n) := by
  unfold State.moverMediaEvent
  repeat' first
    | with_reducible assumption | with_reducible apply follows_moverEvents | with_reducible apply follows_foldl | with_reducible apply follows_ite
    | split | (intro t x ht; try dsimp only) | (intro t ht; try dsimp only) | (intro v; try beta_reduce) | dsimp only

theorem follows_moverReload {a s : State} (h : Follows a s) (f : Nat) (c : Nat) :
    Follows a (State.moverReload s f c) := by
  unfold State.moverReload
  repeat' first
    | with_reducible assumption | with_reducible apply follows_modMover | with_reducible apply follows_moverTry | with_reducible apply follows_ite
    | split | (intro t x ht; try dsimp only) | (intro t ht; try dsimp only) | (intro v; try beta_reduce) | dsimp only

theorem follows_moversAbort {a s : State} (h : Follows a s) (f : Nat) (k : Nat) :
    Follows a (State.moversAbort s f k) := by
  unfold State.moversAbort
  repeat' first
    | with_reducible assumption | with_reducible apply follows_modMover | with_reducible apply follows_foldl | with_reducible apply follows_ite
    | split | (intro t x ht; try dsimp only) | (intro t ht; try dsimp only) | (intro v; try beta_reduce) | dsimp only

theorem follows_countNarrow {a s : State} (h : Follows a s) (l : List (Nat × Nat)) :
    Follows a (State.countNarrow s l) := by
  unfold State.countNarrow
  repeat' first
    | with_reducible assumption | with_reducible apply follows_bump | with_reducible apply follows_foldl | with_reducible apply follows_ite | split
    | (intro t x ht; try dsimp only) | (intro t ht; try dsimp only) | (intro v; try beta_reduce) | dsimp only

theorem follows_moverTorn {a s : State} (h : Follows a s) (f : Nat) (c : Nat) :
    Follows a (State.moverTorn s f c) := by
  unfold State.moverTorn
  repeat' first
    | with_reducible assumption | with_reducible apply follows_bump | with_reducible apply follows_countNarrow | with_reducible apply follows_modMover
    | with_reducible apply follows_nextFree | with_reducible apply follows_pokeAny | with_reducible apply follows_foldl
    | with_reducible apply follows_free | with_reducible apply follows_ite | split | (intro t x ht; try dsimp only) | (intro t ht; try dsimp only)
    | (intro v; try beta_reduce) | dsimp only

theorem follows_moversEpoch {a s : State} (h : Follows a s) (f : Nat) (k : Nat) (e : Nat) :
    Follows a (State.moversEpoch s f k e) := by
  unfold State.moversEpoch
  repeat' first
    | with_reducible assumption | with_reducible apply follows_modMover | with_reducible apply follows_moverError
    | with_reducible apply follows_moverTorn | with_reducible apply follows_foldl | with_reducible apply follows_ite | split
    | (intro t x ht; try dsimp only) | (intro t ht; try dsimp only) | (intro v; try beta_reduce) | dsimp only

theorem follows_moversDark {a s : State} (h : Follows a s) (f : Nat) :
    Follows a (State.moversDark s f) := by
  unfold State.moversDark
  repeat' first
    | with_reducible assumption | with_reducible apply follows_modField | with_reducible apply follows_moverTorn | with_reducible apply follows_foldl
    | with_reducible apply follows_ite | split | (intro t x ht; try dsimp only) | (intro t ht; try dsimp only) | (intro v; try beta_reduce)
    | dsimp only

theorem follows_writeKeystone {a s : State} (h : Follows a s) (k : Nat) (l : List Byte) :
    Follows a (State.writeKeystone s k l) := by
  unfold State.writeKeystone
  repeat' first
    | with_reducible assumption | with_reducible apply follows_poke | with_reducible apply follows_ite | split | (intro t x ht; try dsimp only)
    | (intro t ht; try dsimp only) | (intro v; try beta_reduce) | dsimp only

theorem follows_showCommitted {a s : State} (h : Follows a s) (k : Nat) :
    Follows a (State.showCommitted s k) := by
  unfold State.showCommitted
  repeat' first
    | with_reducible assumption | with_reducible apply follows_setReg | with_reducible apply follows_ite | split | (intro t x ht; try dsimp only)
    | (intro t ht; try dsimp only) | (intro v; try beta_reduce) | dsimp only

theorem follows_openTree {a s : State} (h : Follows a s) (k : Nat) (d : Option Nat) (n : Nat) (c : Nat) (e : SeqEntry) :
    Follows a (State.openTree s k d n c e) := by
  unfold State.openTree
  repeat' first
    | with_reducible assumption | with_reducible apply follows_bump | with_reducible apply follows_event | with_reducible apply follows_modSpan
    | with_reducible apply follows_noteRead | with_reducible apply follows_ite | split | (intro t x ht; try dsimp only) | (intro t ht; try dsimp only)
    | (intro v; try beta_reduce) | dsimp only

theorem follows_openTrees {a s : State} (h : Follows a s) (k : Nat) :
    Follows a (State.openTrees s k) := by
  unfold State.openTrees
  repeat' first
    | with_reducible assumption | with_reducible apply follows_openTree | with_reducible apply follows_foldl | with_reducible apply follows_ite
    | split | (intro t x ht; try dsimp only) | (intro t ht; try dsimp only) | (intro v; try beta_reduce) | dsimp only

theorem follows_openWorking {a s : State} (h : Follows a s) (k : Nat) :
    Follows a (State.openWorking s k) := by
  unfold State.openWorking
  repeat' first
    | with_reducible assumption | with_reducible apply follows_modSpan | with_reducible apply follows_ite | split | (intro t x ht; try dsimp only)
    | (intro t ht; try dsimp only) | (intro v; try beta_reduce) | dsimp only

theorem follows_dropSegment {a s : State} (h : Follows a s) (f : Nat) :
    Follows a (State.dropSegment s f) := by
  unfold State.dropSegment
  repeat' first
    | with_reducible assumption | with_reducible apply follows_bump | with_reducible apply follows_modTests | with_reducible apply follows_ite | split
    | (intro t x ht; try dsimp only) | (intro t ht; try dsimp only) | (intro v; try beta_reduce) | dsimp only

theorem follows_announceWindow {a s : State} (h : Follows a s) (k : Nat) :
    Follows a (State.announceWindow s k) := by
  unfold State.announceWindow
  repeat' first
    | with_reducible assumption | with_reducible apply follows_modClocks | with_reducible apply follows_modSpan
    | with_reducible apply follows_supEvent | with_reducible apply follows_event | with_reducible apply follows_ite | split
    | (intro t x ht; try dsimp only) | (intro t ht; try dsimp only) | (intro v; try beta_reduce) | dsimp only

theorem follows_stepOpens {a s : State} (h : Follows a s) (k : Nat) :
    Follows a (State.stepOpens s k) := by
  unfold State.stepOpens
  repeat' first
    | with_reducible assumption | with_reducible apply follows_announceWindow | with_reducible apply follows_banksApply
    | with_reducible apply follows_dropSegment | with_reducible apply follows_modSpan | with_reducible apply follows_openTrees
    | with_reducible apply follows_openWorking | with_reducible apply follows_foldl | with_reducible apply follows_ite | split
    | (intro t x ht; try dsimp only) | (intro t ht; try dsimp only) | (intro v; try beta_reduce) | dsimp only

theorem follows_membersStart {a s : State} (h : Follows a s) (k : Nat) :
    Follows a (State.membersStart s k) := by
  unfold State.membersStart
  repeat' first
    | with_reducible assumption | with_reducible apply follows_attemptStart | with_reducible apply follows_moverSeqEvent
    | with_reducible apply follows_foldl | with_reducible apply follows_ite | split | (intro t x ht; try dsimp only) | (intro t ht; try dsimp only)
    | (intro v; try beta_reduce) | dsimp only

theorem follows_tryOpen {a s : State} (h : Follows a s) (k : Nat) :
    Follows a (State.tryOpen s k) := by
  unfold State.tryOpen
  repeat' first
    | with_reducible assumption | with_reducible apply follows_membersStart | with_reducible apply follows_setSpanState
    | with_reducible apply follows_stepOpens | with_reducible apply follows_ite | split | (intro t x ht; try dsimp only)
    | (intro t ht; try dsimp only) | (intro v; try beta_reduce) | dsimp only

theorem follows_endSequences {a s : State} (h : Follows a s) (j : Nat) :
    Follows a (State.endSequences s j) := by
  unfold State.endSequences
  repeat' first
    | with_reducible assumption | with_reducible apply follows_modSpan | with_reducible apply follows_supEvent | with_reducible apply follows_event
    | with_reducible apply follows_foldl | with_reducible apply follows_ite | split | (intro t x ht; try dsimp only) | (intro t ht; try dsimp only)
    | (intro v; try beta_reduce) | dsimp only

theorem follows_resume {a s : State} (h : Follows a s) (k : Nat) :
    Follows a (State.resume s k) := by
  unfold State.resume
  repeat' first
    | with_reducible assumption | with_reducible apply follows_endSequences | with_reducible apply follows_setSpanState
    | with_reducible apply follows_tryOpen | with_reducible apply follows_ite | split | (intro t x ht; try dsimp only) | (intro t ht; try dsimp only)
    | (intro v; try beta_reduce) | dsimp only

theorem follows_closeStep {a s : State} (h : Follows a s) (k : Nat) :
    Follows a (State.closeStep s k) := by
  unfold State.closeStep
  repeat' first
    | with_reducible assumption | with_reducible apply follows_bump | with_reducible apply follows_event | with_reducible apply follows_modSpan
    | with_reducible apply follows_noteRead | with_reducible apply follows_setReg | with_reducible apply follows_foldl
    | with_reducible apply follows_free | with_reducible apply follows_ite | split | (intro t x ht; try dsimp only) | (intro t ht; try dsimp only)
    | (intro v; try beta_reduce) | dsimp only

theorem follows_sendAdvance {a s : State} (h : Follows a s) (k : Nat) :
    Follows a (State.sendAdvance s k) := by
  unfold State.sendAdvance
  repeat' first
    | with_reducible assumption | with_reducible apply follows_send | with_reducible apply follows_toMembers | with_reducible apply follows_ite
    | split | (intro t x ht; try dsimp only) | (intro t ht; try dsimp only) | (intro v; try beta_reduce) | dsimp only

theorem follows_sendNotice {a s : State} (h : Follows a s) (k : Nat) :
    Follows a (State.sendNotice s k) := by
  unfold State.sendNotice
  repeat' first
    | with_reducible assumption | with_reducible apply follows_send | with_reducible apply follows_ite | split | (intro t x ht; try dsimp only)
    | (intro t ht; try dsimp only) | (intro v; try beta_reduce) | dsimp only

theorem follows_applyR30 {a s : State} (h : Follows a s) (k : Nat) :
    Follows a (State.applyR30 s k) := by
  unfold State.applyR30
  repeat' first
    | with_reducible assumption | with_reducible apply follows_closeStep | with_reducible apply follows_modSpan
    | with_reducible apply follows_noteRead | with_reducible apply follows_setSpanState | with_reducible apply follows_showCommitted
    | with_reducible apply follows_supEvent | with_reducible apply follows_writeKeystone | with_reducible apply follows_event
    | with_reducible apply follows_ite | split | (intro t x ht; try dsimp only) | (intro t ht; try dsimp only) | (intro v; try beta_reduce)
    | dsimp only

theorem follows_noticesAgain {a s : State} (h : Follows a s) (k : Nat) :
    Follows a (State.noticesAgain s k) := by
  unfold State.noticesAgain
  repeat' first
    | with_reducible assumption | with_reducible apply follows_sendNotice | with_reducible apply follows_ite | split | (intro t x ht; try dsimp only)
    | (intro t ht; try dsimp only) | (intro v; try beta_reduce) | dsimp only

theorem follows_landOpen {a s : State} (h : Follows a s) (k : Nat) :
    Follows a (State.landOpen s k) := by
  unfold State.landOpen
  repeat' first
    | with_reducible assumption | with_reducible apply follows_nextFree | with_reducible apply follows_poke | with_reducible apply follows_ite | split
    | (intro t x ht; try dsimp only) | (intro t ht; try dsimp only) | (intro v; try beta_reduce) | dsimp only

theorem follows_abortSpan {a s : State} (h : Follows a s) (k : Nat) (cause : Nat) :
    Follows a (State.abortSpan s k cause) := by
  unfold State.abortSpan
  repeat' first
    | with_reducible assumption | with_reducible apply follows_bump | with_reducible apply follows_event | with_reducible apply follows_modSpan
    | with_reducible apply follows_setReg | with_reducible apply follows_toMembers | with_reducible apply follows_ite | split
    | (intro t x ht; try dsimp only) | (intro t ht; try dsimp only) | (intro v; try beta_reduce) | dsimp only

theorem follows_abortAway {a s : State} (h : Follows a s) (k : Nat) :
    Follows a (State.abortAway s k) := by
  unfold State.abortAway
  repeat' first
    | with_reducible assumption | with_reducible apply follows_modSpan | with_reducible apply follows_ite | split | (intro t x ht; try dsimp only)
    | (intro t ht; try dsimp only) | (intro v; try beta_reduce) | dsimp only

theorem follows_mcastsCut {a s : State} (h : Follows a s) (f : Nat) :
    Follows a (State.mcastsCut s f) := by
  unfold State.mcastsCut
  repeat' first
    | with_reducible assumption | with_reducible apply follows_modSeq | with_reducible apply follows_modSpan | with_reducible apply follows_ite
    | split | (intro t x ht; try dsimp only) | (intro t ht; try dsimp only) | (intro v; try beta_reduce) | dsimp only

theorem follows_pierStop {a s : State} (h : Follows a s) (f : Nat) :
    Follows a (State.pierStop s f) := by
  unfold State.pierStop
  repeat' first
    | with_reducible assumption | with_reducible apply follows_aheadClear | with_reducible apply follows_mcastsCut
    | with_reducible apply follows_modArray | with_reducible apply follows_modMesh | with_reducible apply follows_modSeq
    | with_reducible apply follows_passesDropped | with_reducible apply follows_write | with_reducible apply follows_ite | split
    | (intro t x ht; try dsimp only) | (intro t ht; try dsimp only) | (intro v; try beta_reduce) | dsimp only

theorem follows_pierAbort {a s : State} (h : Follows a s) (f : Nat) (k : Nat) :
    Follows a (State.pierAbort s f k) := by
  unfold State.pierAbort
  repeat' first
    | with_reducible assumption | with_reducible apply follows_aheadClear | with_reducible apply follows_modSeq
    | with_reducible apply follows_moversAbort | with_reducible apply follows_pierStop | with_reducible apply follows_ite | split
    | (intro t x ht; try dsimp only) | (intro t ht; try dsimp only) | (intro v; try beta_reduce) | dsimp only

theorem follows_membersRest {a s : State} (h : Follows a s) (k : Nat) :
    Follows a (State.membersRest s k) := by
  unfold State.membersRest
  repeat' first
    | with_reducible assumption | with_reducible apply follows_modSeq | with_reducible apply follows_seqWait | with_reducible apply follows_foldl
    | with_reducible apply follows_ite | split | (intro t x ht; try dsimp only) | (intro t ht; try dsimp only) | (intro v; try beta_reduce)
    | dsimp only

theorem follows_nextAttempt {a s : State} (h : Follows a s) (k : Nat) :
    Follows a (State.nextAttempt s k) := by
  unfold State.nextAttempt
  repeat' first
    | with_reducible assumption | with_reducible apply follows_announceWindow | with_reducible apply follows_modSpan
    | with_reducible apply follows_openWorking | with_reducible apply follows_toMembers | with_reducible apply follows_ite | split
    | (intro t x ht; try dsimp only) | (intro t ht; try dsimp only) | (intro v; try beta_reduce) | dsimp only

theorem follows_openAway {a s : State} (h : Follows a s) (k : Nat) (attempt : Nat) :
    Follows a (State.openAway s k attempt) := by
  unfold State.openAway
  repeat' first
    | with_reducible assumption | with_reducible apply follows_modSpan | with_reducible apply follows_openWorking | with_reducible apply follows_ite
    | split | (intro t x ht; try dsimp only) | (intro t ht; try dsimp only) | (intro v; try beta_reduce) | dsimp only

theorem follows_installEpoch {a s : State} (h : Follows a s) (k : Nat) (e : Nat) :
    Follows a (State.installEpoch s k e) := by
  unfold State.installEpoch
  repeat' first
    | with_reducible assumption | with_reducible apply follows_aheadClear | with_reducible apply follows_changed
    | with_reducible apply follows_modSpan | with_reducible apply follows_moversEpoch | with_reducible apply follows_prologueStart
    | with_reducible apply follows_setReg | with_reducible apply follows_foldl | with_reducible apply follows_ite | split
    | (intro t x ht; try dsimp only) | (intro t ht; try dsimp only) | (intro v; try beta_reduce) | dsimp only

theorem follows_tellPeers {a s : State} (h : Follows a s) (k : Nat) (data : List Nat) :
    Follows a (State.tellPeers s k data) := by
  unfold State.tellPeers
  repeat' first
    | with_reducible assumption | with_reducible apply follows_send | with_reducible apply follows_foldl | with_reducible apply follows_ite | split
    | (intro t x ht; try dsimp only) | (intro t ht; try dsimp only) | (intro v; try beta_reduce) | dsimp only

theorem follows_newEpoch {a s : State} (h : Follows a s) (k : Nat) (extra : Nat) :
    Follows a (State.newEpoch s k extra) := by
  unfold State.newEpoch
  repeat' first
    | with_reducible assumption | with_reducible apply follows_installEpoch | with_reducible apply follows_noticesAgain
    | with_reducible apply follows_tellPeers | with_reducible apply follows_ite | split | (intro t x ht; try dsimp only)
    | (intro t ht; try dsimp only) | (intro v; try beta_reduce) | dsimp only

theorem follows_frameOut {a s : State} (h : Follows a s) (e : Nat) (addr : Nat) (udp : Nat) (l : List Byte) :
    Follows a (State.frameOut s e addr udp l) := by
  unfold State.frameOut
  repeat' first
    | with_reducible assumption | with_reducible apply follows_bump | with_reducible apply follows_emit | with_reducible apply follows_ite | split
    | (intro t x ht; try dsimp only) | (intro t ht; try dsimp only) | (intro v; try beta_reduce) | dsimp only

theorem follows_frameDrop {a s : State} (h : Follows a s) (e : Nat) :
    Follows a (State.frameDrop s e) := by
  unfold State.frameDrop
  repeat' first
    | with_reducible assumption | with_reducible apply follows_bump | with_reducible apply follows_ite | split | (intro t x ht; try dsimp only)
    | (intro t ht; try dsimp only) | (intro v; try beta_reduce) | dsimp only

theorem follows_reject {a s : State} (h : Follows a s) (k : Nat) (d : Datagram) (reason : Nat) :
    Follows a (State.reject s k d reason) := by
  unfold State.reject
  repeat' first
    | with_reducible assumption | with_reducible apply follows_bump | with_reducible apply follows_frameOut | with_reducible apply follows_ite | split
    | (intro t x ht; try dsimp only) | (intro t ht; try dsimp only) | (intro v; try beta_reduce) | dsimp only

theorem follows_queueWrite {a s : State} (h : Follows a s) (k : Nat) (l : List Byte) (n : Nat) :
    Follows a (State.queueWrite s k l n) := by
  unfold State.queueWrite
  repeat' first
    | with_reducible assumption | with_reducible apply follows_poke | with_reducible apply follows_foldl | with_reducible apply follows_ite | split
    | (intro t x ht; try dsimp only) | (intro t ht; try dsimp only) | (intro v; try beta_reduce) | dsimp only

theorem follows_requestTaken {a s : State} (h : Follows a s) (k : Nat) (d : Datagram) (n : Nat) :
    Follows a (State.requestTaken s k d n) := by
  unfold State.requestTaken
  repeat' first
    | with_reducible assumption | with_reducible apply follows_bump | with_reducible apply follows_modSpan | with_reducible apply follows_queueWrite
    | with_reducible apply follows_ite | split | (intro t x ht; try dsimp only) | (intro t ht; try dsimp only) | (intro v; try beta_reduce)
    | dsimp only

theorem follows_requestIn {a s : State} (h : Follows a s) (d : Datagram) :
    Follows a (State.requestIn s d) := by
  unfold State.requestIn
  repeat' first
    | with_reducible assumption | with_reducible apply follows_bump | with_reducible apply follows_event | with_reducible apply follows_frameDrop
    | with_reducible apply follows_modSpan | with_reducible apply follows_reject | with_reducible apply follows_requestTaken
    | with_reducible apply follows_ite | split | (intro t x ht; try dsimp only) | (intro t ht; try dsimp only) | (intro v; try beta_reduce)
    | dsimp only

theorem follows_replies {a s : State} (h : Follows a s) (k : Nat) (b : Binding) (es : List (List Byte)) (n : Nat) :
    Follows a (s.replies k b es n) := by
  induction n generalizing s es with
  | zero => exact h
  | succ m ih =>
    unfold State.replies
    dsimp only
    split
    · exact h
    · exact ih (follows_frameOut h _ _ _ _) _

theorem follows_audioEntry {a s : State} (h : Follows a s) (k : Nat) (l : List Byte) :
    Follows a (State.audioEntry s k l) := by
  unfold State.audioEntry
  repeat' first
    | with_reducible assumption | with_reducible apply follows_bump | with_reducible apply follows_modPorts | with_reducible apply follows_ite | split
    | (intro t x ht; try dsimp only) | (intro t ht; try dsimp only) | (intro v; try beta_reduce) | dsimp only

theorem follows_outAct {a s : State} (h : Follows a s) (k : Nat) (held : List (Binding × List (List Byte))) (l : List Byte) :
    Follows a (State.outAct s k held l).1 := by
  unfold State.outAct
  repeat' first
    | with_reducible assumption | with_reducible apply follows_audioEntry | with_reducible apply follows_bump | with_reducible apply follows_modSpan
    | with_reducible apply follows_ite | split | (intro t x ht; try dsimp only) | (intro t ht; try dsimp only) | (intro v; try beta_reduce)
    | dsimp only

theorem follows_engineAdvance {a s : State} (h : Follows a s) (k : Nat) : Follows a (s.engineAdvance k) := by
  have outs : ∀ (l : List Nat) (x : State × List (Binding × List (List Byte))), Follows a x.1 →
      Follows a (l.foldl (fun x i => (x.1.noteRead ((s.span k).outQueue + 512 + 64 * (((s.span k).sent + i) % 65536)) 64).outAct k x.2
        (s.outEntry k ((s.span k).sent + i))) x).1 := fun l => by
    induction l with
    | nil => exact fun x hx => hx
    | cons i r ih => exact fun x hx => ih _ (follows_outAct (follows_noteRead hx _ _) _ _ _)
  unfold State.engineAdvance
  dsimp only
  split
  · exact h
  · refine follows_poke (follows_modSpan (follows_foldl (outs _ _ h) _ _ fun t x ht => follows_replies ht _ _ _ _) _ _) _ _

theorem follows_groupLost {a s : State} (h : Follows a s) (g : Nat) :
    Follows a (State.groupLost s g) := by
  unfold State.groupLost
  repeat' first
    | with_reducible assumption | with_reducible apply follows_modPorts | with_reducible apply follows_modSpan | with_reducible apply follows_setReg
    | with_reducible apply follows_supEvent | with_reducible apply follows_event | with_reducible apply follows_foldl
    | with_reducible apply follows_ite | split | (intro t ht; exact ht) | (intro t x ht; try dsimp only) | (intro t ht; try dsimp only)
    | (intro v; try beta_reduce) | dsimp only

theorem follows_pierStaging {a s : State} (h : Follows a s) (f : Nat) :
    Follows a (State.pierStaging s f) := by
  unfold State.pierStaging
  repeat' first
    | with_reducible assumption | with_reducible apply follows_modPower | with_reducible apply follows_setPierPower | with_reducible apply follows_ite
    | split | (intro t x ht; try dsimp only) | (intro t ht; try dsimp only) | (intro v; try beta_reduce)
    | exact follows_fst (by with_reducible assumption) (by first | with_reducible assumption | skip) | dsimp only

theorem follows_pierWake {a s : State} (h : Follows a s) (f : Nat) :
    Follows a (State.pierWake s f) := by
  unfold State.pierWake
  repeat' first
    | with_reducible assumption | with_reducible apply follows_bump | with_reducible apply follows_modPower | with_reducible apply follows_pierStaging
    | with_reducible apply follows_setPierPower | with_reducible apply follows_ite | split | (intro t x ht; try dsimp only)
    | (intro t ht; try dsimp only) | (intro v; try beta_reduce) | dsimp only

theorem follows_pierDown {a s : State} (h : Follows a s) (f : Nat) (x : PierPower) :
    Follows a (State.pierDown s f x) := by
  unfold State.pierDown
  repeat' first
    | with_reducible assumption | with_reducible apply follows_modPower | with_reducible apply follows_setPierPower | with_reducible apply follows_ite
    | split | (intro t x ht; try dsimp only) | (intro t ht; try dsimp only) | (intro v; try beta_reduce)
    | exact follows_fst (by with_reducible assumption) (by first | with_reducible assumption | skip) | dsimp only

theorem follows_offCheck {a s : State} (h : Follows a s) (f : Nat) :
    Follows a (State.offCheck s f) := by
  unfold State.offCheck
  repeat' first
    | with_reducible assumption | with_reducible apply follows_pierDown | with_reducible apply follows_ite | split | (intro t x ht; try dsimp only)
    | (intro t ht; try dsimp only) | (intro v; try beta_reduce) | dsimp only

theorem follows_pierOff {a s : State} (h : Follows a s) (f : Nat) :
    Follows a (State.pierOff s f) := by
  unfold State.pierOff
  repeat' first
    | with_reducible assumption | with_reducible apply follows_bankApply | with_reducible apply follows_offCheck | with_reducible apply follows_foldl
    | with_reducible apply follows_ite | split | (intro t x ht; try dsimp only) | (intro t ht; try dsimp only) | (intro v; try beta_reduce)
    | dsimp only

theorem follows_pierHeatOff {a s : State} (h : Follows a s) (f : Nat) :
    Follows a (State.pierHeatOff s f) := by
  unfold State.pierHeatOff
  repeat' first
    | with_reducible assumption | with_reducible apply follows_banksHeat | with_reducible apply follows_event | with_reducible apply follows_pierDown
    | with_reducible apply follows_ite | split | (intro t x ht; try dsimp only) | (intro t ht; try dsimp only) | (intro v; try beta_reduce)
    | dsimp only

theorem follows_fieldServes {a s : State} (h : Follows a s) (f : Nat) (serving : Bool) :
    Follows a (State.fieldServes s f serving) := by
  unfold State.fieldServes
  repeat' first
    | with_reducible assumption | with_reducible apply follows_modField | with_reducible apply follows_setFieldState
    | with_reducible apply follows_ite | split | (intro t x ht; try dsimp only) | (intro t ht; try dsimp only) | (intro v; try beta_reduce)
    | dsimp only

theorem follows_mapWrite {a s : State} (h : Follows a s)  :
    Follows a (State.mapWrite s) := by
  unfold State.mapWrite
  repeat' first
    | with_reducible assumption | with_reducible apply follows_modBoot | with_reducible apply follows_ite | split | (intro t x ht; try dsimp only)
    | (intro t ht; try dsimp only) | (intro v; try beta_reduce) | dsimp only

theorem follows_addRetired {a s : State} (h : Follows a s) (u : Nat) (spare : Nat) :
    Follows a (State.addRetired s u spare) := by
  unfold State.addRetired
  repeat' first
    | with_reducible assumption | with_reducible apply follows_mapWrite | with_reducible apply follows_modFaults | with_reducible apply follows_ite
    | split | (intro t x ht; try dsimp only) | (intro t ht; try dsimp only) | (intro v; try beta_reduce) | dsimp only

theorem follows_setPlacementByte {a s : State} (h : Follows a s) (k : Nat) (off : Nat) (v : Nat) :
    Follows a (State.setPlacementByte s k off v) := by
  unfold State.setPlacementByte
  repeat' first
    | with_reducible assumption | with_reducible apply follows_setReg | with_reducible apply follows_ite | split | (intro t x ht; try dsimp only)
    | (intro t ht; try dsimp only) | (intro v; try beta_reduce) | dsimp only

theorem follows_recoverFrom {a s : State} (h : Follows a s) (k : Nat) (from' : Nat) :
    Follows a (State.recoverFrom s k from') := by
  unfold State.recoverFrom
  repeat' first
    | with_reducible assumption | with_reducible apply follows_dropSegment | with_reducible apply follows_modSpan
    | with_reducible apply follows_setSpanState | with_reducible apply follows_supEvent | with_reducible apply follows_event
    | with_reducible apply follows_foldl | with_reducible apply follows_ite | split | (intro t x ht; try dsimp only) | (intro t ht; try dsimp only)
    | (intro v; try beta_reduce) | dsimp only

theorem follows_recover {a s : State} (h : Follows a s) (k : Nat) :
    Follows a (State.recover s k) := by
  unfold State.recover
  repeat' first
    | with_reducible assumption | with_reducible apply follows_recoverFrom | with_reducible apply follows_ite | split | (intro t x ht; try dsimp only)
    | (intro t ht; try dsimp only) | (intro v; try beta_reduce) | dsimp only

theorem follows_enterPaused {a s : State} (h : Follows a s) (k : Nat) :
    Follows a (State.enterPaused s k) := by
  unfold State.enterPaused
  repeat' first
    | with_reducible assumption | with_reducible apply follows_membersRest | with_reducible apply follows_modSpan
    | with_reducible apply follows_pierHeatOff | with_reducible apply follows_recover | with_reducible apply follows_setSpanState
    | with_reducible apply follows_foldl | with_reducible apply follows_ite | split | (intro t x ht; try dsimp only) | (intro t ht; try dsimp only)
    | (intro v; try beta_reduce) | dsimp only

theorem follows_pauseNow {a s : State} (h : Follows a s) (k : Nat) (r : PauseReason) :
    Follows a (State.pauseNow s k r) := by
  unfold State.pauseNow
  repeat' first
    | with_reducible assumption | with_reducible apply follows_abortSpan | with_reducible apply follows_enterPaused
    | with_reducible apply follows_markPause | with_reducible apply follows_ite | split | (intro t x ht; try dsimp only)
    | (intro t ht; try dsimp only) | (intro v; try beta_reduce) | dsimp only

theorem follows_fieldTesting {a s : State} (h : Follows a s) (f : Nat) :
    Follows a (State.fieldTesting s f) := by
  unfold State.fieldTesting
  repeat' first
    | with_reducible assumption | with_reducible apply follows_modField | with_reducible apply follows_setFieldState
    | with_reducible apply follows_ite | split | (intro t x ht; try dsimp only) | (intro t ht; try dsimp only) | (intro v; try beta_reduce)
    | dsimp only

theorem follows_fieldTested {a s : State} (h : Follows a s) (f : Nat) :
    Follows a (State.fieldTested s f) := by
  unfold State.fieldTested
  repeat' first
    | with_reducible assumption | with_reducible apply follows_setFieldState | with_reducible apply follows_ite | split
    | (intro t x ht; try dsimp only) | (intro t ht; try dsimp only) | (intro v; try beta_reduce) | dsimp only

theorem follows_testSuspects {a s : State} (h : Follows a s) (k : Nat) (us : List Nat) :
    Follows a (State.testSuspects s k us) := by
  unfold State.testSuspects
  repeat' first
    | with_reducible assumption | with_reducible apply follows_fieldTesting | with_reducible apply follows_modSpan
    | with_reducible apply follows_foldl | with_reducible apply follows_ite | split | (intro t x ht; try dsimp only) | (intro t ht; try dsimp only)
    | (intro v; try beta_reduce) | dsimp only

theorem follows_attemptEnded {a s : State} (h : Follows a s) (k : Nat) :
    Follows a (State.attemptEnded s k) := by
  unfold State.attemptEnded
  repeat' first
    | with_reducible assumption | with_reducible apply follows_applyR30 | with_reducible apply follows_enterPaused
    | with_reducible apply follows_modSpan | with_reducible apply follows_needEpoch | with_reducible apply follows_nextAttempt
    | with_reducible apply follows_setSpanState | with_reducible apply follows_supEvent | with_reducible apply follows_testSuspects
    | with_reducible apply follows_event | with_reducible apply follows_ite | split | (intro t x ht; try dsimp only) | (intro t ht; try dsimp only)
    | (intro v; try beta_reduce) | dsimp only

theorem follows_abortQuorum {a s : State} (h : Follows a s) (k : Nat) :
    Follows a (State.abortQuorum s k) := by
  unfold State.abortQuorum
  repeat' first
    | with_reducible assumption | with_reducible apply follows_attemptEnded | with_reducible apply follows_ite | split
    | (intro t x ht; try dsimp only) | (intro t ht; try dsimp only) | (intro v; try beta_reduce) | dsimp only

theorem follows_loadFailed {a s : State} (h : Follows a s) (k : Nat) :
    Follows a (State.loadFailed s k) := by
  unfold State.loadFailed
  repeat' first
    | with_reducible assumption | with_reducible apply follows_nextFree | with_reducible apply follows_setSpanState
    | with_reducible apply follows_supEvent | with_reducible apply follows_event | with_reducible apply follows_ite | split
    | (intro t x ht; try dsimp only) | (intro t ht; try dsimp only) | (intro v; try beta_reduce) | dsimp only

theorem follows_loseMember {a s : State} (h : Follows a s) (k : Nat) (d : Nat) (f : Nat) :
    Follows a (State.loseMember s k d f) := by
  unfold State.loseMember
  repeat' first
    | with_reducible assumption | with_reducible apply follows_abortQuorum | with_reducible apply follows_abortSpan
    | with_reducible apply follows_applyR30 | with_reducible apply follows_enterPaused | with_reducible apply follows_ignored
    | with_reducible apply follows_landOpen | with_reducible apply follows_loadFailed | with_reducible apply follows_markPause
    | with_reducible apply follows_modSpan | with_reducible apply follows_recover | with_reducible apply follows_ite | split
    | (intro t x ht; try dsimp only) | (intro t ht; try dsimp only) | (intro v; try beta_reduce) | dsimp only

theorem follows_losePier {a s : State} (h : Follows a s) (f : Nat) :
    Follows a (State.losePier s f) := by
  unfold State.losePier
  repeat' first
    | with_reducible assumption | with_reducible apply follows_changed | with_reducible apply follows_fieldServes
    | with_reducible apply follows_loseMember | with_reducible apply follows_modSpan | with_reducible apply follows_recover
    | with_reducible apply follows_setPlacementByte | with_reducible apply follows_ite | split | (intro t x ht; try dsimp only)
    | (intro t ht; try dsimp only) | (intro v; try beta_reduce) | dsimp only

theorem follows_retirePier {a s : State} (h : Follows a s) (f : Nat) :
    Follows a (State.retirePier s f) := by
  unfold State.retirePier
  repeat' first
    | with_reducible assumption | with_reducible apply follows_addRetired | with_reducible apply follows_arrayOff
    | with_reducible apply follows_banksOff | with_reducible apply follows_capacityChanged | with_reducible apply follows_losePier
    | with_reducible apply follows_pierDown | with_reducible apply follows_seqEmpty | with_reducible apply follows_setPierStatus
    | with_reducible apply follows_supEvent | with_reducible apply follows_event | with_reducible apply follows_ite | split
    | (intro t x ht; try dsimp only) | (intro t ht; try dsimp only) | (intro v; try beta_reduce) | dsimp only

theorem follows_retireGirder {a s : State} (h : Follows a s) (u : Nat) :
    Follows a (State.retireGirder s u) := by
  unfold State.retireGirder
  repeat' first
    | with_reducible assumption | with_reducible apply follows_addRetired | with_reducible apply follows_retirePier
    | with_reducible apply follows_setReg | with_reducible apply follows_supEvent | with_reducible apply follows_event
    | with_reducible apply follows_ite | split | (intro t x ht; try dsimp only) | (intro t ht; try dsimp only) | (intro v; try beta_reduce)
    | dsimp only

theorem follows_retireRow {a s : State} (h : Follows a s) (u : Nat) :
    Follows a (State.retireRow s u) := by
  unfold State.retireRow
  repeat' first
    | with_reducible assumption | with_reducible apply follows_addRetired | with_reducible apply follows_retirePier
    | with_reducible apply follows_setReg | with_reducible apply follows_supEvent | with_reducible apply follows_event
    | with_reducible apply follows_ite | split | (intro t x ht; try dsimp only) | (intro t ht; try dsimp only) | (intro v; try beta_reduce)
    | dsimp only

theorem follows_retireChannel {a s : State} (h : Follows a s) (c : Nat) :
    Follows a (State.retireChannel s c) := by
  unfold State.retireChannel
  repeat' first
    | with_reducible assumption | with_reducible apply follows_addRetired | with_reducible apply follows_capacityChanged
    | with_reducible apply follows_needEpoch | with_reducible apply follows_setChannelRetired | with_reducible apply follows_setChannelState
    | with_reducible apply follows_setTested | with_reducible apply follows_supEvent | with_reducible apply follows_event
    | with_reducible apply follows_foldl | with_reducible apply follows_ite | split | (intro t x ht; try dsimp only) | (intro t ht; try dsimp only)
    | (intro v; try beta_reduce) | dsimp only

theorem follows_retireTower {a s : State} (h : Follows a s) (t : Nat) :
    Follows a (State.retireTower s t) := by
  unfold State.retireTower
  repeat' first
    | with_reducible assumption | with_reducible apply follows_addRetired | with_reducible apply follows_retireChannel
    | with_reducible apply follows_supEvent | with_reducible apply follows_event | with_reducible apply follows_foldl
    | with_reducible apply follows_ite | split | (intro t x ht; try dsimp only) | (intro t ht; try dsimp only) | (intro v; try beta_reduce)
    | dsimp only

theorem follows_losePeers {a s : State} (h : Follows a s) (k : Nat) :
    Follows a (State.losePeers s k) := by
  unfold State.losePeers
  repeat' first
    | with_reducible assumption | with_reducible apply follows_loseMember | with_reducible apply follows_foldl | with_reducible apply follows_ite
    | split | (intro t x ht; try dsimp only) | (intro t ht; try dsimp only) | (intro v; try beta_reduce) | dsimp only

end Sys2Proof.Machine
end

