-- ==== Sys2Proof/Laws/FollowsOps2.lean ====
section
/-! SUPPORT. `Follows` of the shared operations, part 2 of 3. -/

set_option linter.all false

namespace Sys2Proof.Machine

theorem follows_portDown {a s : State} (h : Follows a s) (p : Nat) :
    Follows a (State.portDown s p) := by
  unfold State.portDown
  repeat' first
    | with_reducible assumption | with_reducible apply follows_modSpan | with_reducible apply follows_pauseNow | with_reducible apply follows_foldl
    | with_reducible apply follows_ite | split | (intro t x ht; try dsimp only) | (intro t ht; try dsimp only) | (intro v; try beta_reduce)
    | dsimp only

theorem follows_portGone {a s : State} (h : Follows a s) (p : Nat) :
    Follows a (State.portGone s p) := by
  unfold State.portGone
  repeat' first
    | with_reducible assumption | with_reducible apply follows_losePeers | with_reducible apply follows_foldl | with_reducible apply follows_ite
    | split | (intro t x ht; try dsimp only) | (intro t ht; try dsimp only) | (intro v; try beta_reduce) | dsimp only

theorem follows_retirePort {a s : State} (h : Follows a s) (p : Nat) (told : Bool) :
    Follows a (State.retirePort s p told) := by
  unfold State.retirePort
  repeat' first
    | with_reducible assumption | with_reducible apply follows_addRetired | with_reducible apply follows_emit | with_reducible apply follows_needEpoch
    | with_reducible apply follows_portDown | with_reducible apply follows_portGone | with_reducible apply follows_setPortState
    | with_reducible apply follows_supEvent | with_reducible apply follows_event | with_reducible apply follows_foldl
    | with_reducible apply follows_ite | split | (intro t x ht; try dsimp only) | (intro t ht; try dsimp only) | (intro v; try beta_reduce)
    | dsimp only

theorem follows_retireLane {a s : State} (h : Follows a s) (f : Nat) (lane : Nat) :
    Follows a (State.retireLane s f lane) := by
  unfold State.retireLane
  repeat' first
    | with_reducible assumption | with_reducible apply follows_addRetired | with_reducible apply follows_bump
    | with_reducible apply follows_capacityChanged | with_reducible apply follows_emit | with_reducible apply follows_event
    | with_reducible apply follows_modEth | with_reducible apply follows_modLink | with_reducible apply follows_portDown
    | with_reducible apply follows_retirePort | with_reducible apply follows_setPortState | with_reducible apply follows_supEvent
    | with_reducible apply follows_ite | split | (intro t x ht; try dsimp only) | (intro t ht; try dsimp only) | (intro v; try beta_reduce)
    | dsimp only

theorem follows_retireLinksOf {a s : State} (h : Follows a s) (f : Nat) :
    Follows a (State.retireLinksOf s f) := by
  unfold State.retireLinksOf
  repeat' first
    | with_reducible assumption | with_reducible apply follows_retireLink | with_reducible apply follows_foldl | with_reducible apply follows_ite
    | split | (intro t x ht; try dsimp only) | (intro t ht; try dsimp only) | (intro v; try beta_reduce) | dsimp only

theorem follows_stripLost {a s : State} (h : Follows a s) (f : Nat) :
    Follows a (State.stripLost s f) := by
  unfold State.stripLost
  repeat' first
    | with_reducible assumption | with_reducible apply follows_capacityChanged | with_reducible apply follows_modCtl
    | with_reducible apply follows_setReg | with_reducible apply follows_ite | split | (intro t x ht; try dsimp only) | (intro t ht; try dsimp only)
    | (intro v; try beta_reduce) | dsimp only

theorem follows_fieldDark {a s : State} (h : Follows a s) (f : Nat) :
    Follows a (State.fieldDark s f) := by
  unfold State.fieldDark
  repeat' first
    | with_reducible assumption | with_reducible apply follows_arrayOff | with_reducible apply follows_banksOff
    | with_reducible apply follows_dropSegment | with_reducible apply follows_modClock | with_reducible apply follows_modField
    | with_reducible apply follows_moversDark | with_reducible apply follows_pierDown | with_reducible apply follows_retireChannel
    | with_reducible apply follows_retireLinksOf | with_reducible apply follows_seqEmpty | with_reducible apply follows_setFieldState
    | with_reducible apply follows_stripLost | with_reducible apply follows_foldl | with_reducible apply follows_ite | split
    | (intro t x ht; try dsimp only) | (intro t ht; try dsimp only) | (intro v; try beta_reduce) | dsimp only

theorem follows_fieldDarkHeat {a s : State} (h : Follows a s) (f : Nat) :
    Follows a (State.fieldDarkHeat s f) := by
  unfold State.fieldDarkHeat
  repeat' first
    | with_reducible assumption | with_reducible apply follows_abortQuorum | with_reducible apply follows_abortSpan
    | with_reducible apply follows_applyR30 | with_reducible apply follows_enterPaused | with_reducible apply follows_fieldDark
    | with_reducible apply follows_landOpen | with_reducible apply follows_loadFailed | with_reducible apply follows_markPause
    | with_reducible apply follows_pauseNow | with_reducible apply follows_ite | split | (intro t x ht; try dsimp only) | (intro t ht; try dsimp only)
    | (intro v; try beta_reduce) | dsimp only

theorem follows_retireField {a s : State} (h : Follows a s) (f : Nat) :
    Follows a (State.retireField s f) := by
  unfold State.retireField
  repeat' first
    | with_reducible assumption | with_reducible apply follows_addRetired | with_reducible apply follows_capacityChanged
    | with_reducible apply follows_event | with_reducible apply follows_fieldDark | with_reducible apply follows_groupLost
    | with_reducible apply follows_modEth | with_reducible apply follows_rerouted | with_reducible apply follows_retirePier
    | with_reducible apply follows_retirePort | with_reducible apply follows_setFieldState | with_reducible apply follows_supEvent
    | with_reducible apply follows_foldl | with_reducible apply follows_ite | split | (intro t x ht; try dsimp only) | (intro t ht; try dsimp only)
    | (intro v; try beta_reduce) | dsimp only

theorem follows_retireCore {a s : State} (h : Follows a s) (f : Nat) (c : Nat) :
    Follows a (State.retireCore s f c) := by
  unfold State.retireCore
  repeat' first
    | with_reducible assumption | with_reducible apply follows_addRetired | with_reducible apply follows_modField
    | with_reducible apply follows_retireField | with_reducible apply follows_setReg | with_reducible apply follows_supEvent
    | with_reducible apply follows_event | with_reducible apply follows_ite | split | (intro t x ht; try dsimp only) | (intro t ht; try dsimp only)
    | (intro v; try beta_reduce) | dsimp only

theorem follows_banksLimit {a s : State} (h : Follows a s) (f : Nat) (named : List Nat) :
    Follows a (State.banksLimit s f named) := by
  unfold State.banksLimit
  repeat' first
    | with_reducible assumption | with_reducible apply follows_banksApply | with_reducible apply follows_setReg | with_reducible apply follows_ite
    | split | (intro t x ht; try dsimp only) | (intro t ht; try dsimp only) | (intro v; try beta_reduce) | dsimp only

theorem follows_cellsApply {a s : State} (h : Follows a s) (f : Nat) (c : Nat) :
    Follows a (State.cellsApply s f c) := by
  unfold State.cellsApply
  repeat' first
    | with_reducible assumption | with_reducible apply follows_banksLimit | with_reducible apply follows_capacityChanged
    | with_reducible apply follows_event | with_reducible apply follows_fieldDarkHeat | with_reducible apply follows_modPower
    | with_reducible apply follows_powerUpdate | with_reducible apply follows_retireField | with_reducible apply follows_retirePier
    | with_reducible apply follows_setPierStatus | with_reducible apply follows_ite | split | (intro t x ht; try dsimp only)
    | (intro t ht; try dsimp only) | (intro v; try beta_reduce) | dsimp only

theorem follows_retireCell {a s : State} (h : Follows a s) (f : Nat) (c : Nat) :
    Follows a (State.retireCell s f c) := by
  unfold State.retireCell
  repeat' first
    | with_reducible assumption | with_reducible apply follows_addRetired | with_reducible apply follows_capacityChanged
    | with_reducible apply follows_cellsApply | with_reducible apply follows_modField | with_reducible apply follows_setReg
    | with_reducible apply follows_supEvent | with_reducible apply follows_event | with_reducible apply follows_ite | split
    | (intro t x ht; try dsimp only) | (intro t ht; try dsimp only) | (intro v; try beta_reduce) | dsimp only

theorem follows_locate {a s : State} (h : Follows a s) (u : Nat) :
    Follows a (State.locate s u) := by
  unfold State.locate
  repeat' first
    | with_reducible assumption | with_reducible apply follows_modFaults | with_reducible apply follows_ite | split | (intro t x ht; try dsimp only)
    | (intro t ht; try dsimp only) | (intro v; try beta_reduce) | dsimp only

theorem follows_retireUnit {a s : State} (h : Follows a s) (u : Nat) :
    Follows a (State.retireUnit s u) := by
  unfold State.retireUnit
  repeat' first
    | with_reducible assumption | with_reducible apply follows_addRetired | with_reducible apply follows_fieldTesting
    | with_reducible apply follows_locate | with_reducible apply follows_retireCell | with_reducible apply follows_retireChannel
    | with_reducible apply follows_retireCore | with_reducible apply follows_retireField | with_reducible apply follows_retireGirder
    | with_reducible apply follows_retireLane | with_reducible apply follows_retireLink | with_reducible apply follows_retirePier
    | with_reducible apply follows_retirePort | with_reducible apply follows_retireRow | with_reducible apply follows_retireTower
    | with_reducible apply follows_ite | split | (intro t x ht; try dsimp only) | (intro t ht; try dsimp only) | (intro v; try beta_reduce)
    | dsimp only

theorem follows_retireDue {a s : State} (h : Follows a s) (u : Nat) :
    Follows a (State.retireDue s u) := by
  unfold State.retireDue
  repeat' first
    | with_reducible assumption | with_reducible apply follows_markPause | with_reducible apply follows_modFaults
    | with_reducible apply follows_modSpan | with_reducible apply follows_needEpoch | with_reducible apply follows_pauseFor
    | with_reducible apply follows_retireUnit | with_reducible apply follows_foldl | with_reducible apply follows_ite | split
    | (intro t x ht; try dsimp only) | (intro t ht; try dsimp only) | (intro v; try beta_reduce) | dsimp only

theorem follows_retireWaiting {a s : State} (h : Follows a s)  :
    Follows a (State.retireWaiting s) := by
  unfold State.retireWaiting
  repeat' first
    | with_reducible assumption | with_reducible apply follows_modFaults | with_reducible apply follows_modSpan
    | with_reducible apply follows_retireDue | with_reducible apply follows_foldl | with_reducible apply follows_ite | split
    | (intro t x ht; try dsimp only) | (intro t ht; try dsimp only) | (intro v; try beta_reduce) | dsimp only

theorem follows_declare {a s : State} (h : Follows a s) (u : Nat) (cause : Nat) (atOnce : Bool) :
    Follows a (State.declare s u cause atOnce) := by
  unfold State.declare
  repeat' first
    | with_reducible assumption | with_reducible apply follows_bump | with_reducible apply follows_modFaults | with_reducible apply follows_retireDue
    | with_reducible apply follows_retireUnit | with_reducible apply follows_supEvent | with_reducible apply follows_event
    | with_reducible apply follows_ite | split | (intro t x ht; try dsimp only) | (intro t ht; try dsimp only) | (intro v; try beta_reduce)
    | dsimp only

theorem follows_suspect {a s : State} (h : Follows a s) (k : Nat) (u : Nat) :
    Follows a (State.suspect s k u) := by
  unfold State.suspect
  repeat' first
    | with_reducible assumption | with_reducible apply follows_modSpan | with_reducible apply follows_ite | split | (intro t x ht; try dsimp only)
    | (intro t ht; try dsimp only) | (intro v; try beta_reduce) | dsimp only

theorem follows_chargeTo {a s : State} (h : Follows a s) (u : Nat) (k : Nat) (code : Nat) :
    Follows a (State.chargeTo s u k code) := by
  unfold State.chargeTo
  repeat' first
    | with_reducible assumption | with_reducible apply follows_bump | with_reducible apply follows_declare | with_reducible apply follows_modFaults
    | with_reducible apply follows_modSpan | with_reducible apply follows_suspect | with_reducible apply follows_ite | split
    | (intro t x ht; try dsimp only) | (intro t ht; try dsimp only) | (intro v; try beta_reduce) | dsimp only

theorem follows_charge {a s : State} (h : Follows a s) (u : Nat) (code : Nat) :
    Follows a (State.charge s u code) := by
  unfold State.charge
  repeat' first
    | with_reducible assumption | with_reducible apply follows_bump | with_reducible apply follows_declare | with_reducible apply follows_modFaults
    | with_reducible apply follows_suspect | with_reducible apply follows_ite | split | (intro t x ht; try dsimp only) | (intro t ht; try dsimp only)
    | (intro v; try beta_reduce) | dsimp only

theorem follows_chargePier {a s : State} (h : Follows a s) (f : Nat) (u : Nat) (code : Nat) :
    Follows a (State.chargePier s f u code) := by
  unfold State.chargePier
  repeat' first
    | with_reducible assumption | with_reducible apply follows_chargeTo | with_reducible apply follows_ite | split | (intro t x ht; try dsimp only)
    | (intro t ht; try dsimp only) | (intro v; try beta_reduce) | dsimp only

theorem follows_chargeOpen {a s : State} (h : Follows a s) (u : Nat) :
    Follows a (State.chargeOpen s u) := by
  unfold State.chargeOpen
  repeat' first
    | with_reducible assumption | with_reducible apply follows_charge | with_reducible apply follows_nextFree | with_reducible apply follows_ite
    | split | (intro t x ht; try dsimp only) | (intro t ht; try dsimp only) | (intro v; try beta_reduce) | dsimp only

theorem follows_probe {a s : State} (h : Follows a s) (f : Nat) :
    Follows a (State.probe s f) := by
  unfold State.probe
  repeat' first
    | with_reducible assumption | with_reducible apply follows_modFaults | with_reducible apply follows_request | with_reducible apply follows_send
    | with_reducible apply follows_write | with_reducible apply follows_ite | split | (intro t x ht; try dsimp only) | (intro t ht; try dsimp only)
    | (intro v; try beta_reduce) | dsimp only

theorem follows_probeAnswered {a s : State} (h : Follows a s) (o : Outstanding) :
    Follows a (State.probeAnswered s o) := by
  unfold State.probeAnswered
  repeat' first
    | with_reducible assumption | with_reducible apply follows_chargeOpen | with_reducible apply follows_modFaults | with_reducible apply follows_ite
    | split | (intro t x ht; try dsimp only) | (intro t ht; try dsimp only) | (intro v; try beta_reduce) | dsimp only

theorem follows_mirrorServes {a s : State} (h : Follows a s) (k : Nat) (c : Nat) (m : Nat) (g : Nat) :
    Follows a (State.mirrorServes s k c m g) := by
  unfold State.mirrorServes
  repeat' first
    | with_reducible assumption | with_reducible apply follows_bump | with_reducible apply follows_unitEvent | with_reducible apply follows_ite
    | split | (intro t x ht; try dsimp only) | (intro t ht; try dsimp only) | (intro v; try beta_reduce) | dsimp only

theorem follows_granuleLostAt {a s : State} (h : Follows a s) (c : Nat) (g : Nat) (mirror : Option (Nat × Nat × Nat)) :
    Follows a (State.granuleLostAt s c g mirror) := by
  unfold State.granuleLostAt
  repeat' first
    | with_reducible assumption | with_reducible apply follows_bump | with_reducible apply follows_charge | with_reducible apply follows_chargeTo
    | with_reducible apply follows_mirrorServes | with_reducible apply follows_modChannel | with_reducible apply follows_unitEvent
    | with_reducible apply follows_write | with_reducible apply follows_ite | split | (intro t x ht; try dsimp only) | (intro t ht; try dsimp only)
    | (intro v; try beta_reduce) | dsimp only

theorem follows_granuleLost {a s : State} (h : Follows a s) (c : Nat) (g : Nat) :
    Follows a (State.granuleLost s c g) := follows_granuleLostAt h _ _ _

theorem follows_granuleServed {a s : State} (h : Follows a s) (x : Nat) : Follows a (State.granuleServed s x) := by
  unfold State.granuleServed
  repeat' first
    | with_reducible assumption | with_reducible apply follows_granuleLostAt | with_reducible apply follows_mirrorServes
    | with_reducible apply follows_ite | split | dsimp only

theorem follows_restartUnmark {a s : State} (h : Follows a s) (f : Nat) :
    Follows a (State.restartUnmark s f) := by
  unfold State.restartUnmark
  repeat' first
    | with_reducible assumption | with_reducible apply follows_modSpan | with_reducible apply follows_foldl | with_reducible apply follows_ite | split
    | (intro t x ht; try dsimp only) | (intro t ht; try dsimp only) | (intro v; try beta_reduce) | dsimp only

theorem follows_restartWaiting {a s : State} (h : Follows a s)  :
    Follows a (State.restartWaiting s) := by
  unfold State.restartWaiting
  repeat' first
    | with_reducible assumption | with_reducible apply follows_dropSegment | with_reducible apply follows_modBoot
    | with_reducible apply follows_modField | with_reducible apply follows_moversDark | with_reducible apply follows_restartUnmark
    | with_reducible apply follows_seqEmpty | with_reducible apply follows_setFieldState | with_reducible apply follows_ite | split
    | (intro t x ht; try dsimp only) | (intro t ht; try dsimp only) | (intro v; try beta_reduce) | dsimp only

theorem follows_recordReads {a s : State} (h : Follows a s) : Follows a s.recordReads :=
  follows_foldl (follows_lateReads h []) _ _ fun _ x ht => follows_granuleServed ht x

theorem follows_settle {a s : State} (h : Follows a s)  :
    Follows a (State.settle s) := by
  unfold State.settle
  repeat' first
    | with_reducible assumption | with_reducible apply follows_recordReads | with_reducible apply follows_restartWaiting
    | with_reducible apply follows_resume | with_reducible apply follows_retireWaiting | with_reducible apply follows_foldl
    | with_reducible apply follows_ite | split | (intro t x ht; try dsimp only) | (intro t ht; try dsimp only) | (intro v; try beta_reduce)
    | dsimp only

theorem follows_readNotes {a s : State} (h : Follows a s) (right : Right) (x n : Nat) : Follows a (State.readNotes s right x n) := by
  unfold State.readNotes
  exact follows_ite (follows_settle (follows_foldl h _ _ fun t y ht => follows_granuleServed ht y)) h

theorem follows_refused {a s : State} (h : Follows a s) (master span : Nat) (right : Right) (x n code : Nat) :
    Follows a (State.refused s master span right x n code) :=
  follows_noteRefusal (follows_ite (follows_readNotes h _ _ _) h) _ _ _ _ _ _

theorem follows_dropDamaged {a s : State} (h : Follows a s) (p : Pkt) (r : Nat) :
    Follows a (State.dropDamaged s p r) := by
  unfold State.dropDamaged
  repeat' first
    | with_reducible assumption | with_reducible apply follows_bump | with_reducible apply follows_charge | with_reducible apply follows_settle
    | with_reducible apply follows_unitEvent | with_reducible apply follows_ite | split | (intro t x ht; try dsimp only)
    | (intro t ht; try dsimp only) | (intro v; try beta_reduce) | dsimp only

theorem follows_carried {a s : State} (h : Follows a s) (ty n : Nat) (p : Pkt) (act : State → State)
    (hact : ∀ t, Follows a t → Follows a (act t)) : Follows a (s.carried ty n p act) := by
  unfold State.carried
  repeat' first
    | with_reducible assumption | with_reducible apply hact | with_reducible apply follows_dropDamaged | with_reducible apply follows_answerFrom
    | with_reducible apply follows_hauled | split

theorem follows_pierFault {a s : State} (h : Follows a s) (f : Nat) (code : Nat) (data : List Byte) :
    Follows a (State.pierFault s f code data) := by
  unfold State.pierFault
  repeat' first
    | with_reducible assumption | with_reducible apply follows_event | with_reducible apply follows_setReg | with_reducible apply follows_ite | split
    | (intro t x ht; try dsimp only) | (intro t ht; try dsimp only) | (intro v; try beta_reduce) | dsimp only

theorem follows_prologueFailure {a s : State} (h : Follows a s) (f : Nat) :
    Follows a (State.prologueFailure s f) := by
  unfold State.prologueFailure
  repeat' first
    | with_reducible assumption | with_reducible apply follows_modSeq | with_reducible apply follows_modSpan | with_reducible apply follows_pauseNow
    | with_reducible apply follows_pierStop | with_reducible apply follows_seqWait | with_reducible apply follows_ite | split
    | (intro t x ht; try dsimp only) | (intro t ht; try dsimp only) | (intro v; try beta_reduce) | dsimp only

theorem follows_failed {a s : State} (h : Follows a s) (f : Nat) (status : Nat) :
    Follows a (State.failed s f status) := by
  unfold State.failed
  repeat' first
    | with_reducible assumption | with_reducible apply follows_prologueFailure | with_reducible apply follows_reportFail
    | with_reducible apply follows_ite | split | (intro t x ht; try dsimp only) | (intro t ht; try dsimp only) | (intro v; try beta_reduce)
    | dsimp only

theorem follows_issueStops {a s : State} (h : Follows a s) (f : Nat) (status : Nat) :
    Follows a (State.issueStops s f status) := by
  unfold State.issueStops
  repeat' first
    | with_reducible assumption | with_reducible apply follows_modArray | with_reducible apply follows_pierStop
    | with_reducible apply follows_prologueFailure | with_reducible apply follows_reportFail | with_reducible apply follows_ite | split
    | (intro t x ht; try dsimp only) | (intro t ht; try dsimp only) | (intro v; try beta_reduce) | dsimp only

theorem follows_twinFault {a s : State} (h : Follows a s) (f : Nat) (indexB : Nat) :
    Follows a (State.twinFault s f indexB) := by
  unfold State.twinFault
  repeat' first
    | with_reducible assumption | with_reducible apply follows_bump | with_reducible apply follows_chargePier
    | with_reducible apply follows_issueStops | with_reducible apply follows_pierFault | with_reducible apply follows_settle
    | with_reducible apply follows_ite | split | (intro t x ht; try dsimp only) | (intro t ht; try dsimp only) | (intro v; try beta_reduce)
    | dsimp only

theorem follows_wordFault {a s : State} (h : Follows a s) (f : Nat) :
    Follows a (State.wordFault s f) := by
  unfold State.wordFault
  repeat' first
    | with_reducible assumption | with_reducible apply follows_chargePier | with_reducible apply follows_issueStops
    | with_reducible apply follows_modSeq | with_reducible apply follows_pierFault | with_reducible apply follows_settle
    | with_reducible apply follows_ite | split | (intro t x ht; try dsimp only) | (intro t ht; try dsimp only) | (intro v; try beta_reduce)
    | dsimp only

theorem follows_issueIf {a s : State} (h : Follows a s) (can : Bool) (hd : Hdr) (w : Nat) (u : Option PierUnit) (act : State → State)
    (hact : ∀ t, Follows a t → Follows a (act t)) : Follows a (s.issueIf can hd w u act) := by
  unfold State.issueIf
  repeat' first
    | with_reducible assumption | with_reducible apply hact | with_reducible apply follows_twinFault | with_reducible apply follows_wordFault
    | with_reducible apply follows_bump | with_reducible apply follows_modSeq | with_reducible apply follows_ite | split | dsimp only

theorem follows_issue {a s : State} (h : Follows a s) (d : Hdr) (w : Nat) (u : Option PierUnit) (act : State → State)
    (hact : ∀ t, Follows a t → Follows a (act t)) : Follows a (s.issue d w u act) := follows_issueIf h _ _ _ _ _ hact

theorem follows_launch {a s : State} (h : Follows a s) (h' : Hdr) (u : PierUnit) (cls : Nat) (left : Nat) (args : List Nat) :
    Follows a (State.launch s h' u cls left args) := by
  unfold State.launch
  repeat' first
    | with_reducible assumption | with_reducible apply follows_modSeq | with_reducible apply follows_ite | split | (intro t x ht; try dsimp only)
    | (intro t ht; try dsimp only) | (intro v; try beta_reduce) | dsimp only

theorem follows_await {a s : State} (h : Follows a s) (h' : Hdr) (w : Waiting) :
    Follows a (State.await s h' w) := by
  unfold State.await
  repeat' first
    | with_reducible assumption | with_reducible apply follows_modSeq | with_reducible apply follows_ite | split | (intro t x ht; try dsimp only)
    | (intro t ht; try dsimp only) | (intro v; try beta_reduce) | dsimp only

theorem follows_wakeWaiting {a s : State} (h : Follows a s) (f : Nat) :
    Follows a (State.wakeWaiting s f) := by
  unfold State.wakeWaiting
  repeat' first
    | with_reducible assumption | with_reducible apply follows_modSeq | with_reducible apply follows_ite | split | (intro t x ht; try dsimp only)
    | (intro t ht; try dsimp only) | (intro v; try beta_reduce) | dsimp only

theorem follows_finish {a s : State} (h : Follows a s) (f : Nat) (x : InFlight) :
    Follows a (State.finish s f x) := by
  unfold State.finish
  repeat' first
    | with_reducible assumption | with_reducible apply follows_modSeq | with_reducible apply follows_wakeWaiting | with_reducible apply follows_ite
    | split | (intro t x ht; try dsimp only) | (intro t ht; try dsimp only) | (intro v; try beta_reduce) | dsimp only

theorem follows_responded {a s : State} (h : Follows a s) (f : Nat) (n : Nat) :
    Follows a (State.responded s f n) := by
  unfold State.responded
  repeat' first
    | with_reducible assumption | with_reducible apply follows_finish | with_reducible apply follows_modSeq | with_reducible apply follows_ite | split
    | (intro t x ht; try dsimp only) | (intro t ht; try dsimp only) | (intro v; try beta_reduce) | dsimp only

theorem follows_operandFault {a s : State} (h : Follows a s) (f : Nat) :
    Follows a (State.operandFault s f) := by
  unfold State.operandFault
  repeat' first
    | with_reducible assumption | with_reducible apply follows_event | with_reducible apply follows_failed | with_reducible apply follows_setReg
    | with_reducible apply follows_ite | split | (intro t x ht; try dsimp only) | (intro t ht; try dsimp only) | (intro v; try beta_reduce)
    | dsimp only

theorem follows_unissue {a s : State} (h : Follows a s) (f : Nat) :
    Follows a (State.unissue s f) := by
  unfold State.unissue
  repeat' first
    | with_reducible assumption | with_reducible apply follows_modSeq | with_reducible apply follows_ite | split | (intro t x ht; try dsimp only)
    | (intro t ht; try dsimp only) | (intro v; try beta_reduce) | dsimp only

theorem follows_withRows {a s : State} (h : Follows a s) (f : Nat) (operands rows : List Nat) (act : State → State)
    (hact : ∀ t, Follows a t → Follows a (act t)) : Follows a (s.withRows f operands rows act) := by
  unfold State.withRows
  dsimp only
  split
  · exact follows_operandFault h _
  · split
    · exact follows_unissue h _
    · split
      · exact hact _ h
      · exact follows_failed (follows_ite (follows_nextFree (follows_event h _ _ _)) (follows_ite (follows_event h _ _ _) h)) _ _

theorem follows_putRows {a s : State} (h : Follows a s) (f : Nat) (p : Nat) (l : List Byte) :
    Follows a (State.putRows s f p l) := by
  unfold State.putRows
  repeat' first
    | with_reducible assumption | with_reducible apply follows_bump | with_reducible apply follows_rowWritten | with_reducible apply follows_setRow
    | with_reducible apply follows_write | with_reducible apply follows_foldl | with_reducible apply follows_ite | split
    | (intro t x ht; try dsimp only) | (intro t ht; try dsimp only) | (intro v; try beta_reduce) | dsimp only

theorem follows_tagRows {a s : State} (h : Follows a s) (f : Nat) (rows : List Nat) (scales : List Nat) :
    Follows a (State.tagRows s f rows scales) := by
  unfold State.tagRows
  repeat' first
    | with_reducible assumption | with_reducible apply follows_modField | with_reducible apply follows_ite | split | (intro t x ht; try dsimp only)
    | (intro t ht; try dsimp only) | (intro v; try beta_reduce) | dsimp only

theorem follows_arrayEnter {a s : State} (h : Follows a s) (f : Nat) :
    Follows a (State.arrayEnter s f) := by
  unfold State.arrayEnter
  repeat' first
    | with_reducible assumption | with_reducible apply follows_bump | with_reducible apply follows_spinTo | with_reducible apply follows_ite | split
    | (intro t x ht; try dsimp only) | (intro t ht; try dsimp only) | (intro v; try beta_reduce) | dsimp only

theorem follows_drainPass {a s : State} (h : Follows a s) (f : Nat) (h' : Hdr) (o : PassOp) (d : PassDesc) (gs : List (List PassEntry)) :
    Follows a (State.drainPass s f h' o d gs) := by
  unfold State.drainPass
  repeat' first
    | with_reducible assumption | with_reducible apply follows_bump | with_reducible apply follows_event | with_reducible apply follows_modArray
    | with_reducible apply follows_modSeq | with_reducible apply follows_putRows | with_reducible apply follows_tagRows
    | with_reducible apply follows_free | with_reducible apply follows_ite | split | (intro t x ht; try dsimp only) | (intro t ht; try dsimp only)
    | (intro v; try beta_reduce) | dsimp only

theorem follows_checkDelay {a s : State} (h : Follows a s) (f : Nat) :
    Follows a (State.checkDelay s f) := by
  unfold State.checkDelay
  repeat' first
    | with_reducible assumption | with_reducible apply follows_bump | with_reducible apply follows_nextFree | with_reducible apply follows_ite | split
    | (intro t x ht; try dsimp only) | (intro t ht; try dsimp only) | (intro v; try beta_reduce) | dsimp only

theorem follows_runPass {a s : State} (h : Follows a s) (f : Nat) (h' : Hdr) (o : PassOp) (d : PassDesc) (w : List (List Nat)) (a0 : List (List Nat)) :
    Follows a (State.runPass s f h' o d w a0) := by
  unfold State.runPass
  repeat' first
    | with_reducible assumption | with_reducible apply follows_arrayEnter | with_reducible apply follows_bump
    | with_reducible apply follows_checkDelay | with_reducible apply follows_drainPass | with_reducible apply follows_launch
    | with_reducible apply follows_modArray | with_reducible apply follows_modSeq | with_reducible apply follows_ite | split
    | (intro t x ht; try dsimp only) | (intro t ht; try dsimp only) | (intro v; try beta_reduce) | dsimp only

theorem follows_windowWrite {a s : State} (h : Follows a s) (p : Pkt) (stream : Bool) (f c offset : Nat) (g : State → Option State)
    (hg : ∀ t u, Follows a t → g t = some u → Follows a u) : Follows a (s.windowWrite p stream f c offset g) := by
  unfold State.windowWrite
  split
  · exact follows_dropStale h _
  · split
    · exact follows_answer h _ _ _ _
    · split
      · exact follows_answer (follows_violation h _ _ _ _ _) _ _ _ _
      · split
        · rename_i t e; exact follows_performed (hg s t h e) _ _
        · exact follows_answer h _ _ _ _

theorem follows_moverGo {a s : State} (h : Follows a s) (f : Nat) (c : Nat) :
    Follows a (moverGo f c s) := by
  unfold moverGo
  repeat' first
    | with_reducible assumption | with_reducible apply follows_modMover | with_reducible apply follows_moverError
    | with_reducible apply follows_moverTry | with_reducible apply follows_ite | split | (intro t x ht; try dsimp only) | (intro t ht; try dsimp only)
    | (intro v; try beta_reduce) | dsimp only

theorem follows_moverArm {a s : State} (f c : Nat) (h : Follows a s) : ∀ u, moverArm f c s = some u → Follows a u := by
  intro u e
  unfold moverArm at e
  split at e
  · cases e; exact follows_modMover h _ _ _
  · cases e

theorem follows_moverStop {a s : State} (h : Follows a s) (f : Nat) (c : Nat) :
    Follows a (moverStop f c s) := by
  unfold moverStop
  repeat' first
    | with_reducible assumption | with_reducible apply follows_modMover | with_reducible apply follows_ite | split | (intro t x ht; try dsimp only)
    | (intro t ht; try dsimp only) | (intro v; try beta_reduce) | dsimp only

theorem follows_moverClear {a s : State} (h : Follows a s) (f : Nat) (c : Nat) :
    Follows a (moverClear f c s) := by
  unfold moverClear
  repeat' first
    | with_reducible assumption | with_reducible apply follows_modMover | with_reducible apply follows_moverReload | with_reducible apply follows_ite
    | split | (intro t x ht; try dsimp only) | (intro t ht; try dsimp only) | (intro v; try beta_reduce) | dsimp only

theorem follows_moverSetWrite {a s : State} (f c : Nat) (shadow : Bool) (offset : Nat) (bytes : List Byte) (h : Follows a s) :
    ∀ u, moverSetWrite f c shadow offset bytes s = some u → Follows a u := by
  intro u e
  unfold moverSetWrite at e
  dsimp only at e
  repeat' first | (cases e; done) | (cases e; exact follows_modMover h _ _ _) | split at e

theorem follows_moverAccessFailed {a s : State} (h : Follows a s) (f : Nat) (c : Nat) (code : Nat) (addr : Nat) :
    Follows a (State.moverAccessFailed s f c code addr) := by
  unfold State.moverAccessFailed
  repeat' first
    | with_reducible assumption | with_reducible apply follows_modMover | with_reducible apply follows_ite | split | (intro t x ht; try dsimp only)
    | (intro t ht; try dsimp only) | (intro v; try beta_reduce) | dsimp only

theorem follows_moverLast {a s : State} (h : Follows a s) (f : Nat) (c : Nat) :
    Follows a (moverLast f c s) := by
  unfold moverLast
  repeat' first
    | with_reducible assumption | with_reducible apply follows_bump | with_reducible apply follows_countNarrow | with_reducible apply follows_modMover
    | with_reducible apply follows_moverAccessFailed | with_reducible apply follows_pokeAny | with_reducible apply follows_readNotes
    | with_reducible apply follows_refused | with_reducible apply follows_send | with_reducible apply follows_foldl
    | with_reducible apply follows_free | with_reducible apply follows_ite | split | (intro t x ht; try dsimp only) | (intro t ht; try dsimp only)
    | (intro v; try beta_reduce) | dsimp only

theorem follows_atMoverLastWrite {a s : State} (h : Follows a s) (f : FieldId) (ch : Idx16) :
    Follows a (atMoverLastWrite f ch s) := by
  unfold atMoverLastWrite
  repeat' first
    | with_reducible assumption | with_reducible apply follows_moverLast | with_reducible apply follows_sleep | with_reducible apply follows_ite
    | split | (intro t x ht; try dsimp only) | (intro t ht; try dsimp only) | (intro v; try beta_reduce) | dsimp only

theorem follows_moverDone {a s : State} (h : Follows a s) (f : Nat) (c : Nat) :
    Follows a (moverDone f c s) := by
  unfold moverDone
  repeat' first
    | with_reducible assumption | with_reducible apply follows_bump | with_reducible apply follows_interrupt | with_reducible apply follows_modMover
    | with_reducible apply follows_moverEvents | with_reducible apply follows_moverReload | with_reducible apply follows_ite | split
    | (intro t x ht; try dsimp only) | (intro t ht; try dsimp only) | (intro v; try beta_reduce) | dsimp only

theorem follows_moverHalt {a s : State} (h : Follows a s) (f : Nat) (c : Nat) :
    Follows a (moverHalt f c s) := by
  unfold moverHalt
  repeat' first
    | with_reducible assumption | with_reducible apply follows_modMover | with_reducible apply follows_moverError
    | with_reducible apply follows_moverTorn | with_reducible apply follows_ite | split | (intro t x ht; try dsimp only)
    | (intro t ht; try dsimp only) | (intro v; try beta_reduce) | dsimp only

theorem follows_copyRows {a s : State} (h : Follows a s) (f : Nat) (src : Nat) (dst : Nat) (n : Nat) :
    Follows a (State.copyRows s f src dst n) := by
  unfold State.copyRows
  repeat' first
    | with_reducible assumption | with_reducible apply follows_putRows | with_reducible apply follows_tagRows | with_reducible apply follows_foldl
    | with_reducible apply follows_free | with_reducible apply follows_ite | split | (intro t x ht; try dsimp only) | (intro t ht; try dsimp only)
    | (intro v; try beta_reduce) | dsimp only

theorem follows_adoptReads {a s : State} (h : Follows a s) (f : Nat) (n : Nat) (tags : List Nat) :
    Follows a (State.adoptReads s f n tags) := by
  unfold State.adoptReads
  repeat' first
    | with_reducible assumption | with_reducible apply follows_modMesh | with_reducible apply follows_ite | split | (intro t x ht; try dsimp only)
    | (intro t ht; try dsimp only) | (intro v; try beta_reduce) | dsimp only

theorem follows_fetch {a s : State} (h : Follows a s) (h' : Hdr) (ra : Bool) (reads : List (Nat × Nat × Nat)) :
    Follows a (State.fetch s h' ra reads) := by
  unfold State.fetch
  repeat' first
    | with_reducible assumption | with_reducible apply follows_adoptReads | with_reducible apply follows_fetchIssue
    | with_reducible apply follows_launch | with_reducible apply follows_modSeq | with_reducible apply follows_ite | split
    | (intro t x ht; try dsimp only) | (intro t ht; try dsimp only) | (intro v; try beta_reduce) | dsimp only

theorem follows_rangeFault {a s : State} (h : Follows a s) (f : Nat) :
    Follows a (State.rangeFault s f) := by
  unfold State.rangeFault
  repeat' first
    | with_reducible assumption | with_reducible apply follows_failed | with_reducible apply follows_ite | split | (intro t x ht; try dsimp only)
    | (intro t ht; try dsimp only) | (intro v; try beta_reduce) | dsimp only

theorem follows_sendRows {a s : State} (h : Follows a s) (f : Nat) (ty : Nat) (k : Nat) (dst : Nat → Dest) (resent : Bool) (head : Nat → List Nat) (l : List Byte) :
    Follows a (State.sendRows s f ty k dst resent head l) := by
  unfold State.sendRows
  repeat' first
    | with_reducible assumption | with_reducible apply follows_sendNth | with_reducible apply follows_foldl | with_reducible apply follows_ite | split
    | (intro t x ht; try dsimp only) | (intro t ht; try dsimp only) | (intro v; try beta_reduce) | dsimp only

theorem follows_sendReadback {a s : State} (h : Follows a s) (f : Nat) (k : Nat) (nth : Nat) (dst : Dest) (addr : Nat) (serial : Nat) :
    Follows a (State.sendReadback s f k nth dst addr serial) := by
  unfold State.sendReadback
  repeat' first
    | with_reducible assumption | with_reducible apply follows_modSeq | with_reducible apply follows_request | with_reducible apply follows_sendNth
    | with_reducible apply follows_write | with_reducible apply follows_ite | split | (intro t x ht; try dsimp only) | (intro t ht; try dsimp only)
    | (intro v; try beta_reduce) | dsimp only

theorem follows_writeOpens {a s : State} (h : Follows a s) (f : Nat) :
    Follows a (State.writeOpens s f) := by
  unfold State.writeOpens
  repeat' first
    | with_reducible assumption | with_reducible apply follows_modSeq | with_reducible apply follows_ite | split | (intro t x ht; try dsimp only)
    | (intro t ht; try dsimp only) | (intro v; try beta_reduce) | dsimp only

theorem follows_mcastPump {a : State} (k n : Nat) {s : State} (h : Follows a s) (m : Mcast) : Follows a (mcastPump k n s m).1 := by
  induction n generalizing s m with
  | zero => exact h
  | succ i ih =>
    unfold mcastPump
    dsimp only
    split
    · exact ih (follows_sendRows h _ _ _ _ _ _ _) _
    · exact h

theorem follows_mcastGo {a s : State} (h : Follows a s) (k : Nat) (m : Mcast) : Follows a (s.mcastGo k m) :=
  follows_modSpan (follows_mcastPump _ _ h _) _ _

theorem follows_mcastCheck {a s : State} (h : Follows a s) (k : Nat) (g : Nat) (root : Nat) :
    Follows a (State.mcastCheck s k g root) := by
  unfold State.mcastCheck
  repeat' first
    | with_reducible assumption | with_reducible apply follows_finish | with_reducible apply follows_mcastGo | with_reducible apply follows_modSeq
    | with_reducible apply follows_modSpan | with_reducible apply follows_ite | split | (intro t x ht; try dsimp only) | (intro t ht; try dsimp only)
    | (intro v; try beta_reduce) | dsimp only

theorem follows_atTarget {a s : State} (h : Follows a s) (c : Instr) (p : Pkt) (right : Right) (x n : Nat) (act : State → State)
    (hact : ∀ t, Follows a t → Follows a (act t)) : Follows a (s.atTarget c p right x n act) := by
  unfold State.atTarget
  dsimp only
  split
  · exact follows_dropStale h _
  · split
    · exact follows_ite (follows_sleep h _) (hact _ h)
    · exact follows_answer (follows_refused h _ _ _ _ _ _) _ _ _ _

theorem follows_rowsArrive {a s : State} (h : Follows a s) (c : Instr) (p : Pkt) (f r : Nat) (bytes : List Byte) (act : State → State)
    (hact : ∀ t, Follows a t → Follows a (act t)) : Follows a (s.rowsArrive c p f r bytes act) :=
  follows_atTarget h _ _ _ _ _ _ fun t ht => hact _ (follows_putRows ht _ _ _)

theorem follows_countRows {a s : State} (h : Follows a s) (f : Nat) (chan : Nat) (n : Nat) :
    Follows a (State.countRows s f chan n) := by
  unfold State.countRows
  repeat' first
    | with_reducible assumption | with_reducible apply follows_modSeq | with_reducible apply follows_wakeWaiting | with_reducible apply follows_ite
    | split | (intro t x ht; try dsimp only) | (intro t ht; try dsimp only) | (intro v; try beta_reduce) | dsimp only

theorem follows_atRows {a s : State} (h : Follows a s) (p : Pkt) (f : FieldId) (chan : Idx16) (rdst : BitVec 22) (bytes : List Byte) :
    Follows a (atRows p f chan rdst bytes s) := by
  unfold atRows
  repeat' first
    | with_reducible assumption | with_reducible apply follows_countRows | with_reducible apply follows_rowsArrive | with_reducible apply follows_ite
    | split | (intro t x ht; try dsimp only) | (intro t ht; try dsimp only) | (intro v; try beta_reduce) | dsimp only

theorem follows_atMcastData {a s : State} (h : Follows a s) (p : Pkt) (f : FieldId) (group : Fin 32) (chan : Idx16) (rdst : BitVec 22) (bytes : List Byte) :
    Follows a (atMcastData p f group chan rdst bytes s) := by
  unfold atMcastData
  repeat' first
    | with_reducible assumption | with_reducible apply follows_answer | with_reducible apply follows_countRows
    | with_reducible apply follows_dropSegment | with_reducible apply follows_rowsArrive | with_reducible apply follows_ite | split
    | (intro t x ht; try dsimp only) | (intro t ht; try dsimp only) | (intro v; try beta_reduce) | dsimp only

theorem follows_readLanded {a s : State} (h : Follows a s) (o : Outstanding) (n : Nat) :
    Follows a (State.readLanded s o n) := by
  unfold State.readLanded
  repeat' first
    | with_reducible assumption | with_reducible apply follows_aheadGo | with_reducible apply follows_endRequest
    | with_reducible apply follows_fetchNext | with_reducible apply follows_modMesh | with_reducible apply follows_responded
    | with_reducible apply follows_wakeWaiting | with_reducible apply follows_ite | split | (intro t x ht; try dsimp only)
    | (intro t ht; try dsimp only) | (intro v; try beta_reduce) | dsimp only

theorem follows_atReadData {a s : State} (h : Follows a s) (p : Pkt) (bytes : List Byte) :
    Follows a (atReadData p bytes s) := by
  unfold atReadData
  repeat' first
    | with_reducible assumption | with_reducible apply follows_dropStale | with_reducible apply follows_endRequest
    | with_reducible apply follows_probeAnswered | with_reducible apply follows_putRows | with_reducible apply follows_readLanded
    | with_reducible apply follows_settle | with_reducible apply follows_sleep | with_reducible apply follows_withRows
    | with_reducible apply follows_ite | split | (intro t x ht; try dsimp only) | (intro t ht; try dsimp only) | (intro v; try beta_reduce)
    | dsimp only

theorem follows_mcastDrop {a s : State} (h : Follows a s) (k : Nat) (g : Nat) (root : Nat) (target : Nat) :
    Follows a (State.mcastDrop s k g root target) := by
  unfold State.mcastDrop
  repeat' first
    | with_reducible assumption | with_reducible apply follows_bump | with_reducible apply follows_event | with_reducible apply follows_failed
    | with_reducible apply follows_mcastCheck | with_reducible apply follows_mcastGo | with_reducible apply follows_modSpan
    | with_reducible apply follows_probe | with_reducible apply follows_ite | split | (intro t x ht; try dsimp only) | (intro t ht; try dsimp only)
    | (intro v; try beta_reduce) | dsimp only

theorem follows_mcastLost {a s : State} (h : Follows a s) (k : Nat) (root : Nat) :
    Follows a (State.mcastLost s k root) := by
  unfold State.mcastLost
  repeat' first
    | with_reducible assumption | with_reducible apply follows_mcastDrop | with_reducible apply follows_foldl | with_reducible apply follows_ite
    | split | (intro t x ht; try dsimp only) | (intro t ht; try dsimp only) | (intro v; try beta_reduce) | dsimp only

theorem follows_moverNack {a s : State} (h : Follows a s) (master : Nat) (code : Nat) :
    Follows a (State.moverNack s master code) := by
  unfold State.moverNack
  repeat' first
    | with_reducible assumption | with_reducible apply follows_moverAccessFailed | with_reducible apply follows_nextFree
    | with_reducible apply follows_ite | split | (intro t x ht; try dsimp only) | (intro t ht; try dsimp only) | (intro v; try beta_reduce)
    | dsimp only

theorem follows_requestFailed {a s : State} (h : Follows a s) (master : Nat) (tag : Nat) (code : Nat) :
    Follows a (State.requestFailed s master tag code) := by
  unfold State.requestFailed
  repeat' first
    | with_reducible assumption | with_reducible apply follows_dropAhead | with_reducible apply follows_endRequest
    | with_reducible apply follows_failed | with_reducible apply follows_mcastLost | with_reducible apply follows_modSeq
    | with_reducible apply follows_moverNack | with_reducible apply follows_write | with_reducible apply follows_ite | split
    | (intro t x ht; try dsimp only) | (intro t ht; try dsimp only) | (intro v; try beta_reduce) | dsimp only

theorem follows_mcastAcked {a s : State} (h : Follows a s) (k : Nat) (g : Nat) (target : Nat) :
    Follows a (State.mcastAcked s k g target) := by
  unfold State.mcastAcked
  repeat' first
    | with_reducible assumption | with_reducible apply follows_mcastCheck | with_reducible apply follows_mcastGo
    | with_reducible apply follows_modSpan | with_reducible apply follows_ite | split | (intro t x ht; try dsimp only) | (intro t ht; try dsimp only)
    | (intro v; try beta_reduce) | dsimp only

theorem follows_mcastResend {a s : State} (h : Follows a s) (k : Nat) (g : Nat) (target : Nat) :
    Follows a (State.mcastResend s k g target) := by
  unfold State.mcastResend
  repeat' first
    | with_reducible assumption | with_reducible apply follows_bump | with_reducible apply follows_event | with_reducible apply follows_mcastDrop
    | with_reducible apply follows_modSpan | with_reducible apply follows_sendRows | with_reducible apply follows_settle
    | with_reducible apply follows_foldl | with_reducible apply follows_ite | split | (intro t x ht; try dsimp only) | (intro t ht; try dsimp only)
    | (intro v; try beta_reduce) | dsimp only

theorem follows_addSpare {a s : State} (h : Follows a s) (r : Nat) (d : Nat) (g : Nat) :
    Follows a (State.addSpare s r d g) := by
  unfold State.addSpare
  repeat' first
    | with_reducible assumption | with_reducible apply follows_modRouter | with_reducible apply follows_setReg | with_reducible apply follows_ite
    | split | (intro t x ht; try dsimp only) | (intro t ht; try dsimp only) | (intro v; try beta_reduce) | dsimp only

theorem follows_noteRefill {a s : State} (h : Follows a s) (f : Nat) (b : Nat) (row : Nat) :
    Follows a (State.noteRefill s f b row) := by
  unfold State.noteRefill
  repeat' first
    | with_reducible assumption | with_reducible apply follows_noteRead | with_reducible apply follows_ite | split | (intro t x ht; try dsimp only)
    | (intro t ht; try dsimp only) | (intro v; try beta_reduce) | dsimp only

theorem follows_keepDigests {a s : State} (h : Follows a s) (f : Nat) (fresh : Nat → Bool) :
    Follows a (State.keepDigests s f fresh) := by
  unfold State.keepDigests
  repeat' first
    | with_reducible assumption | with_reducible apply follows_modField | with_reducible apply follows_ite | split | (intro t x ht; try dsimp only)
    | (intro t ht; try dsimp only) | (intro v; try beta_reduce) | dsimp only

theorem follows_showDigests {a s : State} (h : Follows a s) (f : Nat) :
    Follows a (State.showDigests s f) := by
  unfold State.showDigests
  repeat' first
    | with_reducible assumption | with_reducible apply follows_setReg | with_reducible apply follows_ite | split | (intro t x ht; try dsimp only)
    | (intro t ht; try dsimp only) | (intro v; try beta_reduce) | dsimp only

theorem follows_landDigests {a s : State} (h : Follows a s) (f : Nat) :
    Follows a (State.landDigests s f) := by
  unfold State.landDigests
  repeat' first
    | with_reducible assumption | with_reducible apply follows_keepDigests | with_reducible apply follows_modField
    | with_reducible apply follows_setReg | with_reducible apply follows_showDigests | with_reducible apply follows_ite | split
    | (intro t x ht; try dsimp only) | (intro t ht; try dsimp only) | (intro v; try beta_reduce) | dsimp only

theorem follows_reloadBank {a s : State} (h : Follows a s) (f i b : Nat) (good : Bool) : Follows a (s.reloadBank f i b good) := by
  unfold State.reloadBank
  dsimp only
  split
  · split
    · exact follows_write (follows_dropAhead h _ _) _ _
    · exact follows_dropAhead h _ _
  · exact follows_free (follows_write (follows_dropAhead h _ _) _ _) _

theorem follows_reloadRegions {a s : State} (h : Follows a s) (f : Nat) (good : Bool) :
    Follows a (State.reloadRegions s f good) := by
  unfold State.reloadRegions
  repeat' first
    | with_reducible assumption | with_reducible apply follows_reloadBank | with_reducible apply follows_foldl | with_reducible apply follows_ite
    | split | (intro t x ht; try dsimp only) | (intro t ht; try dsimp only) | (intro v; try beta_reduce) | dsimp only

theorem follows_decide {a s : State} (h : Follows a s) (k : Nat) :
    Follows a (State.decide s k) := by
  unfold State.decide
  repeat' first
    | with_reducible assumption | with_reducible apply follows_modSpan | with_reducible apply follows_send | with_reducible apply follows_ite | split
    | (intro t x ht; try dsimp only) | (intro t ht; try dsimp only) | (intro v; try beta_reduce) | dsimp only

theorem follows_reportFailed {a s : State} (h : Follows a s) (k : Nat) (status : Nat) :
    Follows a (State.reportFailed s k status) := by
  unfold State.reportFailed
  repeat' first
    | with_reducible assumption | with_reducible apply follows_abortSpan | with_reducible apply follows_modSpan | with_reducible apply follows_setReg
    | with_reducible apply follows_ite | split | (intro t x ht; try dsimp only) | (intro t ht; try dsimp only) | (intro v; try beta_reduce)
    | dsimp only

theorem follows_reportReady {a s : State} (h : Follows a s) (k : Nat) (count : Nat) (status : Nat) (window : Nat) :
    Follows a (State.reportReady s k count status window) := by
  unfold State.reportReady
  repeat' first
    | with_reducible assumption | with_reducible apply follows_decide | with_reducible apply follows_modSpan
    | with_reducible apply follows_reportFailed | with_reducible apply follows_ite | split | (intro t x ht; try dsimp only)
    | (intro t ht; try dsimp only) | (intro v; try beta_reduce) | dsimp only

theorem follows_reportAbortDone {a s : State} (h : Follows a s) (k : Nat) (count : Nat) :
    Follows a (State.reportAbortDone s k count) := by
  unfold State.reportAbortDone
  repeat' first
    | with_reducible assumption | with_reducible apply follows_abortQuorum | with_reducible apply follows_modSpan
    | with_reducible apply follows_settle | with_reducible apply follows_ite | split | (intro t x ht; try dsimp only) | (intro t ht; try dsimp only)
    | (intro v; try beta_reduce) | dsimp only

theorem follows_afterKeystone {a s : State} (h : Follows a s) (k : Nat) :
    Follows a (State.afterKeystone s k) := by
  unfold State.afterKeystone
  repeat' first
    | with_reducible assumption | with_reducible apply follows_enterPaused | with_reducible apply follows_setSpanState
    | with_reducible apply follows_stepOpens | with_reducible apply follows_ite | split | (intro t x ht; try dsimp only)
    | (intro t ht; try dsimp only) | (intro v; try beta_reduce) | dsimp only

theorem follows_keystoneDone {a s : State} (h : Follows a s) (k : Nat) :
    Follows a (State.keystoneDone s k) := by
  unfold State.keystoneDone
  repeat' first
    | with_reducible assumption | with_reducible apply follows_afterKeystone | with_reducible apply follows_bump
    | with_reducible apply follows_closeStep | with_reducible apply follows_event | with_reducible apply follows_sendAdvance
    | with_reducible apply follows_sendNotice | with_reducible apply follows_writeKeystone | with_reducible apply follows_ite | split
    | (intro t x ht; try dsimp only) | (intro t ht; try dsimp only) | (intro v; try beta_reduce) | dsimp only

theorem follows_advancePier {a s : State} (h : Follows a s) (f : Nat) (k : Nat) (step : Nat) :
    Follows a (State.advancePier s f k step) := by
  unfold State.advancePier
  repeat' first
    | with_reducible assumption | with_reducible apply follows_attemptStart | with_reducible apply follows_modArray
    | with_reducible apply follows_moverSeqEvent | with_reducible apply follows_seqWait | with_reducible apply follows_ite | split
    | (intro t x ht; try dsimp only) | (intro t ht; try dsimp only) | (intro v; try beta_reduce) | dsimp only

theorem follows_draftWrite {a s : State} (h : Follows a s) (k : Nat) :
    Follows a (State.draftWrite s k) := by
  unfold State.draftWrite
  repeat' first
    | with_reducible assumption | with_reducible apply follows_modSpan | with_reducible apply follows_setReg | with_reducible apply follows_tryOpen
    | with_reducible apply follows_ite | split | (intro t x ht; try dsimp only) | (intro t ht; try dsimp only) | (intro v; try beta_reduce)
    | dsimp only

theorem follows_advanceSupervisor {a s : State} (h : Follows a s) (k : Nat) :
    Follows a (State.advanceSupervisor s k) := by
  unfold State.advanceSupervisor
  repeat' first
    | with_reducible assumption | with_reducible apply follows_draftWrite | with_reducible apply follows_showCommitted
    | with_reducible apply follows_ite | split | (intro t x ht; try dsimp only) | (intro t ht; try dsimp only) | (intro v; try beta_reduce)
    | dsimp only

theorem follows_windowAt {a s : State} (h : Follows a s) (k : Nat) (w : Nat) :
    Follows a (State.windowAt s k w) := by
  unfold State.windowAt
  repeat' first
    | with_reducible assumption | with_reducible apply follows_modSpan | with_reducible apply follows_ite | split | (intro t x ht; try dsimp only)
    | (intro t ht; try dsimp only) | (intro v; try beta_reduce) | dsimp only

theorem follows_advanceAway {a s : State} (h : Follows a s) (k : Nat) (step : Nat) :
    Follows a (State.advanceAway s k step) := by
  unfold State.advanceAway
  repeat' first
    | with_reducible assumption | with_reducible apply follows_afterKeystone | with_reducible apply follows_closeStep
    | with_reducible apply follows_ite | split | (intro t x ht; try dsimp only) | (intro t ht; try dsimp only) | (intro v; try beta_reduce)
    | dsimp only

theorem follows_prologueAgain {a s : State} (h : Follows a s) (f : Nat) :
    Follows a (State.prologueAgain s f) := by
  unfold State.prologueAgain
  repeat' first
    | with_reducible assumption | with_reducible apply follows_prologueStart | with_reducible apply follows_ite | split
    | (intro t x ht; try dsimp only) | (intro t ht; try dsimp only) | (intro v; try beta_reduce) | dsimp only

theorem follows_tryReady {a s : State} (h : Follows a s) (k : Nat) :
    Follows a (State.tryReady s k) := by
  unfold State.tryReady
  repeat' first
    | with_reducible assumption | with_reducible apply follows_pauseFor | with_reducible apply follows_prologueStart
    | with_reducible apply follows_setSpanState | with_reducible apply follows_settle | with_reducible apply follows_supEvent
    | with_reducible apply follows_tryOpen | with_reducible apply follows_event | with_reducible apply follows_foldl
    | with_reducible apply follows_ite | split | (intro t x ht; try dsimp only) | (intro t ht; try dsimp only) | (intro v; try beta_reduce)
    | dsimp only

theorem follows_sendLoaded {a s : State} (h : Follows a s) (k : Nat) :
    Follows a (State.sendLoaded s k) := by
  unfold State.sendLoaded
  repeat' first
    | with_reducible assumption | with_reducible apply follows_send | with_reducible apply follows_ite | split | (intro t x ht; try dsimp only)
    | (intro t ht; try dsimp only) | (intro v; try beta_reduce) | dsimp only

theorem follows_specClear {a s : State} (h : Follows a s) (k : Nat) :
    Follows a (State.specClear s k) := by
  unfold State.specClear
  repeat' first
    | with_reducible assumption | with_reducible apply follows_setReg | with_reducible apply follows_foldl | with_reducible apply follows_ite | split
    | (intro t x ht; try dsimp only) | (intro t ht; try dsimp only) | (intro v; try beta_reduce) | dsimp only

theorem follows_discardSpan {a s : State} (h : Follows a s) (k : Nat) :
    Follows a (State.discardSpan s k) := by
  unfold State.discardSpan
  repeat' first
    | with_reducible assumption | with_reducible apply follows_modSpan | with_reducible apply follows_specClear | with_reducible apply follows_ite
    | split | (intro t x ht; try dsimp only) | (intro t ht; try dsimp only) | (intro v; try beta_reduce) | dsimp only

theorem follows_switchRef {a s : State} (h : Follows a s) (b : Bool) :
    Follows a (State.switchRef s b) := by
  unfold State.switchRef
  repeat' first
    | with_reducible assumption | with_reducible apply follows_bump | with_reducible apply follows_modClocks | with_reducible apply follows_supEvent
    | with_reducible apply follows_event | with_reducible apply follows_ite | split | (intro t x ht; try dsimp only) | (intro t ht; try dsimp only)
    | (intro v; try beta_reduce) | dsimp only

theorem follows_relocksLost {a s : State} (h : Follows a s)  :
    Follows a (State.relocksLost s) := by
  unfold State.relocksLost
  repeat' first
    | with_reducible assumption | with_reducible apply follows_modClock | with_reducible apply follows_foldl | with_reducible apply follows_ite
    | split | (intro t x ht; try dsimp only) | (intro t ht; try dsimp only) | (intro v; try beta_reduce) | dsimp only

theorem follows_reselect {a s : State} (h : Follows a s)  :
    Follows a (State.reselect s) := by
  unfold State.reselect
  repeat' first
    | with_reducible assumption | with_reducible apply follows_modClocks | with_reducible apply follows_relocksLost
    | with_reducible apply follows_supEvent | with_reducible apply follows_switchRef | with_reducible apply follows_event
    | with_reducible apply follows_ite | split | (intro t x ht; try dsimp only) | (intro t ht; try dsimp only) | (intro v; try beta_reduce)
    | dsimp only

theorem follows_forcedDone {a s : State} (h : Follows a s) (f : Nat) :
    Follows a (State.forcedDone s f) := by
  unfold State.forcedDone
  repeat' first
    | with_reducible assumption | with_reducible apply follows_modClock | with_reducible apply follows_modPower
    | with_reducible apply follows_pointReached | with_reducible apply follows_ite | split | (intro t x ht; try dsimp only)
    | (intro t ht; try dsimp only) | (intro v; try beta_reduce) | dsimp only

theorem follows_drawDone {a s : State} (h : Follows a s) (f : Nat) (p : Nat) :
    Follows a (State.drawDone s f p) := by
  unfold State.drawDone
  repeat' first
    | with_reducible assumption | with_reducible apply follows_modPower | with_reducible apply follows_pointReached
    | with_reducible apply follows_setAclk | with_reducible apply follows_ite | split | (intro t x ht; try dsimp only) | (intro t ht; try dsimp only)
    | (intro v; try beta_reduce) | dsimp only

theorem follows_timersTry {a s : State} (h : Follows a s) (f : Nat) :
    Follows a (State.timersTry s f) := by
  unfold State.timersTry
  repeat' first
    | with_reducible assumption | with_reducible apply follows_moverTry | with_reducible apply follows_foldl | with_reducible apply follows_ite
    | split | (intro t x ht; try dsimp only) | (intro t ht; try dsimp only) | (intro v; try beta_reduce) | dsimp only

theorem follows_ptpStep {a s : State} (h : Follows a s) (d : Int) :
    Follows a (State.ptpStep s d) := by
  unfold State.ptpStep
  repeat' first
    | with_reducible assumption | with_reducible apply follows_modClocks | with_reducible apply follows_supEvent
    | with_reducible apply follows_timersTry | with_reducible apply follows_event | with_reducible apply follows_foldl
    | with_reducible apply follows_ite | split | (intro t x ht; try dsimp only) | (intro t ht; try dsimp only) | (intro v; try beta_reduce)
    | dsimp only

theorem follows_record {a s : State} (h : Follows a s) (source code : Nat) (data : List Byte) : Follows a (s.record source code data) := by
  unfold State.record
  split
  · exact h
  · rename_i hc
    dsimp only
    have h1 : Follows a (s.modRec fun r =>
        r.push { seq := r.nextSeq, opTime := s.opSeconds, cycles := s.reg regPowerCycles 0, source := source, code := code, data := padTo 8 data }) :=
      follows_modRec h _ fun w => by
        have := Recorder.push_numbered s.recorder ⟨s.recorder.nextSeq, s.opSeconds, s.reg regPowerCycles 0, source, code, padTo 8 data⟩ w rfl
          (by revert hc; cases s.recorder.ceiling <;> simp)
        exact ⟨this.1, by rw [this.2]; exact Nat.le_succ _⟩
    repeat' first | with_reducible assumption | with_reducible apply follows_vector | with_reducible apply follows_bump | split

theorem follows_unitReports {a s : State} (h : Follows a s) (source : Nat) : Follows a (s.unitReports source) := by
  unfold State.unitReports
  split
  · exact h
  · exact follows_modRec h _ fun w => ⟨w, Nat.le_refl _⟩

theorem follows_acceptNotice {a s : State} (h : Follows a s) (source : Nat) : Follows a (s.acceptNotice source) := by
  unfold State.acceptNotice
  split
  · exact h
  · split
    · exact h
    · dsimp only
      refine follows_unitReports (follows_ite (follows_bump (follows_record (follows_modRec h _ ?_) _ _ _) _ _ _)
        (follows_record (follows_modRec h _ ?_) _ _ _)) _
      all_goals exact fun w => ⟨w, Nat.le_refl _⟩

theorem follows_clearHistory {a s : State} (h : Follows a s) : Follows a s.clearHistory := by
  unfold State.clearHistory
  refine follows_record (follows_modRec h _ fun w => ⟨?_, Nat.le_refl _⟩) _ _ _
  have := (Recorder.numbered_iff _).1 w
  exact (Recorder.numbered_iff _).2 ⟨by simp, by simp, by simp, by simp, by simp, by simp, fun hc => ⟨rfl, rfl, (this.2.2.2.2.2.2.1 hc).2.2⟩, this.2.2.2.2.2.2.2⟩

theorem follows_recorderStarts {a s : State} (h : Follows a s) (header : Bool) (bad : List (Nat × Nat)) :
    Follows a (s.recorderStarts header bad) := by
  unfold State.recorderStarts
  dsimp only
  split
  · rename_i hc
    refine follows_record (follows_record (follows_modRec h _ fun w => ⟨?_, ?_⟩) _ _ _) _ _ _
    · exact (Recorder.numbered_iff _).2 ⟨by simp, by simp, by simp, by simp, by simp, by simp [Recorder.unwritten], by simp, by simp⟩
    · exact Nat.le_of_eq ((Recorder.numbered_iff _).1 w |>.2.2.2.2.2.2.1 hc).2.2
  · rename_i c hc
    have base : Follows a ((s.modRec fun x =>
        { x with nextSeq := c, ceiling := some (c + 65536), die := [], flash := (if header then [] else s.recorder.soundFlash bad), pendingN := 0 }).record s.supervisor 0x0B01
        (leBytes 8 ((((s.recorder.soundFlash bad).flatten.getLast?).map (·.seq)).getD 0))) := by
      refine follows_record (follows_modRec h _ fun w => ?_) _ _ _
      obtain ⟨w1, w2, w3, w4, w5, w6, w7, w8⟩ := (Recorder.numbered_iff _).1 w
      have hl := w8 c hc
      have sub : (if header then [] else s.recorder.soundFlash bad).flatten.Sublist s.recorder.flash.flatten := by
        split
        · simp
        · exact Recorder.soundFlash_sublist _ _
      exact ⟨(Recorder.numbered_iff _).2 ⟨by simp, w2.sublist sub, by simp, fun e he => lt_trans (w4 e (sub.subset he)) hl, by simp,
        by simp [Recorder.unwritten], by simp, by simp⟩, Nat.le_of_lt hl⟩
    have step := follows_ite (c := header = true) (follows_record base s.supervisor 0x0B02 []) base
    split
    · exact step
    · exact follows_record step _ _ _

theorem follows_putOutput {a s : State} (h : Follows a s) (k : Nat) (i : Nat) (l : List Byte) :
    Follows a (State.putOutput s k i l) := by
  unfold State.putOutput
  repeat' first
    | with_reducible assumption | with_reducible apply follows_poke | with_reducible apply follows_ite | split | (intro t x ht; try dsimp only)
    | (intro t ht; try dsimp only) | (intro v; try beta_reduce) | dsimp only

theorem follows_appendOutput {a s : State} (h : Follows a s) (k : Nat) (l : List (List Byte)) :
    Follows a (State.appendOutput s k l) := by
  unfold State.appendOutput
  repeat' first
    | with_reducible assumption | with_reducible apply follows_modSpan | with_reducible apply follows_putOutput | with_reducible apply follows_foldl
    | with_reducible apply follows_ite | split | (intro t x ht; try dsimp only) | (intro t ht; try dsimp only) | (intro v; try beta_reduce)
    | dsimp only

theorem follows_accept {a s : State} (h : Follows a s) (k : Nat) (sampled : List (Nat × List Nat)) :
    Follows a (State.accept s k sampled) := by
  unfold State.accept
  repeat' first
    | with_reducible assumption | with_reducible apply follows_appendOutput | with_reducible apply follows_modSpan
    | with_reducible apply follows_foldl | with_reducible apply follows_ite | split | (intro t x ht; try dsimp only) | (intro t ht; try dsimp only)
    | (intro v; try beta_reduce) | dsimp only

theorem follows_vecCount {a s : State} (h : Follows a s) (f : Nat) (nonfinite : Nat) (saturated : Nat) :
    Follows a (State.vecCount s f nonfinite saturated) := by
  unfold State.vecCount
  repeat' first
    | with_reducible assumption | with_reducible apply follows_bump | with_reducible apply follows_event | with_reducible apply follows_modSeq
    | with_reducible apply follows_ite | split | (intro t x ht; try dsimp only) | (intro t ht; try dsimp only) | (intro v; try beta_reduce)
    | dsimp only

theorem follows_vecStalls {a s : State} (h : Follows a s) (f : Nat) (rows : List Nat) :
    Follows a (State.vecStalls s f rows) := by
  unfold State.vecStalls
  repeat' first
    | with_reducible assumption | with_reducible apply follows_bump | with_reducible apply follows_nextFree | with_reducible apply follows_ite | split
    | (intro t x ht; try dsimp only) | (intro t ht; try dsimp only) | (intro v; try beta_reduce) | dsimp only

theorem follows_vecLaunch {a s : State} (h : Follows a s) (h' : Hdr) (check : VecCheck) :
    Follows a (State.vecLaunch s h' check) := by
  unfold State.vecLaunch
  repeat' first
    | with_reducible assumption | with_reducible apply follows_launch | with_reducible apply follows_modSeq | with_reducible apply follows_vector
    | with_reducible apply follows_foldl | with_reducible apply follows_ite | split | (intro t x ht; try dsimp only) | (intro t ht; try dsimp only)
    | (intro v; try beta_reduce) | dsimp only

theorem follows_putVectors {a s : State} (h : Follows a s) (f : Nat) (dst : Nat) (fmt : Nat) (sigma : Nat) (tail : Nat → Nat) (vs : List (List FV)) :
    Follows a (State.putVectors s f dst fmt sigma tail vs) := by
  unfold State.putVectors
  repeat' first
    | with_reducible assumption | with_reducible apply follows_putRows | with_reducible apply follows_vecCount | with_reducible apply follows_foldl
    | with_reducible apply follows_ite | split | (intro t x ht; try dsimp only) | (intro t ht; try dsimp only) | (intro v; try beta_reduce)
    | dsimp only

theorem follows_vecIssue {a s : State} (h : Follows a s) (op : Nat) (d : Hdr) (o : VecOp) (check : VecCheck) (plan : State → VecDesc → VecPlan)
    (act : VecDesc → State → State) (hact : ∀ v t, Follows a t → Follows a (act v t)) : Follows a (s.vecIssue op d o check plan act) := by
  unfold State.vecIssue
  refine follows_issue h _ _ _ _ fun t ht => ?_
  exact follows_withRows ht _ _ _ _ fun u hu => follows_vecLaunch (follows_vecStalls (hact _ _ hu) _ _) _ _

theorem follows_vecMap {a s : State} (h : Follows a s) (op : Nat) (h' : Hdr) (o : VecOp) (outLen : VecDesc → Nat) (extra : State → VecDesc → List (List Nat)) (g : State → VecDesc → Nat → List FV → List FV) :
    Follows a (State.vecMap s op h' o outLen extra g) := by
  unfold State.vecMap
  repeat' first
    | with_reducible assumption | with_reducible apply follows_putVectors | with_reducible apply follows_vecCount
    | with_reducible apply follows_vecIssue | with_reducible apply follows_ite | split | (intro t x ht; try dsimp only) | (intro t ht; try dsimp only)
    | (intro v; try beta_reduce) | dsimp only

theorem follows_softmaxRun {a s : State} (h : Follows a s) (f : Nat) (x : SoftHeld) :
    Follows a (State.softmaxRun s f x) := by
  unfold State.softmaxRun
  repeat' first
    | with_reducible assumption | with_reducible apply follows_putVectors | with_reducible apply follows_vecCount | with_reducible apply follows_ite
    | split | (intro t x ht; try dsimp only) | (intro t ht; try dsimp only) | (intro v; try beta_reduce) | dsimp only

theorem follows_vectorNext {a s : State} (h : Follows a s) (f : Nat) :
    Follows a (State.vectorNext s f) := by
  unfold State.vectorNext
  repeat' first
    | with_reducible assumption | with_reducible apply follows_modSeq | with_reducible apply follows_softmaxRun | with_reducible apply follows_vector
    | with_reducible apply follows_ite | split | (intro t x ht; try dsimp only) | (intro t ht; try dsimp only) | (intro v; try beta_reduce)
    | dsimp only

theorem follows_loadImage {a s : State} (h : Follows a s) (f : Nat) (i : Image) :
    Follows a (State.loadImage s f i) := by
  unfold State.loadImage
  repeat' first
    | with_reducible assumption | with_reducible apply follows_aheadClear | with_reducible apply follows_dropSegment
    | with_reducible apply follows_modSeq | with_reducible apply follows_setReg | with_reducible apply follows_supEvent
    | with_reducible apply follows_event | with_reducible apply follows_ite | split | (intro t x ht; try dsimp only) | (intro t ht; try dsimp only)
    | (intro v; try beta_reduce) | dsimp only

theorem follows_noteImage {a s : State} (h : Follows a s) (a0 : Nat) :
    Follows a (State.noteImage s a0) := by
  unfold State.noteImage
  repeat' first
    | with_reducible assumption | with_reducible apply follows_noteRead | with_reducible apply follows_ite | split | (intro t x ht; try dsimp only)
    | (intro t ht; try dsimp only) | (intro v; try beta_reduce) | dsimp only

theorem follows_spanPrepare {a s : State} (h : Follows a s) (k : Nat) :
    Follows a (State.spanPrepare s k) := by
  unfold State.spanPrepare
  repeat' first
    | with_reducible assumption | with_reducible apply follows_loadImage | with_reducible apply follows_modSpan
    | with_reducible apply follows_noteImage | with_reducible apply follows_record | with_reducible apply follows_setSpanState
    | with_reducible apply follows_supEvent | with_reducible apply follows_writeKeystone | with_reducible apply follows_event
    | with_reducible apply follows_foldl | with_reducible apply follows_ite | split | (intro t x ht; try dsimp only) | (intro t ht; try dsimp only)
    | (intro v; try beta_reduce) | dsimp only

theorem follows_preparePending {a s : State} (h : Follows a s)  :
    Follows a (State.preparePending s) := by
  unfold State.preparePending
  repeat' first
    | with_reducible assumption | with_reducible apply follows_spanPrepare | with_reducible apply follows_foldl | with_reducible apply follows_ite
    | split | (intro t x ht; try dsimp only) | (intro t ht; try dsimp only) | (intro v; try beta_reduce) | dsimp only

theorem follows_createSpan {a s : State} (h : Follows a s) (k : Nat) :
    Follows a (State.createSpan s k) := by
  unfold State.createSpan
  repeat' first
    | with_reducible assumption | with_reducible apply follows_dropSegment | with_reducible apply follows_fieldServes
    | with_reducible apply follows_modSpan | with_reducible apply follows_pierWake | with_reducible apply follows_requestPoint
    | with_reducible apply follows_setReg | with_reducible apply follows_setSpanState | with_reducible apply follows_showCommitted
    | with_reducible apply follows_spanPrepare | with_reducible apply follows_specClear | with_reducible apply follows_foldl
    | with_reducible apply follows_ite | split | (intro t x ht; try dsimp only) | (intro t ht; try dsimp only) | (intro v; try beta_reduce)
    | dsimp only

theorem follows_resetSpan {a s : State} (h : Follows a s) (k : Nat) :
    Follows a (State.resetSpan s k) := by
  unfold State.resetSpan
  repeat' first
    | with_reducible assumption | with_reducible apply follows_engineAdvance | with_reducible apply follows_interrupt
    | with_reducible apply follows_modSpan | with_reducible apply follows_pierStop | with_reducible apply follows_seqWait
    | with_reducible apply follows_setSpanState | with_reducible apply follows_foldl | with_reducible apply follows_ite | split
    | (intro t x ht; try dsimp only) | (intro t ht; try dsimp only) | (intro v; try beta_reduce) | dsimp only

theorem follows_deleteSpan {a s : State} (h : Follows a s) (k : Nat) :
    Follows a (State.deleteSpan s k) := by
  unfold State.deleteSpan
  repeat' first
    | with_reducible assumption | with_reducible apply follows_fieldServes | with_reducible apply follows_modSpan
    | with_reducible apply follows_moverEpochs | with_reducible apply follows_requestPoint | with_reducible apply follows_seqEmpty
    | with_reducible apply follows_setReg | with_reducible apply follows_setRegAt | with_reducible apply follows_setSpanState
    | with_reducible apply follows_supEvent | with_reducible apply follows_event | with_reducible apply follows_foldl
    | with_reducible apply follows_ite | split | (intro t x ht; try dsimp only) | (intro t ht; try dsimp only) | (intro v; try beta_reduce)
    | dsimp only

theorem follows_expireTx {a s : State} (h : Follows a s) (who : Nat → Bool) :
    Follows a (State.expireTx s who) := by
  unfold State.expireTx
  repeat' first
    | with_reducible assumption | with_reducible apply follows_bump | with_reducible apply follows_modCtl | with_reducible apply follows_supEvent
    | with_reducible apply follows_vector | with_reducible apply follows_event | with_reducible apply follows_foldl | with_reducible apply follows_ite
    | split | (intro t x ht; try dsimp only) | (intro t ht; try dsimp only) | (intro v; try beta_reduce) | dsimp only

theorem follows_masterMoves {a s : State} (h : Follows a s) (f : Nat) :
    Follows a (State.masterMoves s f) := by
  unfold State.masterMoves
  repeat' first
    | with_reducible assumption | with_reducible apply follows_modClock | with_reducible apply follows_modClocks | with_reducible apply follows_foldl
    | with_reducible apply follows_ite | split | (intro t x ht; try dsimp only) | (intro t ht; try dsimp only) | (intro v; try beta_reduce)
    | dsimp only

theorem follows_switchSupervisor {a s : State} (h : Follows a s)  :
    Follows a (State.switchSupervisor s) := by
  unfold State.switchSupervisor
  repeat' first
    | with_reducible assumption | with_reducible apply follows_masterMoves | with_reducible apply follows_modCtl
    | with_reducible apply follows_supEvent | with_reducible apply follows_vector | with_reducible apply follows_event
    | with_reducible apply follows_ite | split | (intro t x ht; try dsimp only) | (intro t ht; try dsimp only) | (intro v; try beta_reduce)
    | dsimp only

theorem follows_rereadKeystone {a s : State} (h : Follows a s) (k : Nat) :
    Follows a (State.rereadKeystone s k) := by
  unfold State.rereadKeystone
  repeat' first
    | with_reducible assumption | with_reducible apply follows_membersRest | with_reducible apply follows_modSpan
    | with_reducible apply follows_noteRead | with_reducible apply follows_setSpanState | with_reducible apply follows_showCommitted
    | with_reducible apply follows_supEvent | with_reducible apply follows_writeKeystone | with_reducible apply follows_event
    | with_reducible apply follows_ite | split | (intro t x ht; try dsimp only) | (intro t ht; try dsimp only) | (intro v; try beta_reduce)
    | dsimp only

theorem follows_takeover {a s : State} (h : Follows a s)  :
    Follows a (State.takeover s) := by
  unfold State.takeover
  repeat' first
    | with_reducible assumption | with_reducible apply follows_bump | with_reducible apply follows_capacityChanged
    | with_reducible apply follows_draftWrite | with_reducible apply follows_expireTx | with_reducible apply follows_modCtl
    | with_reducible apply follows_rereadKeystone | with_reducible apply follows_switchSupervisor | with_reducible apply follows_foldl
    | with_reducible apply follows_ite | split | (intro t x ht; try dsimp only) | (intro t ht; try dsimp only) | (intro v; try beta_reduce)
    | dsimp only

theorem follows_mailboxWrite {a s : State} (h : Follows a s) (p : Pkt) (stream : Bool) (f : Nat) (off : Nat) (bytes : List Byte) :
    Follows a (State.mailboxWrite s p stream f off bytes) := by
  unfold State.mailboxWrite
  repeat' first
    | with_reducible assumption | with_reducible apply follows_answer | with_reducible apply follows_dropStale
    | with_reducible apply follows_interrupt | with_reducible apply follows_performed | with_reducible apply follows_violation
    | with_reducible apply follows_write | with_reducible apply follows_ite | split | (intro t x ht; try dsimp only) | (intro t ht; try dsimp only)
    | (intro v; try beta_reduce) | dsimp only

theorem follows_setProfile {a s : State} (h : Follows a s) (k : Nat) (v : Nat) :
    Follows a (State.setProfile s k v) := by
  unfold State.setProfile
  repeat' first
    | with_reducible assumption | with_reducible apply follows_setReg | with_reducible apply follows_supEvent | with_reducible apply follows_event
    | with_reducible apply follows_ite | split | (intro t x ht; try dsimp only) | (intro t ht; try dsimp only) | (intro v; try beta_reduce)
    | dsimp only

theorem follows_showPins {a s : State} (h : Follows a s) (old : State) :
    Follows a (State.showPins s old) := by
  unfold State.showPins
  repeat' first
    | with_reducible assumption | with_reducible apply follows_emit | with_reducible apply follows_ite | split | (intro t x ht; try dsimp only)
    | (intro t ht; try dsimp only) | (intro v; try beta_reduce) | dsimp only

theorem follows_powerOff {a s : State} (h : Follows a s) : Follows a s.powerOff := by
  unfold State.powerOff
  dsimp only
  refine follows_showPins (follows_setReg ?_ _ _ _) _
  refine follows_trans h ⟨rfl, ⟨[], rfl⟩, Nat.le_refl _, fun w => ?_⟩
  rw [State.wf_iff] at w
  refine ⟨?_, Nat.le_refl _⟩
  rw [State.wf_iff]
  refine ⟨Memory.wf_filter _ _ w.1, RegFile.wf_filter _ _ w.2.1, ?_, ?_⟩
  · have := (State.sized_iff s).1 w.2.2.1
    rw [State.sized_iff]
    exact ⟨by simpa using this.1, rfl, by simpa using this.2.2.1, rfl, rfl⟩
  · obtain ⟨w1, w2, w3, w4, w5, w6, w7, w8⟩ := (Recorder.numbered_iff _).1 w.2.2.2
    exact (Recorder.numbered_iff _).2 ⟨by simp [Recorder.powerLost], w2, by simp [Recorder.powerLost], w4, by simp [Recorder.powerLost],
      by simp [Recorder.powerLost, Recorder.unwritten], fun hc => ⟨rfl, (w7 hc).2⟩, w8⟩

theorem follows_persist {a s : State} (h : Follows a s)  :
    Follows a (State.persist s) := by
  unfold State.persist
  repeat' first
    | with_reducible assumption | with_reducible apply follows_modSupply | with_reducible apply follows_ite | split | (intro t x ht; try dsimp only)
    | (intro t ht; try dsimp only) | (intro v; try beta_reduce) | dsimp only

theorem follows_serveAll {a s : State} (h : Follows a s)  :
    Follows a (State.serveAll s) := by
  unfold State.serveAll
  repeat' first
    | with_reducible assumption | with_reducible apply follows_preparePending | with_reducible apply follows_tryReady
    | with_reducible apply follows_foldl | with_reducible apply follows_ite | split | (intro t x ht; try dsimp only) | (intro t ht; try dsimp only)
    | (intro v; try beta_reduce) | dsimp only

theorem follows_fastCheck {a s : State} (h : Follows a s)  :
    Follows a (State.fastCheck s) := by
  unfold State.fastCheck
  repeat' first
    | with_reducible assumption | with_reducible apply follows_modBoot | with_reducible apply follows_setReg | with_reducible apply follows_showPins
    | with_reducible apply follows_supEvent | with_reducible apply follows_event | with_reducible apply follows_ite | split
    | (intro t x ht; try dsimp only) | (intro t ht; try dsimp only) | (intro v; try beta_reduce) | dsimp only

theorem follows_modBankImg {a s : State} (h : Follows a s) (b : Bool) (g : BankImg → BankImg) :
    Follows a (State.modBankImg s b g) := by
  unfold State.modBankImg
  repeat' first
    | with_reducible assumption | with_reducible apply follows_modBoot | with_reducible apply follows_ite | split | (intro t x ht; try dsimp only)
    | (intro t ht; try dsimp only) | (intro v; try beta_reduce) | dsimp only

theorem follows_blowFuses {a s : State} (h : Follows a s) (off : Nat) (l : List Byte) :
    Follows a (State.blowFuses s off l) := by
  unfold State.blowFuses
  repeat' first
    | with_reducible assumption | with_reducible apply follows_setReg | with_reducible apply follows_ite | split | (intro t x ht; try dsimp only)
    | (intro t ht; try dsimp only) | (intro v; try beta_reduce) | dsimp only

theorem follows_updateRest {a s : State} (h : Follows a s)  :
    Follows a (State.updateRest s) := by
  unfold State.updateRest
  repeat' first
    | with_reducible assumption | with_reducible apply follows_setUpdate | with_reducible apply follows_ite | split | (intro t x ht; try dsimp only)
    | (intro t ht; try dsimp only) | (intro v; try beta_reduce) | dsimp only

theorem follows_stageOpen {a s : State} (h : Follows a s)  :
    Follows a (State.stageOpen s).1 := by
  unfold State.stageOpen
  repeat' first
    | with_reducible assumption | with_reducible apply follows_modBankImg | with_reducible apply follows_modBoot
    | with_reducible apply follows_setUpdate | with_reducible apply follows_wipe | with_reducible apply follows_ite | split
    | (intro t x ht; try dsimp only) | (intro t ht; try dsimp only) | (intro v; try beta_reduce) | dsimp only

theorem follows_stageWrite {a s : State} (h : Follows a s) (x : Nat) (l : List Byte) :
    Follows a (State.stageWrite s x l) := by
  unfold State.stageWrite
  repeat' first
    | with_reducible assumption | with_reducible apply follows_modBankImg | with_reducible apply follows_modBoot | with_reducible apply follows_write
    | with_reducible apply follows_ite | split | (intro t x ht; try dsimp only) | (intro t ht; try dsimp only) | (intro v; try beta_reduce)
    | dsimp only

theorem follows_packVerify {a s : State} (h : Follows a s)  :
    Follows a (State.packVerify s) := by
  unfold State.packVerify
  repeat' first
    | with_reducible assumption | with_reducible apply follows_modBoot | with_reducible apply follows_modTests | with_reducible apply follows_nextFree
    | with_reducible apply follows_setReg | with_reducible apply follows_supEvent | with_reducible apply follows_updateRest
    | with_reducible apply follows_event | with_reducible apply follows_ite | split | (intro t x ht; try dsimp only) | (intro t ht; try dsimp only)
    | (intro v; try beta_reduce) | dsimp only

theorem follows_stageVerify {a s : State} (h : Follows a s)  :
    Follows a (State.stageVerify s).1 := by
  unfold State.stageVerify
  repeat' first
    | with_reducible assumption | with_reducible apply follows_failed | with_reducible apply follows_modBankImg
    | with_reducible apply follows_nextFree | with_reducible apply follows_packVerify | with_reducible apply follows_setUpdate
    | with_reducible apply follows_supEvent | with_reducible apply follows_event | with_reducible apply follows_ite | split
    | (intro t x ht; try dsimp only) | (intro t ht; try dsimp only) | (intro v; try beta_reduce) | dsimp only

theorem follows_stageAbort {a s : State} (h : Follows a s)  :
    Follows a (State.stageAbort s).1 := by
  unfold State.stageAbort
  repeat' first
    | with_reducible assumption | with_reducible apply follows_failed | with_reducible apply follows_modBankImg | with_reducible apply follows_modBoot
    | with_reducible apply follows_updateRest | with_reducible apply follows_ite | split | (intro t x ht; try dsimp only)
    | (intro t ht; try dsimp only) | (intro v; try beta_reduce) | dsimp only

theorem follows_stageChunk {a s : State} (h : Follows a s) (v : List Byte) :
    Follows a (State.stageChunk s v).1 := by
  unfold State.stageChunk
  repeat' first
    | with_reducible assumption | with_reducible apply follows_stageWrite | with_reducible apply follows_ite | split | (intro t x ht; try dsimp only)
    | (intro t ht; try dsimp only) | (intro v; try beta_reduce) | dsimp only

theorem follows_stageDrop {a s : State} (h : Follows a s)  :
    Follows a (State.stageDrop s) := by
  unfold State.stageDrop
  repeat' first
    | with_reducible assumption | with_reducible apply follows_bump | with_reducible apply follows_modBoot | with_reducible apply follows_supEvent
    | with_reducible apply follows_event | with_reducible apply follows_ite | split | (intro t x ht; try dsimp only) | (intro t ht; try dsimp only)
    | (intro v; try beta_reduce) | dsimp only

theorem follows_stageWindow {a s : State} (h : Follows a s) (x : Nat) (l : List Byte) :
    Follows a (State.stageWindow s x l) := by
  unfold State.stageWindow
  repeat' first
    | with_reducible assumption | with_reducible apply follows_stageDrop | with_reducible apply follows_stageWrite | with_reducible apply follows_ite
    | split | (intro t x ht; try dsimp only) | (intro t ht; try dsimp only) | (intro v; try beta_reduce) | dsimp only

theorem follows_reserveLeaves {a s : State} (h : Follows a s)  :
    Follows a (State.reserveLeaves s) := by
  unfold State.reserveLeaves
  repeat' first
    | with_reducible assumption | with_reducible apply follows_modBoot | with_reducible apply follows_supEvent | with_reducible apply follows_event
    | with_reducible apply follows_ite | split | (intro t x ht; try dsimp only) | (intro t ht; try dsimp only) | (intro v; try beta_reduce)
    | dsimp only

theorem follows_newLeaves {a s : State} (h : Follows a s)  :
    Follows a (State.newLeaves s) := by
  unfold State.newLeaves
  repeat' first
    | with_reducible assumption | with_reducible apply follows_modBoot | with_reducible apply follows_reserveLeaves
    | with_reducible apply follows_supEvent | with_reducible apply follows_event | with_reducible apply follows_ite | split
    | (intro t x ht; try dsimp only) | (intro t ht; try dsimp only) | (intro v; try beta_reduce) | dsimp only

theorem follows_attest {a s : State} (h : Follows a s) (nonce : List Byte) :
    Follows a (State.attest s nonce) := by
  unfold State.attest
  repeat' first
    | with_reducible assumption | with_reducible apply follows_modBoot | with_reducible apply follows_reserveLeaves
    | with_reducible apply follows_setReg | with_reducible apply follows_supEvent | with_reducible apply follows_vector
    | with_reducible apply follows_event | with_reducible apply follows_ite | split | (intro t x ht; try dsimp only) | (intro t ht; try dsimp only)
    | (intro v; try beta_reduce) | dsimp only

theorem follows_digestFails {a s : State} (h : Follows a s) (f : Nat) (i : Nat) (b : Nat) :
    Follows a (State.digestFails s f i b) := by
  unfold State.digestFails
  repeat' first
    | with_reducible assumption | with_reducible apply follows_bump | with_reducible apply follows_chargePier | with_reducible apply follows_event
    | with_reducible apply follows_modBank | with_reducible apply follows_reportFail | with_reducible apply follows_ite | split
    | (intro t x ht; try dsimp only) | (intro t ht; try dsimp only) | (intro v; try beta_reduce) | dsimp only

end Sys2Proof.Machine
end

