-- ==== Sys2Proof/Laws/FollowsOps3.lean ====
section
/-! SUPPORT. `Follows` of the shared operations, part 3 of 3. -/

set_option linter.all false

namespace Sys2Proof.Machine

theorem follows_stopSpan {a s : State} (h : Follows a s) (k : Nat) :
    Follows a (State.stopSpan s k) := by
  unfold State.stopSpan
  repeat' first
    | with_reducible assumption | with_reducible apply follows_membersRest | with_reducible apply follows_modSpan
    | with_reducible apply follows_setSpanState | with_reducible apply follows_ite | split | (intro t x ht; try dsimp only)
    | (intro t ht; try dsimp only) | (intro v; try beta_reduce) | dsimp only

theorem follows_cover {a s : State} (h : Follows a s) (f : Nat) (pattern : Nat) (passed : Bool) :
    Follows a (State.cover s f pattern passed) := by
  unfold State.cover
  repeat' first
    | with_reducible assumption | with_reducible apply follows_modTests | with_reducible apply follows_setReg | with_reducible apply follows_ite
    | split | (intro t x ht; try dsimp only) | (intro t ht; try dsimp only) | (intro v; try beta_reduce) | dsimp only

theorem follows_testPauseEnds {a s : State} (h : Follows a s) (f : Nat) :
    Follows a (State.testPauseEnds s f) := by
  unfold State.testPauseEnds
  repeat' first
    | with_reducible assumption | with_reducible apply follows_modSpan | with_reducible apply follows_ite | split | (intro t x ht; try dsimp only)
    | (intro t ht; try dsimp only) | (intro v; try beta_reduce) | dsimp only

theorem follows_segmentFails {a s : State} (h : Follows a s) (f : Nat) (unit : Nat) (pattern : Nat) (charged : Nat) :
    Follows a (State.segmentFails s f unit pattern charged) := by
  unfold State.segmentFails
  repeat' first
    | with_reducible assumption | with_reducible apply follows_bump | with_reducible apply follows_charge | with_reducible apply follows_setReg
    | with_reducible apply follows_supEvent | with_reducible apply follows_event | with_reducible apply follows_ite | split
    | (intro t x ht; try dsimp only) | (intro t ht; try dsimp only) | (intro v; try beta_reduce) | dsimp only

theorem follows_testsOver {a s : State} (h : Follows a s) (u : Nat) :
    Follows a (State.testsOver s u) := by
  unfold State.testsOver
  repeat' first
    | with_reducible assumption | with_reducible apply follows_fieldTested | with_reducible apply follows_foldl | with_reducible apply follows_ite
    | split | (intro t x ht; try dsimp only) | (intro t ht; try dsimp only) | (intro v; try beta_reduce) | dsimp only

theorem follows_testWaitOver {a s : State} (h : Follows a s) (k : Nat) :
    Follows a (State.testWaitOver s k) := by
  unfold State.testWaitOver
  repeat' first
    | with_reducible assumption | with_reducible apply follows_modSpan | with_reducible apply follows_ite | split | (intro t x ht; try dsimp only)
    | (intro t ht; try dsimp only) | (intro v; try beta_reduce) | dsimp only

theorem follows_foundNothing {a s : State} (h : Follows a s) (u : Nat) :
    Follows a (State.foundNothing s u) := by
  unfold State.foundNothing
  repeat' first
    | with_reducible assumption | with_reducible apply follows_modFaults | with_reducible apply follows_retireDue | with_reducible apply follows_ite
    | split | (intro t x ht; try dsimp only) | (intro t ht; try dsimp only) | (intro v; try beta_reduce) | dsimp only

theorem follows_locatedDone {a s : State} (h : Follows a s) (u : Nat) (hits : List Nat) :
    Follows a (State.locatedDone s u hits) := by
  unfold State.locatedDone
  repeat' first
    | with_reducible assumption | with_reducible apply follows_foundNothing | with_reducible apply follows_modFaults
    | with_reducible apply follows_retireDue | with_reducible apply follows_testWaitOver | with_reducible apply follows_testsOver
    | with_reducible apply follows_foldl | with_reducible apply follows_ite | split | (intro t x ht; try dsimp only) | (intro t ht; try dsimp only)
    | (intro v; try beta_reduce) | dsimp only

theorem follows_suspectDone {a s : State} (h : Follows a s) (u : Nat) (hits : List Nat) (k : Nat) :
    Follows a (State.suspectDone s u hits k) := by
  unfold State.suspectDone
  repeat' first
    | with_reducible assumption | with_reducible apply follows_modSpan | with_reducible apply follows_needEpoch
    | with_reducible apply follows_retireDue | with_reducible apply follows_testWaitOver | with_reducible apply follows_testsOver
    | with_reducible apply follows_foldl | with_reducible apply follows_ite | split | (intro t x ht; try dsimp only) | (intro t ht; try dsimp only)
    | (intro v; try beta_reduce) | dsimp only

theorem follows_recoveryDone {a s : State} (h : Follows a s) (k : Nat) :
    Follows a (State.recoveryDone s k) := by
  unfold State.recoveryDone
  repeat' first
    | with_reducible assumption | with_reducible apply follows_bump | with_reducible apply follows_newEpoch | with_reducible apply follows_recover
    | with_reducible apply follows_settle | with_reducible apply follows_ite | split | (intro t x ht; try dsimp only) | (intro t ht; try dsimp only)
    | (intro v; try beta_reduce) | dsimp only

theorem follows_spareTakes {a s : State} (h : Follows a s) (k : Nat) (l : Nat) (g : Nat) :
    Follows a (State.spareTakes s k l g) := by
  unfold State.spareTakes
  repeat' first
    | with_reducible assumption | with_reducible apply follows_fieldServes | with_reducible apply follows_modField
    | with_reducible apply follows_modSpan | with_reducible apply follows_seqEmpty | with_reducible apply follows_setPlacementByte
    | with_reducible apply follows_setReg | with_reducible apply follows_supEvent | with_reducible apply follows_event
    | with_reducible apply follows_ite | split | (intro t x ht; try dsimp only) | (intro t ht; try dsimp only) | (intro v; try beta_reduce)
    | dsimp only

theorem follows_planGroups {a s : State} (h : Follows a s) (k : Nat) (addr : Nat) :
    Follows a (State.planGroups s k addr) := by
  unfold State.planGroups
  repeat' first
    | with_reducible assumption | with_reducible apply follows_noteRead | with_reducible apply follows_setRegAt | with_reducible apply follows_foldl
    | with_reducible apply follows_ite | split | (intro t x ht; try dsimp only) | (intro t ht; try dsimp only) | (intro v; try beta_reduce)
    | dsimp only

theorem follows_installPlan {a s : State} (h : Follows a s) (k : Nat) (l : Nat) (i : Nat) (bytes : List Byte) :
    Follows a (State.installPlan s k l i bytes) := by
  unfold State.installPlan
  repeat' first
    | with_reducible assumption | with_reducible apply follows_fieldServes | with_reducible apply follows_loadImage
    | with_reducible apply follows_modSpan | with_reducible apply follows_planGroups | with_reducible apply follows_requestPoint
    | with_reducible apply follows_seqEmpty | with_reducible apply follows_setReg | with_reducible apply follows_supEvent
    | with_reducible apply follows_event | with_reducible apply follows_foldl | with_reducible apply follows_ite | split
    | (intro t x ht; try dsimp only) | (intro t ht; try dsimp only) | (intro v; try beta_reduce) | dsimp only

theorem follows_alertActs {a s : State} (h : Follows a s)  :
    Follows a (State.alertActs s) := by
  unfold State.alertActs
  repeat' first
    | with_reducible assumption | with_reducible apply follows_modPower | with_reducible apply follows_setCapLimit
    | with_reducible apply follows_foldl | with_reducible apply follows_ite | split | (intro t x ht; try dsimp only) | (intro t ht; try dsimp only)
    | (intro v; try beta_reduce) | dsimp only

theorem follows_alertEnds {a s : State} (h : Follows a s)  :
    Follows a (State.alertEnds s) := by
  unfold State.alertEnds
  repeat' first
    | with_reducible assumption | with_reducible apply follows_modSupply | with_reducible apply follows_powerAll | with_reducible apply follows_ite
    | split | (intro t x ht; try dsimp only) | (intro t ht; try dsimp only) | (intro v; try beta_reduce) | dsimp only

theorem follows_fieldWaking {a s : State} (h : Follows a s) (f : Nat) :
    Follows a (State.fieldWaking s f) := by
  unfold State.fieldWaking
  repeat' first
    | with_reducible assumption | with_reducible apply follows_modField | with_reducible apply follows_setFieldState
    | with_reducible apply follows_ite | split | (intro t x ht; try dsimp only) | (intro t ht; try dsimp only) | (intro v; try beta_reduce)
    | dsimp only

theorem follows_countBubbles {a s : State} (h : Follows a s) (f : Nat) (b : Nat × Nat) :
    Follows a (State.countBubbles s f b) := by
  unfold State.countBubbles
  repeat' first
    | with_reducible assumption | with_reducible apply follows_bump | with_reducible apply follows_nextFree | with_reducible apply follows_ite | split
    | (intro t x ht; try dsimp only) | (intro t ht; try dsimp only) | (intro v; try beta_reduce) | dsimp only

theorem follows_zoneMeasured {a s : State} (h : Follows a s) (f : Nat) (ma : Nat) :
    Follows a (State.zoneMeasured s f ma) := by
  unfold State.zoneMeasured
  repeat' first
    | with_reducible assumption | with_reducible apply follows_modSupply | with_reducible apply follows_ite | split | (intro t x ht; try dsimp only)
    | (intro t ht; try dsimp only) | (intro v; try beta_reduce) | dsimp only

theorem follows_pierOn {a s : State} (h : Follows a s) (f : Nat) :
    Follows a (State.pierOn s f) := by
  unfold State.pierOn
  repeat' first
    | with_reducible assumption | with_reducible apply follows_banksPending | with_reducible apply follows_banksWake
    | with_reducible apply follows_modArray | with_reducible apply follows_modPower | with_reducible apply follows_modSpan
    | with_reducible apply follows_powerUpdate | with_reducible apply follows_setPierPower | with_reducible apply follows_settle
    | with_reducible apply follows_ite | split | (intro t x ht; try dsimp only) | (intro t ht; try dsimp only) | (intro v; try beta_reduce)
    | exact follows_fst (by with_reducible assumption) (by first | with_reducible assumption | skip) | dsimp only

theorem follows_heatOff {a s : State} (h : Follows a s) (f : Nat) :
    Follows a (State.heatOff s f) := by
  unfold State.heatOff
  repeat' first
    | with_reducible assumption | with_reducible apply follows_markPause | with_reducible apply follows_modPower
    | with_reducible apply follows_pauseNow | with_reducible apply follows_pierHeatOff | with_reducible apply follows_ite | split
    | (intro t x ht; try dsimp only) | (intro t ht; try dsimp only) | (intro v; try beta_reduce) | dsimp only

theorem follows_throttle {a s : State} (h : Follows a s) (f : Nat) :
    Follows a (State.throttle s f) := by
  unfold State.throttle
  repeat' first
    | with_reducible assumption | with_reducible apply follows_event | with_reducible apply follows_modPower
    | with_reducible apply follows_powerUpdate | with_reducible apply follows_ite | split | (intro t x ht; try dsimp only)
    | (intro t ht; try dsimp only) | (intro v; try beta_reduce) | dsimp only

theorem follows_fieldBack {a s : State} (h : Follows a s) (f : Nat) (k : Nat) :
    Follows a (State.fieldBack s f k) := by
  unfold State.fieldBack
  repeat' first
    | with_reducible assumption | with_reducible apply follows_loadImage | with_reducible apply follows_modSpan
    | with_reducible apply follows_pierWake | with_reducible apply follows_supEvent | with_reducible apply follows_event
    | with_reducible apply follows_ite | split | (intro t x ht; try dsimp only) | (intro t ht; try dsimp only) | (intro v; try beta_reduce)
    | dsimp only

theorem follows_mapBlank {a s : State} (h : Follows a s)  :
    Follows a (State.mapBlank s) := by
  unfold State.mapBlank
  repeat' first
    | with_reducible assumption | with_reducible apply follows_modBoot | with_reducible apply follows_modFaults | with_reducible apply follows_setReg
    | with_reducible apply follows_supEvent | with_reducible apply follows_event | with_reducible apply follows_foldl
    | with_reducible apply follows_ite | split | (intro t x ht; try dsimp only) | (intro t ht; try dsimp only) | (intro v; try beta_reduce)
    | dsimp only

theorem follows_mapRead {a s : State} (h : Follows a s) (badA : Bool) (badB : Bool) :
    Follows a (State.mapRead s badA badB) := by
  unfold State.mapRead
  repeat' first
    | with_reducible assumption | with_reducible apply follows_mapBlank | with_reducible apply follows_modBoot
    | with_reducible apply follows_modFaults | with_reducible apply follows_ite | split | (intro t x ht; try dsimp only)
    | (intro t ht; try dsimp only) | (intro v; try beta_reduce) | dsimp only

theorem follows_fieldLoad {a s : State} (h : Follows a s) (f : Nat) :
    Follows a (State.fieldLoad s f) := by
  unfold State.fieldLoad
  repeat' first
    | with_reducible assumption | with_reducible apply follows_modField | with_reducible apply follows_setReg | with_reducible apply follows_ite
    | split | (intro t x ht; try dsimp only) | (intro t ht; try dsimp only) | (intro v; try beta_reduce) | dsimp only

theorem follows_channelLoad {a s : State} (h : Follows a s) (c : Nat) :
    Follows a (State.channelLoad s c) := by
  unfold State.channelLoad
  repeat' first
    | with_reducible assumption | with_reducible apply follows_modChannel | with_reducible apply follows_ite | split | (intro t x ht; try dsimp only)
    | (intro t ht; try dsimp only) | (intro v; try beta_reduce) | dsimp only

theorem follows_portLoad {a s : State} (h : Follows a s) (p : Nat) :
    Follows a (State.portLoad s p) := by
  unfold State.portLoad
  repeat' first
    | with_reducible assumption | with_reducible apply follows_modLink | with_reducible apply follows_ite | split | (intro t x ht; try dsimp only)
    | (intro t ht; try dsimp only) | (intro v; try beta_reduce) | dsimp only

theorem follows_meshLoad {a s : State} (h : Follows a s)  :
    Follows a (State.meshLoad s) := by
  unfold State.meshLoad
  repeat' first
    | with_reducible assumption | with_reducible apply follows_modMesh | with_reducible apply follows_rerouted | with_reducible apply follows_ite
    | split | (intro t x ht; try dsimp only) | (intro t ht; try dsimp only) | (intro v; try beta_reduce) | dsimp only

theorem follows_supervisorsLoad {a s : State} (h : Follows a s)  :
    Follows a (State.supervisorsLoad s) := by
  unfold State.supervisorsLoad
  repeat' first
    | with_reducible assumption | with_reducible apply follows_modCtl | with_reducible apply follows_ite | split | (intro t x ht; try dsimp only)
    | (intro t ht; try dsimp only) | (intro v; try beta_reduce) | dsimp only

theorem follows_mapLoad {a s : State} (h : Follows a s)  :
    Follows a (State.mapLoad s) := by
  unfold State.mapLoad
  repeat' first
    | with_reducible assumption | with_reducible apply follows_channelLoad | with_reducible apply follows_fieldLoad
    | with_reducible apply follows_meshLoad | with_reducible apply follows_modBoot | with_reducible apply follows_modEth
    | with_reducible apply follows_modFaults | with_reducible apply follows_modSet | with_reducible apply follows_portLoad
    | with_reducible apply follows_setTested | with_reducible apply follows_supervisorsLoad | with_reducible apply follows_foldl
    | with_reducible apply follows_ite | split | (intro t x ht; try dsimp only) | (intro t ht; try dsimp only) | (intro v; try beta_reduce)
    | dsimp only

theorem follows_nextRound {a s : State} (h : Follows a s)  :
    Follows a (State.nextRound s) := by
  unfold State.nextRound
  repeat' first
    | with_reducible assumption | with_reducible apply follows_modTower | with_reducible apply follows_foldl | with_reducible apply follows_ite
    | split | (intro t x ht; try dsimp only) | (intro t ht; try dsimp only) | (intro v; try beta_reduce) | dsimp only

theorem follows_stepEnded {a s : State} (h : Follows a s) (n : Nat) :
    Follows a (State.stepEnded s n) := by
  unfold State.stepEnded
  repeat' first
    | with_reducible assumption | with_reducible apply follows_modBoot | with_reducible apply follows_supEvent | with_reducible apply follows_event
    | with_reducible apply follows_ite | split | (intro t x ht; try dsimp only) | (intro t ht; try dsimp only) | (intro v; try beta_reduce)
    | dsimp only

theorem follows_firmwareRuns {a s : State} (h : Follows a s) (flash : FlashFinding) :
    Follows a (State.firmwareRuns s flash) := by
  unfold State.firmwareRuns
  repeat' first
    | with_reducible assumption | with_reducible apply follows_newLeaves | with_reducible apply follows_recorderStarts
    | with_reducible apply follows_stepEnded | with_reducible apply follows_ite | split | (intro t x ht; try dsimp only)
    | (intro t ht; try dsimp only) | (intro v; try beta_reduce) | dsimp only

theorem follows_bootOther {a s : State} (h : Follows a s)  :
    Follows a (State.bootOther s) := by
  unfold State.bootOther
  repeat' first
    | with_reducible assumption | with_reducible apply follows_failed | with_reducible apply follows_modBankImg | with_reducible apply follows_modBoot
    | with_reducible apply follows_ite | split | (intro t x ht; try dsimp only) | (intro t ht; try dsimp only) | (intro v; try beta_reduce)
    | dsimp only

theorem follows_recovered {a s : State} (h : Follows a s) (flash : FlashFinding) :
    Follows a (State.recovered s flash) := by
  unfold State.recovered
  repeat' first
    | with_reducible assumption | with_reducible apply follows_failed | with_reducible apply follows_firmwareRuns
    | with_reducible apply follows_modBankImg | with_reducible apply follows_modBoot | with_reducible apply follows_supEvent
    | with_reducible apply follows_wipe | with_reducible apply follows_write | with_reducible apply follows_event | with_reducible apply follows_ite
    | split | (intro t x ht; try dsimp only) | (intro t ht; try dsimp only) | (intro v; try beta_reduce) | dsimp only

theorem follows_fusesRead {a s : State} (h : Follows a s) (unreadable : Bool) :
    Follows a (State.fusesRead s unreadable) := by
  unfold State.fusesRead
  repeat' first
    | with_reducible assumption | with_reducible apply follows_modBoot | with_reducible apply follows_supEvent | with_reducible apply follows_event
    | with_reducible apply follows_ite | split | (intro t x ht; try dsimp only) | (intro t ht; try dsimp only) | (intro v; try beta_reduce)
    | dsimp only

theorem follows_mapsApplied {a s : State} (h : Follows a s) (badA : Bool) (badB : Bool) :
    Follows a (State.mapsApplied s badA badB) := by
  unfold State.mapsApplied
  repeat' first
    | with_reducible assumption | with_reducible apply follows_mapLoad | with_reducible apply follows_mapRead | with_reducible apply follows_stepEnded
    | with_reducible apply follows_ite | split | (intro t x ht; try dsimp only) | (intro t ht; try dsimp only) | (intro v; try beta_reduce)
    | dsimp only

theorem follows_fieldsWake {a s : State} (h : Follows a s)  :
    Follows a (State.fieldsWake s) := by
  unfold State.fieldsWake
  repeat' first
    | with_reducible assumption | with_reducible apply follows_fieldWaking | with_reducible apply follows_modClocks
    | with_reducible apply follows_foldl | with_reducible apply follows_ite | split | (intro t x ht; try dsimp only) | (intro t ht; try dsimp only)
    | (intro v; try beta_reduce) | dsimp only

theorem follows_piersWake {a s : State} (h : Follows a s)  :
    Follows a (State.piersWake s) := by
  unfold State.piersWake
  repeat' first
    | with_reducible assumption | with_reducible apply follows_modEth | with_reducible apply follows_pierWake
    | with_reducible apply follows_setChannelState | with_reducible apply follows_setFieldState | with_reducible apply follows_foldl
    | with_reducible apply follows_ite | split | (intro t x ht; try dsimp only) | (intro t ht; try dsimp only) | (intro v; try beta_reduce)
    | dsimp only

theorem follows_portsTrain {a s : State} (h : Follows a s)  :
    Follows a (State.portsTrain s) := by
  unfold State.portsTrain
  repeat' first
    | with_reducible assumption | with_reducible apply follows_setPortState | with_reducible apply follows_foldl | with_reducible apply follows_ite
    | split | (intro t x ht; try dsimp only) | (intro t ht; try dsimp only) | (intro v; try beta_reduce) | dsimp only

theorem follows_portsLeft {a s : State} (h : Follows a s)  :
    Follows a (State.portsLeft s) := by
  unfold State.portsLeft
  repeat' first
    | with_reducible assumption | with_reducible apply follows_setPortState | with_reducible apply follows_foldl | with_reducible apply follows_ite
    | split | (intro t x ht; try dsimp only) | (intro t ht; try dsimp only) | (intro v; try beta_reduce) | dsimp only

theorem follows_bistDone {a s : State} (h : Follows a s) (failed : List Nat) :
    Follows a (State.bistDone s failed) := by
  unfold State.bistDone
  repeat' first
    | with_reducible assumption | with_reducible apply follows_failed | with_reducible apply follows_modBoot | with_reducible apply follows_modFaults
    | with_reducible apply follows_modField | with_reducible apply follows_retireUnit | with_reducible apply follows_wipe
    | with_reducible apply follows_foldl | with_reducible apply follows_ite | split | (intro t x ht; try dsimp only) | (intro t ht; try dsimp only)
    | (intro v; try beta_reduce) | dsimp only

theorem follows_fullReady {a s : State} (h : Follows a s)  :
    Follows a (State.fullReady s) := by
  unfold State.fullReady
  repeat' first
    | with_reducible assumption | with_reducible apply follows_modBoot | with_reducible apply follows_serveAll | with_reducible apply follows_setReg
    | with_reducible apply follows_settle | with_reducible apply follows_supEvent | with_reducible apply follows_event
    | with_reducible apply follows_ite | split | (intro t x ht; try dsimp only) | (intro t ht; try dsimp only) | (intro v; try beta_reduce)
    | dsimp only

theorem follows_activateAt {a s : State} (h : Follows a s) (t : Nat) :
    Follows a (State.activateAt s t) := by
  unfold State.activateAt
  repeat' first
    | with_reducible assumption | with_reducible apply follows_setReg | with_reducible apply follows_setUpdate | with_reducible apply follows_supEvent
    | with_reducible apply follows_updateRest | with_reducible apply follows_event | with_reducible apply follows_ite | split
    | (intro t x ht; try dsimp only) | (intro t ht; try dsimp only) | (intro v; try beta_reduce) | dsimp only

theorem follows_restartField {a s : State} (h : Follows a s) (f : Nat) :
    Follows a (State.restartField s f) := by
  unfold State.restartField
  repeat' first
    | with_reducible assumption | with_reducible apply follows_interrupt | with_reducible apply follows_modBoot
    | with_reducible apply follows_pauseFor | with_reducible apply follows_settle | with_reducible apply follows_ite | split
    | (intro t x ht; try dsimp only) | (intro t ht; try dsimp only) | (intro v; try beta_reduce) | dsimp only

theorem follows_activateNext {a s : State} (h : Follows a s)  :
    Follows a (State.activateNext s) := by
  unfold State.activateNext
  repeat' first
    | with_reducible assumption | with_reducible apply follows_modBoot | with_reducible apply follows_restartField
    | with_reducible apply follows_setUpdate | with_reducible apply follows_ite | split | (intro t x ht; try dsimp only)
    | (intro t ht; try dsimp only) | (intro v; try beta_reduce) | dsimp only

theorem follows_oldBuild {a s : State} (h : Follows a s)  :
    Follows a (State.oldBuild s) := by
  unfold State.oldBuild
  repeat' first
    | with_reducible assumption | with_reducible apply follows_modField | with_reducible apply follows_foldl | with_reducible apply follows_ite
    | split | (intro t x ht; try dsimp only) | (intro t ht; try dsimp only) | (intro v; try beta_reduce) | dsimp only

theorem follows_rolledBack {a s : State} (h : Follows a s)  :
    Follows a (State.rolledBack s) := by
  unfold State.rolledBack
  repeat' first
    | with_reducible assumption | with_reducible apply follows_failed | with_reducible apply follows_modBankImg
    | with_reducible apply follows_oldBuild | with_reducible apply follows_setUpdate | with_reducible apply follows_supEvent
    | with_reducible apply follows_event | with_reducible apply follows_ite | split | (intro t x ht; try dsimp only) | (intro t ht; try dsimp only)
    | (intro v; try beta_reduce) | dsimp only

theorem follows_rollbackCheck {a s : State} (h : Follows a s)  :
    Follows a (State.rollbackCheck s) := by
  unfold State.rollbackCheck
  repeat' first
    | with_reducible assumption | with_reducible apply follows_rolledBack | with_reducible apply follows_ite | split | (intro t x ht; try dsimp only)
    | (intro t ht; try dsimp only) | (intro v; try beta_reduce) | dsimp only

theorem follows_rollBack {a s : State} (h : Follows a s)  :
    Follows a (State.rollBack s) := by
  unfold State.rollBack
  repeat' first
    | with_reducible assumption | with_reducible apply follows_modBoot | with_reducible apply follows_rollbackCheck
    | with_reducible apply follows_setUpdate | with_reducible apply follows_ite | split | (intro t x ht; try dsimp only)
    | (intro t ht; try dsimp only) | (intro v; try beta_reduce) | dsimp only

theorem follows_rollbackNext {a s : State} (h : Follows a s)  :
    Follows a (State.rollbackNext s) := by
  unfold State.rollbackNext
  repeat' first
    | with_reducible assumption | with_reducible apply follows_modBoot | with_reducible apply follows_restartField
    | with_reducible apply follows_rollbackCheck | with_reducible apply follows_ite | split | (intro t x ht; try dsimp only)
    | (intro t ht; try dsimp only) | (intro v; try beta_reduce) | dsimp only

theorem follows_imageReload {a s : State} (h : Follows a s) (f : Nat) :
    Follows a (State.imageReload s f) := by
  unfold State.imageReload
  repeat' first
    | with_reducible assumption | with_reducible apply follows_loadImage | with_reducible apply follows_supEvent | with_reducible apply follows_event
    | with_reducible apply follows_ite | split | (intro t x ht; try dsimp only) | (intro t ht; try dsimp only) | (intro v; try beta_reduce)
    | dsimp only

theorem follows_activationCommit {a s : State} (h : Follows a s)  :
    Follows a (State.activationCommit s) := by
  unfold State.activationCommit
  repeat' first
    | with_reducible assumption | with_reducible apply follows_blowFuses | with_reducible apply follows_modBankImg
    | with_reducible apply follows_modBoot | with_reducible apply follows_oldBuild | with_reducible apply follows_setUpdate
    | with_reducible apply follows_supEvent | with_reducible apply follows_event | with_reducible apply follows_ite | split
    | (intro t x ht; try dsimp only) | (intro t ht; try dsimp only) | (intro v; try beta_reduce) | dsimp only

theorem follows_ethDown {a s : State} (h : Follows a s) (e : Nat) :
    Follows a (State.ethDown s e) := by
  unfold State.ethDown
  repeat' first
    | with_reducible assumption | with_reducible apply follows_capacityChanged | with_reducible apply follows_event
    | with_reducible apply follows_modEth | with_reducible apply follows_ite | split | (intro t x ht; try dsimp only) | (intro t ht; try dsimp only)
    | (intro v; try beta_reduce) | dsimp only

theorem follows_ethModeSet {a s : State} (h : Follows a s) (e : Nat) (v : Nat) :
    Follows a (State.ethModeSet s e v) := by
  unfold State.ethModeSet
  repeat' first
    | with_reducible assumption | with_reducible apply follows_ethDown | with_reducible apply follows_setReg | with_reducible apply follows_ite
    | split | (intro t x ht; try dsimp only) | (intro t ht; try dsimp only) | (intro v; try beta_reduce) | dsimp only

theorem follows_ethFrame {a s : State} (h : Follows a s) (e : Nat) (k : OtherFrame) :
    Follows a (State.ethFrame s e k) := by
  unfold State.ethFrame
  repeat' first
    | with_reducible assumption | with_reducible apply follows_answer | with_reducible apply follows_bump | with_reducible apply follows_emit
    | with_reducible apply follows_frameDrop | with_reducible apply follows_ite | split | (intro t x ht; try dsimp only)
    | (intro t ht; try dsimp only) | (intro v; try beta_reduce) | dsimp only

theorem follows_t1sFrame {a s : State} (h : Follows a s) (p : Nat) (k : OtherFrame) :
    Follows a (State.t1sFrame s p k) := by
  unfold State.t1sFrame
  repeat' first
    | with_reducible assumption | with_reducible apply follows_answer | with_reducible apply follows_bump | with_reducible apply follows_emit
    | with_reducible apply follows_ite | split | (intro t x ht; try dsimp only) | (intro t ht; try dsimp only) | (intro v; try beta_reduce)
    | dsimp only

theorem follows_groupSet {a s : State} (h : Follows a s) (g : Nat) (l : List Byte) :
    Follows a (State.groupSet s g l) := by
  unfold State.groupSet
  repeat' first
    | with_reducible assumption | with_reducible apply follows_modPorts | with_reducible apply follows_setReg | with_reducible apply follows_ite
    | split | (intro t x ht; try dsimp only) | (intro t ht; try dsimp only) | (intro v; try beta_reduce) | dsimp only

theorem follows_modStream {a s : State} (h : Follows a s) (i : Nat) (g : Stream → Stream) :
    Follows a (State.modStream s i g) := by
  unfold State.modStream
  repeat' first
    | with_reducible assumption | with_reducible apply follows_modPorts | with_reducible apply follows_ite | split | (intro t ht; exact ht)
    | (intro t x ht; try dsimp only) | (intro t ht; try dsimp only) | (intro v; try beta_reduce) | dsimp only

theorem follows_streamOut {a s : State} (h : Follows a s) (x : Stream) (rtcp : Nat) (l : List Byte) :
    Follows a (State.streamOut s x rtcp l) := by
  unfold State.streamOut
  repeat' first
    | with_reducible assumption | with_reducible apply follows_frameOut | with_reducible apply follows_ite | split | (intro t x ht; try dsimp only)
    | (intro t ht; try dsimp only) | (intro v; try beta_reduce) | dsimp only

theorem follows_streamSet {a s : State} (h : Follows a s) (i : Nat) (l : List Byte) :
    Follows a (State.streamSet s i l) := by
  unfold State.streamSet
  repeat' first
    | with_reducible assumption | with_reducible apply follows_modPorts | with_reducible apply follows_nextFree
    | with_reducible apply follows_streamOut | with_reducible apply follows_ite | split | (intro t ht; exact ht) | (intro t x ht; try dsimp only)
    | (intro t ht; try dsimp only) | (intro v; try beta_reduce) | dsimp only

theorem follows_rtpTaken {a s : State} (h : Follows a s) (x : Stream) (p : RtpPkt) :
    Follows a (State.rtpTaken s x p) := by
  unfold State.rtpTaken
  repeat' first
    | with_reducible assumption | with_reducible apply follows_modStream | with_reducible apply follows_ite | split | (intro t ht; exact ht)
    | (intro t x ht; try dsimp only) | (intro t ht; try dsimp only) | (intro v; try beta_reduce) | dsimp only

theorem follows_streamSend {a s : State} (h : Follows a s) (d : List Byte) (block : List Byte) (x : Stream) (t : Nat) :
    Follows a (State.streamSend s d block x t) := by
  unfold State.streamSend
  repeat' first
    | with_reducible assumption | with_reducible apply follows_modStream | with_reducible apply follows_streamOut | with_reducible apply follows_ite
    | split | (intro t ht; exact ht) | (intro t x ht; try dsimp only) | (intro t ht; try dsimp only) | (intro v; try beta_reduce) | dsimp only

theorem follows_streamSent {a s : State} (h : Follows a s) (d : List Byte) (block : List Byte) (x : Stream) (t : Nat) :
    Follows a (State.streamSent s d block x t) := by
  unfold State.streamSent
  repeat' first
    | with_reducible assumption | with_reducible apply follows_streamSend | with_reducible apply follows_ite | split | (intro t x ht; try dsimp only)
    | (intro t ht; try dsimp only) | (intro v; try beta_reduce) | dsimp only

theorem follows_linkMeasured {a s : State} (h : Follows a s) (p : Nat) (good : Nat) (serial : Nat) (peerPort : Nat) (cross : Nat) :
    Follows a (State.linkMeasured s p good serial peerPort cross) := by
  unfold State.linkMeasured
  repeat' first
    | with_reducible assumption | with_reducible apply follows_setReg | with_reducible apply follows_ite | split | (intro t x ht; try dsimp only)
    | (intro t ht; try dsimp only) | (intro v; try beta_reduce) | dsimp only

theorem follows_linkSaved {a s : State} (h : Follows a s) (p : Nat) (serial : Nat) :
    Follows a (State.linkSaved s p serial) := by
  unfold State.linkSaved
  repeat' first
    | with_reducible assumption | with_reducible apply follows_modBoot | with_reducible apply follows_setReg | with_reducible apply follows_supEvent
    | with_reducible apply follows_event | with_reducible apply follows_ite | split | (intro t x ht; try dsimp only) | (intro t ht; try dsimp only)
    | (intro v; try beta_reduce) | dsimp only

theorem follows_linkBack {a s : State} (h : Follows a s) (p : Nat) :
    Follows a (State.linkBack s p) := by
  unfold State.linkBack
  repeat' first
    | with_reducible assumption | with_reducible apply follows_modSpan | with_reducible apply follows_foldl | with_reducible apply follows_ite | split
    | (intro t x ht; try dsimp only) | (intro t ht; try dsimp only) | (intro v; try beta_reduce) | dsimp only

theorem follows_linkUp {a s : State} (h : Follows a s) (p : Nat) (good : Nat) :
    Follows a (State.linkUp s p good) := by
  unfold State.linkUp
  repeat' first
    | with_reducible assumption | with_reducible apply follows_linkBack | with_reducible apply follows_modLink | with_reducible apply follows_setLanes
    | with_reducible apply follows_setPortState | with_reducible apply follows_ite | split | (intro t x ht; try dsimp only)
    | (intro t ht; try dsimp only) | (intro v; try beta_reduce) | dsimp only

theorem follows_linkOff {a s : State} (h : Follows a s) (p : Nat) :
    Follows a (State.linkOff s p) := by
  unfold State.linkOff
  repeat' first
    | with_reducible assumption | with_reducible apply follows_linkMeasured | with_reducible apply follows_modLink
    | with_reducible apply follows_setLanes | with_reducible apply follows_setPortState | with_reducible apply follows_ite | split
    | (intro t x ht; try dsimp only) | (intro t ht; try dsimp only) | (intro v; try beta_reduce) | dsimp only

theorem follows_linkLost {a s : State} (h : Follows a s) (p : Nat) :
    Follows a (State.linkLost s p) := by
  unfold State.linkLost
  repeat' first
    | with_reducible assumption | with_reducible apply follows_linkBack | with_reducible apply follows_linkOff | with_reducible apply follows_portGone
    | with_reducible apply follows_settle | with_reducible apply follows_ite | split | (intro t x ht; try dsimp only) | (intro t ht; try dsimp only)
    | (intro v; try beta_reduce) | dsimp only

theorem follows_linkTrained {a s : State} (h : Follows a s) (p : Nat) (good : Nat) (serial : Nat) (peerPort : Nat) (cross : Nat) :
    Follows a (State.linkTrained s p good serial peerPort cross) := by
  unfold State.linkTrained
  repeat' first
    | with_reducible assumption | with_reducible apply follows_linkMeasured | with_reducible apply follows_linkSaved
    | with_reducible apply follows_linkUp | with_reducible apply follows_retireLane | with_reducible apply follows_supEvent
    | with_reducible apply follows_event | with_reducible apply follows_foldl | with_reducible apply follows_ite | split
    | (intro t x ht; try dsimp only) | (intro t ht; try dsimp only) | (intro v; try beta_reduce) | dsimp only

theorem follows_linkRetrained {a s : State} (h : Follows a s) (p : Nat) (good : Nat) (serial : Nat) (peerPort : Nat) (cross : Nat) :
    Follows a (State.linkRetrained s p good serial peerPort cross) := by
  unfold State.linkRetrained
  repeat' first
    | with_reducible assumption | with_reducible apply follows_chargeOpen | with_reducible apply follows_linkMeasured
    | with_reducible apply follows_linkSaved | with_reducible apply follows_linkUp | with_reducible apply follows_modLink
    | with_reducible apply follows_retirePort | with_reducible apply follows_supEvent | with_reducible apply follows_event
    | with_reducible apply follows_foldl | with_reducible apply follows_ite | split | (intro t x ht; try dsimp only) | (intro t ht; try dsimp only)
    | (intro v; try beta_reduce) | dsimp only

theorem follows_linkRetrain {a s : State} (h : Follows a s) (p : Nat) :
    Follows a (State.linkRetrain s p) := by
  unfold State.linkRetrain
  repeat' first
    | with_reducible assumption | with_reducible apply follows_bump | with_reducible apply follows_modLink | with_reducible apply follows_portDown
    | with_reducible apply follows_setPortState | with_reducible apply follows_settle | with_reducible apply follows_supEvent
    | with_reducible apply follows_event | with_reducible apply follows_ite | split | (intro t x ht; try dsimp only) | (intro t ht; try dsimp only)
    | (intro v; try beta_reduce) | dsimp only

theorem follows_inject {a s : State} (h : Follows a s) (p : Nat) (ty : Nat) (k : Pkt) (addr : Nat) (tag : Nat) (dst : Dest) :
    Follows a (State.inject s p ty k addr tag dst) := by
  unfold State.inject
  repeat' first
    | with_reducible assumption | with_reducible apply follows_emit | with_reducible apply follows_nextFree | with_reducible apply follows_ite | split
    | (intro t x ht; try dsimp only) | (intro t ht; try dsimp only) | (intro v; try beta_reduce) | dsimp only

theorem follows_crossIn {a s : State} (h : Follows a s) (p : Nat) (ty : Nat) (k : Pkt) (addr : Nat) :
    Follows a (State.crossIn s p ty k addr) := by
  unfold State.crossIn
  repeat' first
    | with_reducible assumption | with_reducible apply follows_inject | with_reducible apply follows_modLink | with_reducible apply follows_foldl
    | with_reducible apply follows_ite | split | (intro t x ht; try dsimp only) | (intro t ht; try dsimp only) | (intro v; try beta_reduce)
    | dsimp only

theorem follows_crossWaiting {a s : State} (h : Follows a s) (p : Nat) :
    Follows a (State.crossWaiting s p) := by
  unfold State.crossWaiting
  repeat' first
    | with_reducible assumption | with_reducible apply follows_crossIn | with_reducible apply follows_modLink | with_reducible apply follows_ite
    | split | (intro t x ht; try dsimp only) | (intro t ht; try dsimp only) | (intro v; try beta_reduce) | dsimp only

theorem follows_crossOut {a s : State} (h : Follows a s) (p : Nat) (ty : Nat) (k : Pkt) (addr : Nat) :
    Follows a (State.crossOut s p ty k addr) := by
  unfold State.crossOut
  repeat' first
    | with_reducible assumption | with_reducible apply follows_bump | with_reducible apply follows_crossWaiting | with_reducible apply follows_emit
    | with_reducible apply follows_modLink | with_reducible apply follows_nextFree | with_reducible apply follows_ite | split
    | (intro t x ht; try dsimp only) | (intro t ht; try dsimp only) | (intro v; try beta_reduce) | dsimp only

theorem follows_crossRefused {a s : State} (h : Follows a s) (p : Nat) (k : Pkt) :
    Follows a (State.crossRefused s p k) := by
  unfold State.crossRefused
  repeat' first
    | with_reducible assumption | with_reducible apply follows_emit | with_reducible apply follows_ite | split | (intro t x ht; try dsimp only)
    | (intro t ht; try dsimp only) | (intro v; try beta_reduce) | dsimp only

theorem follows_cross {a s : State} (h : Follows a s) (p : Nat) (inbound : Bool) (ty : Nat) (k : Pkt) (addr : Nat) :
    Follows a (State.cross s p inbound ty k addr) := by
  unfold State.cross
  repeat' first
    | with_reducible assumption | with_reducible apply follows_answer | with_reducible apply follows_bump | with_reducible apply follows_crossIn
    | with_reducible apply follows_crossOut | with_reducible apply follows_crossRefused | with_reducible apply follows_nextFree
    | with_reducible apply follows_violation | with_reducible apply follows_ite | split | (intro t x ht; try dsimp only)
    | (intro t ht; try dsimp only) | (intro v; try beta_reduce) | dsimp only

theorem follows_setEffective {a s : State} (h : Follows a s) (w : Nat) :
    Follows a (State.setEffective s w) := by
  unfold State.setEffective
  repeat' first
    | with_reducible assumption | with_reducible apply follows_changed | with_reducible apply follows_modSupply | with_reducible apply follows_setReg
    | with_reducible apply follows_ite | split | (intro t x ht; try dsimp only) | (intro t ht; try dsimp only) | (intro v; try beta_reduce)
    | dsimp only

theorem follows_noteLimits {a s : State} (h : Follows a s) (byInlet : Bool) (byFlow : Bool) :
    Follows a (State.noteLimits s byInlet byFlow) := by
  unfold State.noteLimits
  repeat' first
    | with_reducible assumption | with_reducible apply follows_modSupply | with_reducible apply follows_supEvent | with_reducible apply follows_event
    | with_reducible apply follows_ite | split | (intro t x ht; try dsimp only) | (intro t ht; try dsimp only) | (intro v; try beta_reduce)
    | dsimp only

theorem follows_coolantCap {a s : State} (h : Follows a s) (inlet : Int) :
    Follows a (State.coolantCap s inlet) := by
  unfold State.coolantCap
  repeat' first
    | with_reducible assumption | with_reducible apply follows_modSupply | with_reducible apply follows_nextFree
    | with_reducible apply follows_noteLimits | with_reducible apply follows_setEffective | with_reducible apply follows_ite | split
    | (intro t x ht; try dsimp only) | (intro t ht; try dsimp only) | (intro v; try beta_reduce) | dsimp only

theorem follows_coolantMeasured {a s : State} (h : Follows a s) (inlet : Int) (outlet : Int) :
    Follows a (State.coolantMeasured s inlet outlet) := by
  unfold State.coolantMeasured
  repeat' first
    | with_reducible assumption | with_reducible apply follows_nextFree | with_reducible apply follows_setReg | with_reducible apply follows_ite
    | split | (intro t x ht; try dsimp only) | (intro t ht; try dsimp only) | (intro v; try beta_reduce) | dsimp only

theorem follows_jtagBypass {a s : State} (h : Follows a s) : Follows a s.jtagBypass := follows_emit (follows_jtag h _) _

theorem follows_pauseWrite {a s : State} (h : Follows a s) (k : Nat) (v : Nat) :
    Follows a (State.pauseWrite s k v) := by
  unfold State.pauseWrite
  repeat' first
    | with_reducible assumption | with_reducible apply follows_enterPaused | with_reducible apply follows_ignored
    | with_reducible apply follows_setReg | with_reducible apply follows_ite | split | (intro t x ht; try dsimp only) | (intro t ht; try dsimp only)
    | (intro v; try beta_reduce) | dsimp only

theorem follows_spinWrite {a s : State} (h : Follows a s) (f : Nat) (v : Nat) :
    Follows a (State.spinWrite s f v) := by
  unfold State.spinWrite
  repeat' first
    | with_reducible assumption | with_reducible apply follows_setReg | with_reducible apply follows_spinTo | with_reducible apply follows_ite | split
    | (intro t x ht; try dsimp only) | (intro t ht; try dsimp only) | (intro v; try beta_reduce) | dsimp only

theorem follows_guardWrite {a s : State} (h : Follows a s) (v : Nat) :
    Follows a (State.guardWrite s v) := by
  unfold State.guardWrite
  repeat' first
    | with_reducible assumption | with_reducible apply follows_powerAll | with_reducible apply follows_setReg | with_reducible apply follows_spinWrite
    | with_reducible apply follows_foldl | with_reducible apply follows_ite | split | (intro t x ht; try dsimp only) | (intro t ht; try dsimp only)
    | (intro v; try beta_reduce) | dsimp only

theorem follows_bankPowerWrite {a s : State} (h : Follows a s) (f : Nat) (v : List Byte) :
    Follows a (State.bankPowerWrite s f v) := by
  unfold State.bankPowerWrite
  repeat' first
    | with_reducible assumption | with_reducible apply follows_banksPending | with_reducible apply follows_setReg | with_reducible apply follows_ite
    | split | (intro t x ht; try dsimp only) | (intro t ht; try dsimp only) | (intro v; try beta_reduce) | dsimp only

theorem follows_pierRequestWrite {a s : State} (h : Follows a s) (f : Nat) (v : Nat) :
    Follows a (State.pierRequestWrite s f v) := by
  unfold State.pierRequestWrite
  repeat' first
    | with_reducible assumption | with_reducible apply follows_pierOff | with_reducible apply follows_pierWake | with_reducible apply follows_setReg
    | with_reducible apply follows_ite | split | (intro t x ht; try dsimp only) | (intro t ht; try dsimp only) | (intro v; try beta_reduce)
    | dsimp only

theorem follows_idleWrite {a s : State} (h : Follows a s) (v : Nat) :
    Follows a (State.idleWrite s v) := by
  unfold State.idleWrite
  repeat' first
    | with_reducible assumption | with_reducible apply follows_modPower | with_reducible apply follows_powerUpdate
    | with_reducible apply follows_setReg | with_reducible apply follows_foldl | with_reducible apply follows_ite | split
    | (intro t x ht; try dsimp only) | (intro t ht; try dsimp only) | (intro v; try beta_reduce) | dsimp only

theorem follows_capWrite {a s : State} (h : Follows a s) (cap : Nat) (coolant : Nat) :
    Follows a (State.capWrite s cap coolant) := by
  unfold State.capWrite
  repeat' first
    | with_reducible assumption | with_reducible apply follows_setReg | with_reducible apply follows_ite | split | (intro t x ht; try dsimp only)
    | (intro t ht; try dsimp only) | (intro v; try beta_reduce) | dsimp only

theorem follows_setPerMaster {a s : State} (h : Follows a s) (m : Nat) (o : Obj) (v : Nat) :
    Follows a (State.setPerMaster s m o v) := by
  unfold State.setPerMaster
  repeat' first
    | with_reducible assumption | with_reducible apply follows_modCtl | with_reducible apply follows_ite | split | (intro t x ht; try dsimp only)
    | (intro t ht; try dsimp only) | (intro v; try beta_reduce) | dsimp only

theorem follows_applyWrite {a s : State} (h : Follows a s) (m : Nat) (o : Obj) (i : Nat) (j : Nat) (v : List Byte) :
    Follows a (State.applyWrite s m o i j v) := by
  unfold State.applyWrite
  repeat' first
    | with_reducible assumption | with_reducible apply follows_activateAt | with_reducible apply follows_attest
    | with_reducible apply follows_bankPowerWrite | with_reducible apply follows_capWrite | with_reducible apply follows_ethModeSet
    | with_reducible apply follows_groupSet | with_reducible apply follows_guardWrite | with_reducible apply follows_idleWrite
    | with_reducible apply follows_modClocks | with_reducible apply follows_modCtl | with_reducible apply follows_moverEpochs
    | with_reducible apply follows_pauseWrite | with_reducible apply follows_pierRequestWrite | with_reducible apply follows_setPerMaster
    | with_reducible apply follows_setProfile | with_reducible apply follows_setReg | with_reducible apply follows_setRegAt
    | with_reducible apply follows_setWritten | with_reducible apply follows_spinWrite | with_reducible apply follows_streamSet
    | with_reducible apply follows_tellPeers | with_reducible apply follows_ite | split | (intro t x ht; try dsimp only)
    | (intro t ht; try dsimp only) | (intro v; try beta_reduce) | dsimp only

theorem follows_spanCommand {a s : State} (h : Follows a s) (k : Nat) (n : Nat) :
    Follows a (State.spanCommand s k n).1 := by
  unfold State.spanCommand
  repeat' first
    | with_reducible assumption | with_reducible apply follows_createSpan | with_reducible apply follows_deleteSpan
    | with_reducible apply follows_resetSpan | with_reducible apply follows_settle | with_reducible apply follows_ite | split
    | (intro t x ht; try dsimp only) | (intro t ht; try dsimp only) | (intro v; try beta_reduce) | dsimp only

theorem follows_stageCommand {a s : State} (h : Follows a s) (n : Nat) :
    Follows a (State.stageCommand s n).1 := by
  unfold State.stageCommand
  repeat' first
    | with_reducible assumption | with_reducible apply follows_stageAbort | with_reducible apply follows_stageOpen
    | with_reducible apply follows_stageVerify | with_reducible apply follows_ite | split | (intro t x ht; try dsimp only)
    | (intro t ht; try dsimp only) | (intro v; try beta_reduce)
    | exact follows_fst (by with_reducible assumption) (by first | with_reducible assumption | skip) | dsimp only

theorem follows_retireCommand {a s : State} (h : Follows a s) (u : Nat) :
    Follows a (State.retireCommand s u).1 := by
  unfold State.retireCommand
  repeat' first
    | with_reducible assumption | with_reducible apply follows_declare | with_reducible apply follows_settle | with_reducible apply follows_ite
    | split | (intro t x ht; try dsimp only) | (intro t ht; try dsimp only) | (intro v; try beta_reduce) | dsimp only

theorem follows_vminRestart {a s : State} (h : Follows a s) (f : Nat) :
    Follows a (State.vminRestart s f) := by
  unfold State.vminRestart
  repeat' first
    | with_reducible assumption | with_reducible apply follows_setReg | with_reducible apply follows_ite | split | (intro t x ht; try dsimp only)
    | (intro t ht; try dsimp only) | (intro v; try beta_reduce) | dsimp only

theorem follows_command {a s : State} (h : Follows a s) (o : Obj) (i : Nat) (v : List Byte) :
    Follows a (State.command s o i v).1 := by
  unfold State.command
  repeat' first
    | with_reducible assumption | with_reducible apply follows_clearHistory | with_reducible apply follows_modBoot
    | with_reducible apply follows_modSpan | with_reducible apply follows_retireCommand | with_reducible apply follows_setReg
    | with_reducible apply follows_spanCommand | with_reducible apply follows_stageChunk | with_reducible apply follows_stageCommand
    | with_reducible apply follows_switchSupervisor | with_reducible apply follows_vminRestart | with_reducible apply follows_ite | split
    | (intro t x ht; try dsimp only) | (intro t ht; try dsimp only) | (intro v; try beta_reduce)
    | exact follows_fst (by with_reducible assumption) (by first | with_reducible assumption | skip) | dsimp only

theorem follows_applyAll {a s : State} (h : Follows a s) (m : Nat) (ws : List (Nat × List Byte)) :
    Follows a (State.applyAll s m ws) := by
  unfold State.applyAll
  repeat' first
    | with_reducible assumption | with_reducible apply follows_applyWrite | with_reducible apply follows_mapCleared
    | with_reducible apply follows_foldl | with_reducible apply follows_ite | split | (intro t x ht; try dsimp only) | (intro t ht; try dsimp only)
    | (intro v; try beta_reduce) | dsimp only

theorem follows_checkAll {a s : State} (t0 : State) (m : Nat) (ws : List (Nat × List Byte)) {t : State} (h : Follows a t) :
    ∀ u, s.checkAll t0 m ws t = .ok u → Follows a u := by
  induction ws generalizing t with
  | nil => intro u e; cases e; exact h
  | cons w r ih =>
    obtain ⟨k, v⟩ := w
    intro u e
    unfold State.checkAll at e
    dsimp only at e
    split at e
    · cases e
    · split at e
      · cases e
      · split at e
        · split at e
          · cases e
          · exact ih (follows_command h _ _ _) u e
        · exact ih h u e

theorem follows_noteNv {a s : State} (h : Follows a s) (ws : List (Nat × List Byte)) :
    Follows a (State.noteNv s ws) := by
  unfold State.noteNv
  repeat' first
    | with_reducible assumption | with_reducible apply follows_modCtl | with_reducible apply follows_ite | split | (intro t x ht; try dsimp only)
    | (intro t ht; try dsimp only) | (intro v; try beta_reduce) | dsimp only

theorem follows_commitRest {a s : State} (h : Follows a s) (old : State) : Follows a (s.commitRest old) := by
  unfold State.commitRest
  dsimp only
  have h1 := follows_foldl (follows_settle (follows_serveAll h)) (List.range 8) State.tryOpen fun t k ht => follows_tryOpen ht k
  exact follows_showPins (follows_ite (follows_jtag h1 _) h1) _

theorem follows_commitWrites {a s : State} (h : Follows a s) (m : Nat) (ws : List (Nat × List Byte)) : Follows a (s.commitWrites m ws).1 := by
  unfold State.commitWrites
  dsimp only
  split
  · rename_i t e
    have ht := follows_checkAll _ _ _ (follows_applyAll (follows_setReg h regGeneration 0 _) m ws) t e
    have := follows_setReg (follows_noteNv (follows_commitRest ht s) ws) regGeneration 0 ((s.reg regGeneration 0 + boolNat (countsChange ws)) % 2 ^ 64)
    exact follows_ite (follows_vector this _) this
  · split
    · exact follows_ite h (follows_settle (follows_supEvent (follows_lateReads h _) _ _))
    · exact h

theorem follows_reply {a s : State} (h : Follows a s) (status : Nat) (payload : List Byte) :
    Follows a (State.reply s status payload).1 := by
  unfold State.reply
  repeat' first
    | with_reducible assumption | with_reducible apply follows_ite | split | (intro t x ht; try dsimp only) | (intro t ht; try dsimp only)
    | (intro v; try beta_reduce) | dsimp only

theorem follows_dictDeny {a s : State} (h : Follows a s) (r : DReq) (x : Right) :
    Follows a (State.dictDeny s r x).1 := by
  unfold State.dictDeny
  repeat' first
    | with_reducible assumption | with_reducible apply follows_reply | with_reducible apply follows_violation | with_reducible apply follows_ite
    | split | (intro t x ht; try dsimp only) | (intro t ht; try dsimp only) | (intro v; try beta_reduce)
    | exact follows_fst (by with_reducible assumption) (by first | with_reducible assumption | skip) | dsimp only

theorem follows_setTx {a s : State} (h : Follows a s) (t : Transaction) :
    Follows a (State.setTx s t) := by
  unfold State.setTx
  repeat' first
    | with_reducible assumption | with_reducible apply follows_modCtl | with_reducible apply follows_ite | split | (intro t x ht; try dsimp only)
    | (intro t ht; try dsimp only) | (intro v; try beta_reduce) | dsimp only

theorem follows_endTx {a s : State} (h : Follows a s) (m : Nat) :
    Follows a (State.endTx s m) := by
  unfold State.endTx
  repeat' first
    | with_reducible assumption | with_reducible apply follows_modCtl | with_reducible apply follows_ite | split | (intro t x ht; try dsimp only)
    | (intro t ht; try dsimp only) | (intro v; try beta_reduce) | dsimp only

theorem follows_freeze {a s : State} (h : Follows a s) (r : DReq) (o : Obj) (v : List Byte) :
    Follows a (State.freeze s r o v) := by
  unfold State.freeze
  repeat' first
    | with_reducible assumption | with_reducible apply follows_modCtl | with_reducible apply follows_setPerMaster | with_reducible apply follows_ite
    | split | (intro t x ht; try dsimp only) | (intro t ht; try dsimp only) | (intro v; try beta_reduce) | dsimp only

theorem follows_readObj {a s : State} (h : Follows a s) (r : DReq) (o : Obj) (i : Nat) (j : Nat) :
    Follows a (State.readObj s r o i j).1 := by
  unfold State.readObj
  repeat' first
    | with_reducible assumption | with_reducible apply follows_freeze | with_reducible apply follows_nextFree | with_reducible apply follows_reply
    | with_reducible apply follows_ite | split | (intro t x ht; try dsimp only) | (intro t ht; try dsimp only) | (intro v; try beta_reduce)
    | exact follows_fst (by with_reducible assumption) (by first | with_reducible assumption | skip) | dsimp only

theorem follows_serveRead {a s : State} (h : Follows a s) (r : DReq) :
    Follows a (State.serveRead s r).1 := by
  unfold State.serveRead
  repeat' first
    | with_reducible assumption | with_reducible apply follows_dictDeny | with_reducible apply follows_readObj | with_reducible apply follows_reply
    | with_reducible apply follows_ite | split | (intro t x ht; try dsimp only) | (intro t ht; try dsimp only) | (intro v; try beta_reduce)
    | exact follows_fst (by with_reducible assumption) (by first | with_reducible assumption | skip) | dsimp only

theorem follows_serveDescribe {a s : State} (h : Follows a s) (r : DReq) :
    Follows a (State.serveDescribe s r).1 := by
  unfold State.serveDescribe
  repeat' first
    | with_reducible assumption | with_reducible apply follows_dictDeny | with_reducible apply follows_reply | with_reducible apply follows_ite
    | split | (intro t x ht; try dsimp only) | (intro t ht; try dsimp only) | (intro v; try beta_reduce)
    | exact follows_fst (by with_reducible assumption) (by first | with_reducible assumption | skip) | dsimp only

theorem follows_stage {a s : State} (h : Follows a s) (r : DReq) (t : Transaction) :
    Follows a (State.stage s r t).1 := by
  unfold State.stage
  repeat' first
    | with_reducible assumption | with_reducible apply follows_reply | with_reducible apply follows_setTx | with_reducible apply follows_ite | split
    | (intro t x ht; try dsimp only) | (intro t ht; try dsimp only) | (intro v; try beta_reduce)
    | exact follows_fst (by with_reducible assumption) (by first | with_reducible assumption | skip) | dsimp only

theorem follows_writeObj {a s : State} (h : Follows a s) (r : DReq) (o : Obj) (i j : Nat) : Follows a (s.writeObj r o i j).1 := by
  unfold State.writeObj
  repeat' first | with_reducible assumption | with_reducible apply follows_reply | with_reducible apply follows_dictDeny | with_reducible apply follows_stage | with_reducible apply follows_commitWrites | (exact follows_fst (by with_reducible assumption) (follows_commitWrites h _ _)) | split | dsimp only

theorem follows_serveWrite {a s : State} (h : Follows a s) (r : DReq) :
    Follows a (State.serveWrite s r).1 := by
  unfold State.serveWrite
  repeat' first
    | with_reducible assumption | with_reducible apply follows_dictDeny | with_reducible apply follows_reply | with_reducible apply follows_writeObj
    | with_reducible apply follows_ite | split | (intro t x ht; try dsimp only) | (intro t ht; try dsimp only) | (intro v; try beta_reduce)
    | exact follows_fst (by with_reducible assumption) (by first | with_reducible assumption | skip) | dsimp only

theorem follows_serveBegin {a s : State} (h : Follows a s) (r : DReq) :
    Follows a (State.serveBegin s r).1 := by
  unfold State.serveBegin
  repeat' first
    | with_reducible assumption | with_reducible apply follows_modCtl | with_reducible apply follows_reply | with_reducible apply follows_ite | split
    | (intro t x ht; try dsimp only) | (intro t ht; try dsimp only) | (intro v; try beta_reduce)
    | exact follows_fst (by with_reducible assumption) (by first | with_reducible assumption | skip) | dsimp only

theorem follows_serveCommit {a s : State} (h : Follows a s) (r : DReq) : Follows a (s.serveCommit r).1 := by
  unfold State.serveCommit
  repeat' first | with_reducible assumption | with_reducible apply follows_reply | with_reducible apply follows_endTx | with_reducible apply follows_commitWrites | (exact follows_fst (by with_reducible assumption) (follows_commitWrites (follows_endTx h _) _ _)) | split | dsimp only

theorem follows_serveAbort {a s : State} (h : Follows a s) (r : DReq) :
    Follows a (State.serveAbort s r).1 := by
  unfold State.serveAbort
  repeat' first
    | with_reducible assumption | with_reducible apply follows_endTx | with_reducible apply follows_reply | with_reducible apply follows_ite | split
    | (intro t x ht; try dsimp only) | (intro t ht; try dsimp only) | (intro v; try beta_reduce)
    | exact follows_fst (by with_reducible assumption) (by first | with_reducible assumption | skip) | dsimp only

theorem follows_perform {a s : State} (h : Follows a s) (r : DReq) :
    Follows a (State.perform s r).1 := by
  unfold State.perform
  repeat' first
    | with_reducible assumption | with_reducible apply follows_reply | with_reducible apply follows_serveAbort
    | with_reducible apply follows_serveBegin | with_reducible apply follows_serveCommit | with_reducible apply follows_serveDescribe
    | with_reducible apply follows_serveRead | with_reducible apply follows_serveWrite | with_reducible apply follows_ite | split
    | (intro t x ht; try dsimp only) | (intro t ht; try dsimp only) | (intro v; try beta_reduce)
    | exact follows_fst (by with_reducible assumption) (by first | with_reducible assumption | skip) | dsimp only

theorem follows_answerFirst {a s : State} (h : Follows a s) (r : DReq) :
    Follows a (State.answerFirst s r).1 := by
  unfold State.answerFirst
  repeat' first
    | with_reducible assumption | with_reducible apply follows_modCtl | with_reducible apply follows_perform | with_reducible apply follows_reply
    | with_reducible apply follows_ite | split | (intro t x ht; try dsimp only) | (intro t ht; try dsimp only) | (intro v; try beta_reduce)
    | exact follows_fst (by with_reducible assumption) (by first | with_reducible assumption | skip) | dsimp only

theorem follows_serve {a s : State} (h : Follows a s) (r : DReq) :
    Follows a (State.serve s r).1 := by
  unfold State.serve
  repeat' first
    | with_reducible assumption | with_reducible apply follows_answerFirst | with_reducible apply follows_bump | with_reducible apply follows_ite
    | split | (intro t x ht; try dsimp only) | (intro t ht; try dsimp only) | (intro v; try beta_reduce)
    | exact follows_fst (by with_reducible assumption) (by first | with_reducible assumption | skip) | dsimp only

theorem follows_modSession {a s : State} (h : Follows a s) (n : Nat) (g : Session → Session) :
    Follows a (State.modSession s n g) := by
  unfold State.modSession
  repeat' first
    | with_reducible assumption | with_reducible apply follows_modCtl | with_reducible apply follows_ite | split | (intro t x ht; try dsimp only)
    | (intro t ht; try dsimp only) | (intro v; try beta_reduce) | dsimp only

theorem follows_dropEntries {a s : State} (h : Follows a s) (n : Nat) :
    Follows a (State.dropEntries s n) := by
  unfold State.dropEntries
  repeat' first
    | with_reducible assumption | with_reducible apply follows_setRegAt | with_reducible apply follows_foldl | with_reducible apply follows_ite
    | split | (intro t x ht; try dsimp only) | (intro t ht; try dsimp only) | (intro v; try beta_reduce) | dsimp only

theorem follows_endSession {a s : State} (h : Follows a s) (n : Nat) :
    Follows a (State.endSession s n) := by
  unfold State.endSession
  repeat' first
    | with_reducible assumption | with_reducible apply follows_dropEntries | with_reducible apply follows_expireTx
    | with_reducible apply follows_modSession | with_reducible apply follows_supEvent | with_reducible apply follows_event
    | with_reducible apply follows_ite | split | (intro t x ht; try dsimp only) | (intro t ht; try dsimp only) | (intro v; try beta_reduce)
    | dsimp only

theorem follows_endKeySessions {a s : State} (h : Follows a s) (ks : List Nat) :
    Follows a (State.endKeySessions s ks) := by
  unfold State.endKeySessions
  repeat' first
    | with_reducible assumption | with_reducible apply follows_endSession | with_reducible apply follows_foldl | with_reducible apply follows_ite
    | split | (intro t x ht; try dsimp only) | (intro t ht; try dsimp only) | (intro v; try beta_reduce) | dsimp only

theorem follows_sessionFrame {a s : State} (h : Follows a s) (m : Nat) :
    Follows a (State.sessionFrame s m) := by
  unfold State.sessionFrame
  repeat' first
    | with_reducible assumption | with_reducible apply follows_bump | with_reducible apply follows_ite | split | (intro t x ht; try dsimp only)
    | (intro t ht; try dsimp only) | (intro v; try beta_reduce) | dsimp only

theorem follows_keepReply {a s : State} (h : Follows a s) (r : DReq) (x : Reply) :
    Follows a (State.keepReply s r x) := by
  unfold State.keepReply
  repeat' first
    | with_reducible assumption | with_reducible apply follows_modSession | with_reducible apply follows_replies | with_reducible apply follows_ite
    | split | (intro t x ht; try dsimp only) | (intro t ht; try dsimp only) | (intro v; try beta_reduce) | dsimp only

theorem follows_respond {a s : State} (h : Follows a s) (r : DReq) :
    Follows a (State.respond s r) := by
  unfold State.respond
  repeat' first
    | with_reducible assumption | with_reducible apply follows_emit | with_reducible apply follows_endKeySessions
    | with_reducible apply follows_keepReply | with_reducible apply follows_serve | with_reducible apply follows_sessionFrame
    | with_reducible apply follows_ite | split | (intro t x ht; try dsimp only) | (intro t ht; try dsimp only) | (intro v; try beta_reduce)
    | exact follows_fst (by with_reducible assumption) (by first | with_reducible assumption | skip) | dsimp only

theorem follows_ask {a s : State} (h : Follows a s) (q : DReq) :
    Follows a (State.ask s q) := by
  unfold State.ask
  repeat' first
    | with_reducible assumption | with_reducible apply follows_respond | with_reducible apply follows_ite | split | (intro t x ht; try dsimp only)
    | (intro t ht; try dsimp only) | (intro v; try beta_reduce) | dsimp only

theorem follows_serveMessage {a s : State} (h : Follows a s) (l : List Byte) (master : Nat) (span : Nat) (own : Bool) :
    Follows a (State.serveMessage s l master span own).1 := by
  unfold State.serveMessage
  repeat' first
    | with_reducible assumption | with_reducible apply follows_bump | with_reducible apply follows_serve | with_reducible apply follows_ite | split
    | (intro t x ht; try dsimp only) | (intro t ht; try dsimp only) | (intro v; try beta_reduce)
    | exact follows_fst (by with_reducible assumption) (by first | with_reducible assumption | skip) | dsimp only

theorem follows_setSlot {a s : State} (h : Follows a s) (x : Slot) (v : SlotS) :
    Follows a (State.setSlot s x v) := by
  unfold State.setSlot
  repeat' first
    | with_reducible assumption | with_reducible apply follows_modCtl | with_reducible apply follows_ite | split | (intro t x ht; try dsimp only)
    | (intro t ht; try dsimp only) | (intro v; try beta_reduce) | dsimp only

theorem follows_submit {a s : State} (h : Follows a s) (x : Slot) (master : Nat) (span : Nat) (l : List Byte) :
    Follows a (State.submit s x master span l) := by
  unfold State.submit
  repeat' first
    | with_reducible assumption | with_reducible apply follows_endKeySessions | with_reducible apply follows_request
    | with_reducible apply follows_serveMessage | with_reducible apply follows_setSlot | with_reducible apply follows_vector
    | with_reducible apply follows_ite | split | (intro t x ht; try dsimp only) | (intro t ht; try dsimp only) | (intro v; try beta_reduce)
    | exact follows_fst (by with_reducible assumption) (by first | with_reducible assumption | skip) | dsimp only

theorem follows_shake {a s : State} (h : Follows a s) (port : Nat) (n : Nat) (status : Nat) (payload : List Byte) :
    Follows a (State.shake s port n status payload) := by
  unfold State.shake
  repeat' first
    | with_reducible assumption | with_reducible apply follows_bump | with_reducible apply follows_emit | with_reducible apply follows_ite | split
    | (intro t x ht; try dsimp only) | (intro t ht; try dsimp only) | (intro v; try beta_reduce) | dsimp only

theorem follows_authFailed {a s : State} (h : Follows a s) (n : Nat) :
    Follows a (State.authFailed s n) := by
  unfold State.authFailed
  repeat' first
    | with_reducible assumption | with_reducible apply follows_bump | with_reducible apply follows_dropEntries | with_reducible apply follows_modCtl
    | with_reducible apply follows_modSession | with_reducible apply follows_supEvent | with_reducible apply follows_event
    | with_reducible apply follows_ite | split | (intro t x ht; try dsimp only) | (intro t ht; try dsimp only) | (intro v; try beta_reduce)
    | dsimp only

theorem follows_openSession {a s : State} (h : Follows a s) (n : Nat) (nc : List Byte) (nd : List Byte) :
    Follows a (State.openSession s n nc nd) := by
  unfold State.openSession
  repeat' first
    | with_reducible assumption | with_reducible apply follows_modSession | with_reducible apply follows_replies
    | with_reducible apply follows_setPerMaster | with_reducible apply follows_supEvent | with_reducible apply follows_event
    | with_reducible apply follows_ite | split | (intro t x ht; try dsimp only) | (intro t ht; try dsimp only) | (intro v; try beta_reduce)
    | dsimp only

theorem follows_atControl {a s : State} (h : Follows a s) (p : Pkt) (x n : Nat) (act : ControlArea → State)
    (hact : ∀ v, Follows a (act v)) : Follows a (s.atControl p x n act) := by
  unfold State.atControl
  split
  · exact follows_dropStale h _
  · split
    · exact follows_answer h _ _ _ _
    · split
      · exact hact _
      · exact follows_answer h _ _ _ _

theorem follows_refuseArea {a s : State} (h : Follows a s) (p : Pkt) (right : Right) (x : ControlArea) (addr : Nat) :
    Follows a (State.refuseArea s p right x addr) := by
  unfold State.refuseArea
  repeat' first
    | with_reducible assumption | with_reducible apply follows_answer | with_reducible apply follows_violation | with_reducible apply follows_ite
    | split | (intro t x ht; try dsimp only) | (intro t ht; try dsimp only) | (intro v; try beta_reduce) | dsimp only

theorem follows_controlBits {a s : State} (f c v : Nat) (h : Follows a s) : ∀ u, controlBits f c v s = some u → Follows a u := by
  intro u e
  unfold controlBits at e
  split at e
  · cases e; exact follows_moverGo h f c
  · split at e
    · exact follows_moverArm f c h u e
    · split at e
      · cases e; exact follows_moverStop h f c
      · split at e
        · cases e; exact follows_moverClear h f c
        · split at e
          · cases e; exact h
          · cases e

theorem follows_channelWrite {a s : State} (f c off : Nat) (bytes : List Byte) (h : Follows a s) :
    ∀ u, channelWrite f c off bytes s = some u → Follows a u := by
  intro u e
  unfold channelWrite at e
  split at e
  · exact follows_moverSetWrite _ _ _ _ _ h u e
  · split at e
    · exact follows_moverSetWrite _ _ _ _ _ h u e
    · split at e
      · exact follows_controlBits _ _ _ h u e
      · cases e

theorem follows_slotWrite {a s : State} (h : Follows a s) (p : Pkt) (stream : Bool) (f : Nat) (c : Nat) (off : Nat) (bytes : List Byte) :
    Follows a (State.slotWrite s p stream f c off bytes) := by
  unfold State.slotWrite
  repeat' first
    | with_reducible assumption | with_reducible apply follows_answer | with_reducible apply follows_performed | with_reducible apply follows_request
    | with_reducible apply follows_setSlot | with_reducible apply follows_submit | with_reducible apply follows_ite | split
    | (intro t x ht; try dsimp only) | (intro t ht; try dsimp only) | (intro v; try beta_reduce) | dsimp only

theorem follows_controlWrite {a s : State} (h : Follows a s) (p : Pkt) (stream : Bool) (x : Nat) (bytes : List Byte) :
    Follows a (s.controlWrite p stream x bytes) := by
  unfold State.controlWrite
  refine follows_atControl h _ _ _ _ fun v => ?_
  split
  · exact follows_ite (follows_slotWrite h _ _ _ _ _ _) (follows_refuseArea h _ _ _ _)
  · exact follows_windowWrite h _ _ _ _ _ _ fun t u ht e => follows_channelWrite _ _ _ _ ht u e
  · exact follows_mailboxWrite h _ _ _ _ _

theorem follows_readAnswers {a s : State} (h : Follows a s) (p : Pkt) (n : Nat) (l : List Byte) : Follows a (s.readAnswers p n l) := by
  induction n generalizing s l with
  | zero => exact h
  | succ k ih =>
    unfold State.readAnswers
    split
    · exact h
    · exact ih (follows_answer h _ _ _ _) _

theorem follows_deliver {a s : State} (h : Follows a s) (p : Pkt) (l : List Byte) : Follows a (s.deliver p l) := follows_readAnswers h _ _ _

theorem follows_atRead {a s : State} (h : Follows a s) (p : Pkt) (addr : BitVec 48) (len : BitVec 17) :
    Follows a (atRead p addr len s) := by
  unfold atRead
  repeat' first
    | with_reducible assumption | with_reducible apply follows_answer | with_reducible apply follows_atControl | with_reducible apply follows_atTarget
    | with_reducible apply follows_deliver | with_reducible apply follows_readNotes | with_reducible apply follows_refuseArea
    | with_reducible apply follows_ite | split | (intro t x ht; try dsimp only) | (intro t ht; try dsimp only) | (intro v; try beta_reduce)
    | dsimp only

theorem follows_writeAt {a s : State} (h : Follows a s) (a0 : Nat) (l : List Byte) :
    Follows a (State.writeAt s a0 l) := by
  unfold State.writeAt
  repeat' first
    | with_reducible assumption | with_reducible apply follows_bump | with_reducible apply follows_pokeAny | with_reducible apply follows_ite | split
    | (intro t x ht; try dsimp only) | (intro t ht; try dsimp only) | (intro v; try beta_reduce) | dsimp only

theorem follows_atAtomic {a s : State} (h : Follows a s) (p : Pkt) (addr : BitVec 48) (op : AtomicOp) (a0 : Word64) (b : Word64) :
    Follows a (atAtomic p addr op a0 b s) := by
  unfold atAtomic
  repeat' first
    | with_reducible assumption | with_reducible apply follows_answer | with_reducible apply follows_atControl | with_reducible apply follows_atTarget
    | with_reducible apply follows_readNotes | with_reducible apply follows_writeAt | with_reducible apply follows_ite | split
    | (intro t x ht; try dsimp only) | (intro t ht; try dsimp only) | (intro v; try beta_reduce) | dsimp only

theorem follows_writeRequest {a s : State} (h : Follows a s) (p : Pkt) (stream : Bool) (addr : BitVec 48) (bytes : List Byte) :
    Follows a (State.writeRequest s p stream addr bytes) := by
  unfold State.writeRequest
  repeat' first
    | with_reducible assumption | with_reducible apply follows_atTarget | with_reducible apply follows_controlWrite
    | with_reducible apply follows_performed | with_reducible apply follows_write | with_reducible apply follows_writeAt
    | with_reducible apply follows_ite | split | (intro t x ht; try dsimp only) | (intro t ht; try dsimp only) | (intro v; try beta_reduce)
    | dsimp only

theorem follows_atReadback {a s : State} (h : Follows a s) (p : Pkt) (addr : BitVec 48) :
    Follows a (atReadback p addr s) := by
  unfold atReadback
  repeat' first
    | with_reducible assumption | with_reducible apply follows_answer | with_reducible apply follows_atControl | with_reducible apply follows_atTarget
    | with_reducible apply follows_ite | split | (intro t x ht; try dsimp only) | (intro t ht; try dsimp only) | (intro v; try beta_reduce)
    | dsimp only

theorem follows_sendColl {a s : State} (h : Follows a s) (f : Nat) (k : Nat) (g : Nat) (seq : Nat) (rank : Nat) (member : Nat) (words : Bool) (l : List Byte) :
    Follows a (State.sendColl s f k g seq rank member words l) := by
  unfold State.sendColl
  repeat' first
    | with_reducible assumption | with_reducible apply follows_sendNth | with_reducible apply follows_foldl | with_reducible apply follows_ite | split
    | (intro t x ht; try dsimp only) | (intro t ht; try dsimp only) | (intro v; try beta_reduce) | dsimp only

theorem follows_coll {a s : State} (h : Follows a s) (h' : Hdr) (sub : Nat) (o : CollOp) :
    Follows a (State.coll s h' sub o) := by
  unfold State.coll
  repeat' first
    | with_reducible assumption | with_reducible apply follows_failed | with_reducible apply follows_issue | with_reducible apply follows_launch
    | with_reducible apply follows_modSeq | with_reducible apply follows_sendColl | with_reducible apply follows_withRows
    | with_reducible apply follows_foldl | with_reducible apply follows_ite | split | (intro t x ht; try dsimp only) | (intro t ht; try dsimp only)
    | (intro v; try beta_reduce) | dsimp only

theorem follows_collDone {a s : State} (h : Follows a s) (f : Nat) (faults : List SumFault) (x : InFlight) :
    Follows a (State.collDone s f faults x) := by
  unfold State.collDone
  repeat' first
    | with_reducible assumption | with_reducible apply follows_bump | with_reducible apply follows_chargePier | with_reducible apply follows_event
    | with_reducible apply follows_failed | with_reducible apply follows_finish | with_reducible apply follows_modSeq
    | with_reducible apply follows_putRows | with_reducible apply follows_settle | with_reducible apply follows_tagRows
    | with_reducible apply follows_withRows | with_reducible apply follows_foldl | with_reducible apply follows_ite | split
    | (intro t x ht; try dsimp only) | (intro t ht; try dsimp only) | (intro v; try beta_reduce) | dsimp only

theorem follows_sync {a s : State} (h : Follows a s) (h' : Hdr) (group : Option Nat) :
    Follows a (State.sync s h' group) := by
  unfold State.sync
  repeat' first
    | with_reducible assumption | with_reducible apply follows_await | with_reducible apply follows_failed | with_reducible apply follows_issue
    | with_reducible apply follows_modSeq | with_reducible apply follows_send | with_reducible apply follows_ite | split
    | (intro t x ht; try dsimp only) | (intro t ht; try dsimp only) | (intro v; try beta_reduce) | dsimp only

theorem follows_barrierArrive {a s : State} (h : Follows a s) (p : Pkt) (g : Nat) (seq : Nat) (count : Nat) :
    Follows a (State.barrierArrive s p g seq count) := by
  unfold State.barrierArrive
  repeat' first
    | with_reducible assumption | with_reducible apply follows_modSpan | with_reducible apply follows_toMembers | with_reducible apply follows_ite
    | split | (intro t x ht; try dsimp only) | (intro t ht; try dsimp only) | (intro v; try beta_reduce) | dsimp only

theorem follows_passStopped {a s : State} (h : Follows a s) (f : Nat) :
    Follows a (State.passStopped s f) := by
  unfold State.passStopped
  repeat' first
    | with_reducible assumption | with_reducible apply follows_arrayIdle | with_reducible apply follows_modArray | with_reducible apply follows_modSeq
    | with_reducible apply follows_ite | split | (intro t x ht; try dsimp only) | (intro t ht; try dsimp only) | (intro v; try beta_reduce)
    | dsimp only

theorem follows_bankNoData {a s : State} (h : Follows a s) (f : Nat) (b : Nat) (row : Nat) (m : BankMaster) :
    Follows a (State.bankNoData s f b row m) := by
  unfold State.bankNoData
  repeat' first
    | with_reducible assumption | with_reducible apply follows_emit | with_reducible apply follows_failed
    | with_reducible apply follows_moverAccessFailed | with_reducible apply follows_passStopped | with_reducible apply follows_ite | split
    | (intro t x ht; try dsimp only) | (intro t ht; try dsimp only) | (intro v; try beta_reduce) | dsimp only

theorem follows_bankRefuses {a s : State} (h : Follows a s) (f : Nat) (b : Nat) (row : Nat) (m : BankMaster) :
    Follows a (State.bankRefuses s f b row m) := by
  unfold State.bankRefuses
  repeat' first
    | with_reducible assumption | with_reducible apply follows_emit | with_reducible apply follows_event | with_reducible apply follows_failed
    | with_reducible apply follows_moverAccessFailed | with_reducible apply follows_reportFail | with_reducible apply follows_ite | split
    | (intro t x ht; try dsimp only) | (intro t ht; try dsimp only) | (intro v; try beta_reduce) | dsimp only

theorem follows_bankPerform {a s : State} (h : Follows a s) (f : Nat) (b : Nat) (row : Nat) (op : BankOp) :
    Follows a (State.bankPerform s f b row op) := by
  unfold State.bankPerform
  repeat' first
    | with_reducible assumption | with_reducible apply follows_bump | with_reducible apply follows_rowWritten | with_reducible apply follows_setRow
    | with_reducible apply follows_write | with_reducible apply follows_ite | split | (intro t x ht; try dsimp only) | (intro t ht; try dsimp only)
    | (intro v; try beta_reduce) | dsimp only

theorem follows_bankDo {a s : State} (h : Follows a s) (f : Nat) (b : Nat) (x : BankWait) :
    Follows a (State.bankDo s f b x) := by
  unfold State.bankDo
  repeat' first
    | with_reducible assumption | with_reducible apply follows_bankNoData | with_reducible apply follows_bankPerform
    | with_reducible apply follows_bump | with_reducible apply follows_charge | with_reducible apply follows_chargePier
    | with_reducible apply follows_event | with_reducible apply follows_modBank | with_reducible apply follows_ite | split
    | (intro t x ht; try dsimp only) | (intro t ht; try dsimp only) | (intro v; try beta_reduce) | dsimp only

theorem follows_bankRun {a : State} (f b n : Nat) (l : List BankWait) {s : State} (h : Follows a s) : Follows a (s.bankRun f b n l) := by
  induction n generalizing s l with
  | zero => exact h
  | succ n ih =>
    unfold State.bankRun
    dsimp only
    split
    · exact h
    · exact ih _ (follows_bankDo (follows_ite (follows_bump h _ _ _) h) _ _ _)

theorem follows_bankServe {a s : State} (h : Follows a s) (f : Nat) (b : Nat) :
    Follows a (State.bankServe s f b) := by
  unfold State.bankServe
  repeat' first
    | with_reducible assumption | with_reducible apply follows_bankRun | with_reducible apply follows_modBank | with_reducible apply follows_settle
    | with_reducible apply follows_ite | split | (intro t x ht; try dsimp only) | (intro t ht; try dsimp only) | (intro v; try beta_reduce)
    | dsimp only

theorem follows_bankAwake {a s : State} (h : Follows a s) (f : Nat) (b : Nat) :
    Follows a (State.bankAwake s f b) := by
  unfold State.bankAwake
  repeat' first
    | with_reducible assumption | with_reducible apply follows_bankServe | with_reducible apply follows_bankSettle
    | with_reducible apply follows_bankTo | with_reducible apply follows_offCheck | with_reducible apply follows_ite | split
    | (intro t x ht; try dsimp only) | (intro t ht; try dsimp only) | (intro v; try beta_reduce) | dsimp only

theorem follows_scrubNext {a s : State} (h : Follows a s) (f : Nat) (b : Nat) :
    Follows a (State.scrubNext s f b) := by
  unfold State.scrubNext
  repeat' first
    | with_reducible assumption | with_reducible apply follows_bankSettle | with_reducible apply follows_keepDigests
    | with_reducible apply follows_modBank | with_reducible apply follows_ite | split | (intro t x ht; try dsimp only) | (intro t ht; try dsimp only)
    | (intro v; try beta_reduce) | dsimp only

theorem follows_anchorCommits {a s : State} (h : Follows a s) (k : Nat) (outTail : Nat) (reqHead : Nat) (more : Bool) :
    Follows a (State.anchorCommits s k outTail reqHead more) := by
  unfold State.anchorCommits
  repeat' first
    | with_reducible assumption | with_reducible apply follows_decide | with_reducible apply follows_modSpan | with_reducible apply follows_ite
    | split | (intro t x ht; try dsimp only) | (intro t ht; try dsimp only) | (intro v; try beta_reduce) | dsimp only

theorem follows_aheadPastLdx {a s : State} (h : Follows a s) (f : Nat) :
    Follows a (State.aheadPastLdx s f) := by
  unfold State.aheadPastLdx
  repeat' first
    | with_reducible assumption | with_reducible apply follows_aheadGo | with_reducible apply follows_modSeq | with_reducible apply follows_ite
    | split | (intro t x ht; try dsimp only) | (intro t ht; try dsimp only) | (intro v; try beta_reduce) | dsimp only

theorem follows_dieMarked {a s : State} (h : Follows a s) (t : Nat) (d : Nat) :
    Follows a (State.dieMarked s t d) := by
  unfold State.dieMarked
  repeat' first
    | with_reducible assumption | with_reducible apply follows_charge | with_reducible apply follows_declare | with_reducible apply follows_setReg
    | with_reducible apply follows_unitEvent | with_reducible apply follows_foldl | with_reducible apply follows_ite | split
    | (intro t x ht; try dsimp only) | (intro t ht; try dsimp only) | (intro v; try beta_reduce) | dsimp only

theorem follows_dieRow {a s : State} (h : Follows a s) (c : Nat) (g : Nat) (d : Nat) :
    Follows a (State.dieRow s c g d) := by
  unfold State.dieRow
  repeat' first
    | with_reducible assumption | with_reducible apply follows_bump | with_reducible apply follows_dieMarked | with_reducible apply follows_modTower
    | with_reducible apply follows_unitEvent | with_reducible apply follows_ite | split | (intro t x ht; try dsimp only)
    | (intro t ht; try dsimp only) | (intro v; try beta_reduce) | dsimp only

theorem follows_granuleCorrected {a s : State} (h : Follows a s) (c : Nat) (g : Nat) (errs : List (Nat × Nat)) :
    Follows a (State.granuleCorrected s c g errs) := by
  unfold State.granuleCorrected
  repeat' first
    | with_reducible assumption | with_reducible apply follows_bump | with_reducible apply follows_charge | with_reducible apply follows_dieRow
    | with_reducible apply follows_unitEvent | with_reducible apply follows_foldl | with_reducible apply follows_ite | split
    | (intro t x ht; try dsimp only) | (intro t ht; try dsimp only) | (intro v; try beta_reduce) | dsimp only

theorem follows_dieFault {a s : State} (h : Follows a s) (c : Nat) (g : Nat) (d : Nat) :
    Follows a (State.dieFault s c g d) := by
  unfold State.dieFault
  repeat' first
    | with_reducible assumption | with_reducible apply follows_dieMarked | with_reducible apply follows_modTower | with_reducible apply follows_ite
    | split | (intro t x ht; try dsimp only) | (intro t ht; try dsimp only) | (intro v; try beta_reduce) | dsimp only

theorem follows_granuleRead {a s : State} (h : Follows a s) (c : Nat) (g : Nat) (errs : SymbolErrors) :
    Follows a (State.granuleRead s c g errs) := by
  unfold State.granuleRead
  repeat' first
    | with_reducible assumption | with_reducible apply follows_dieFault | with_reducible apply follows_granuleCorrected
    | with_reducible apply follows_granuleLost | with_reducible apply follows_ite | split | (intro t x ht; try dsimp only)
    | (intro t ht; try dsimp only) | (intro v; try beta_reduce) | dsimp only

theorem follows_granuleStore {a s : State} (h : Follows a s) (c : Nat) (g : Nat) (l : List Byte) :
    Follows a (State.granuleStore s c g l) := by
  unfold State.granuleStore
  repeat' first
    | with_reducible assumption | with_reducible apply follows_modChannel | with_reducible apply follows_write | with_reducible apply follows_ite
    | split | (intro t x ht; try dsimp only) | (intro t ht; try dsimp only) | (intro v; try beta_reduce) | dsimp only

theorem follows_granuleWrite {a s : State} (h : Follows a s) (c : Nat) (g : Nat) (l : List Byte) :
    Follows a (State.granuleWrite s c g l) := by
  unfold State.granuleWrite
  repeat' first
    | with_reducible assumption | with_reducible apply follows_granuleStore | with_reducible apply follows_ite | split
    | (intro t x ht; try dsimp only) | (intro t ht; try dsimp only) | (intro v; try beta_reduce) | dsimp only

theorem follows_zeroRemapped {a s : State} (h : Follows a s) (k : Nat) (lost : List Nat) : Follows a (s.zeroRemapped k lost) := follows_dropMem h _

theorem follows_copyMirror {a s : State} (h : Follows a s) (k : Nat) (lost : Nat) :
    Follows a (State.copyMirror s k lost) := by
  unfold State.copyMirror
  repeat' first
    | with_reducible assumption | with_reducible apply follows_write | with_reducible apply follows_foldl | with_reducible apply follows_ite | split
    | (intro t x ht; try dsimp only) | (intro t ht; try dsimp only) | (intro v; try beta_reduce) | dsimp only

theorem follows_fillDone {a s : State} (h : Follows a s) (k : Nat) (lost : List Nat) :
    Follows a (State.fillDone s k lost) := by
  unfold State.fillDone
  repeat' first
    | with_reducible assumption | with_reducible apply follows_modSet | with_reducible apply follows_ite | split | (intro t x ht; try dsimp only)
    | (intro t ht; try dsimp only) | (intro v; try beta_reduce) | dsimp only

theorem follows_awaken {a s : State} (h : Follows a s) (c : Instr) :
    Follows a (State.awaken s c) := by
  unfold State.awaken
  repeat' first
    | with_reducible assumption | with_reducible apply follows_atAtomic | with_reducible apply follows_atMcastData
    | with_reducible apply follows_atMoverLastWrite | with_reducible apply follows_atRead | with_reducible apply follows_atReadData
    | with_reducible apply follows_atReadback | with_reducible apply follows_atRows | with_reducible apply follows_write
    | with_reducible apply follows_writeRequest | with_reducible apply follows_ite | split | (intro t x ht; try dsimp only)
    | (intro t ht; try dsimp only) | (intro v; try beta_reduce) | dsimp only

end Sys2Proof.Machine
end

