-- ==== Sys2Proof/Laws/FollowsCmds1.lean ====
section
/-! SUPPORT. `Follows` of the commands, part 1 of 3. -/

set_option linter.all false

namespace Sys2Proof.Machine

theorem follows_execPass {a s : State} (h : Follows a s) (h' : Hdr) (o : PassOp) :
    FollowsNext a (execPass h' o s) := by
  unfold execPass
  repeat' first
    | with_reducible assumption | with_reducible apply follows_issue | with_reducible apply follows_runPass | with_reducible apply follows_withRows
    | with_reducible apply follows_next | with_reducible apply follows_ite | split | (intro t x ht; try dsimp only) | (intro t ht; try dsimp only)
    | (intro v; try beta_reduce) | dsimp only

theorem follows_execChecksumVerdict {a s : State} (h : Follows a s) (f : FieldId) (pass : BitVec 16) (faults : List CellFault) :
    FollowsNext a (execChecksumVerdict f pass faults s) := by
  unfold execChecksumVerdict
  repeat' first
    | with_reducible assumption | with_reducible apply follows_bump | with_reducible apply follows_chargePier | with_reducible apply follows_event
    | with_reducible apply follows_failed | with_reducible apply follows_modArray | with_reducible apply follows_modSeq
    | with_reducible apply follows_setReg | with_reducible apply follows_settle | with_reducible apply follows_wakeWaiting
    | with_reducible apply follows_foldl | with_reducible apply follows_next | with_reducible apply follows_ite | split
    | (intro t x ht; try dsimp only) | (intro t ht; try dsimp only) | (intro v; try beta_reduce) | dsimp only

theorem follows_execSpinThresholdExpiry {a s : State} (h : Follows a s) (f : FieldId) :
    FollowsNext a (execSpinThresholdExpiry f s) := by
  unfold execSpinThresholdExpiry
  repeat' first
    | with_reducible assumption | with_reducible apply follows_spinTo | with_reducible apply follows_next | with_reducible apply follows_ite | split
    | (intro t x ht; try dsimp only) | (intro t ht; try dsimp only) | (intro v; try beta_reduce) | dsimp only

theorem follows_execSpinRampEnd {a s : State} (h : Follows a s) (f : FieldId) :
    FollowsNext a (execSpinRampEnd f s) := by
  unfold execSpinRampEnd
  repeat' first
    | with_reducible assumption | with_reducible apply follows_spinTo | with_reducible apply follows_next | with_reducible apply follows_ite | split
    | (intro t x ht; try dsimp only) | (intro t ht; try dsimp only) | (intro v; try beta_reduce) | dsimp only

theorem follows_execPreRampDone {a s : State} (h : Follows a s) (f : FieldId) :
    FollowsNext a (execPreRampDone f s) := by
  unfold execPreRampDone
  repeat' first
    | with_reducible assumption | with_reducible apply follows_spinTo | with_reducible apply follows_next | with_reducible apply follows_ite | split
    | (intro t x ht; try dsimp only) | (intro t ht; try dsimp only) | (intro v; try beta_reduce) | dsimp only

theorem follows_execGo {a s : State} (h : Follows a s) (p : Pkt) (f : FieldId) (ch : Idx16) : FollowsNext a (execGo p f ch s) :=
  follows_next (follows_carried h _ _ _ _ fun _ hv => follows_windowWrite hv _ _ _ _ _ _ fun t u ht e => 
    by cases e; exact follows_moverGo ht _ _)

theorem follows_execArmShadow {a s : State} (h : Follows a s) (p : Pkt) (f : FieldId) (ch : Idx16) : FollowsNext a (execArmShadow p f ch s) :=
  follows_next (follows_carried h _ _ _ _ fun _ hv => follows_windowWrite hv _ _ _ _ _ _ fun t u ht e => 
    follows_moverArm _ _ ht u e)

theorem follows_execStop {a s : State} (h : Follows a s) (p : Pkt) (f : FieldId) (ch : Idx16) : FollowsNext a (execStop p f ch s) :=
  follows_next (follows_carried h _ _ _ _ fun _ hv => follows_windowWrite hv _ _ _ _ _ _ fun t u ht e => 
    by cases e; exact follows_moverStop ht _ _)

theorem follows_execClear {a s : State} (h : Follows a s) (p : Pkt) (f : FieldId) (ch : Idx16) : FollowsNext a (execClear p f ch s) :=
  follows_next (follows_carried h _ _ _ _ fun _ hv => follows_windowWrite hv _ _ _ _ _ _ fun t u ht e => 
    by cases e; exact follows_moverClear ht _ _)

theorem follows_execRegisterSetWrite {a s : State} (h : Follows a s) (p : Pkt) (f : FieldId) (ch : Idx16) (shadow : Bool) (offset : BitVec 6) (bytes : List Byte) :
    FollowsNext a (execRegisterSetWrite p f ch shadow offset bytes s) :=
  follows_next (follows_carried h _ _ _ _ fun _ hv => follows_windowWrite hv _ _ _ _ _ _ fun t u ht e => 
    follows_moverSetWrite _ _ _ _ _ ht u e)

theorem follows_execMoverTimer {a s : State} (h : Follows a s) (f : FieldId) (ch : Idx16) :
    FollowsNext a (execMoverTimer f ch s) := by
  unfold execMoverTimer
  repeat' first
    | with_reducible assumption | with_reducible apply follows_moverStart | with_reducible apply follows_next | with_reducible apply follows_ite
    | split | (intro t x ht; try dsimp only) | (intro t ht; try dsimp only) | (intro v; try beta_reduce) | dsimp only

theorem follows_execMoverResume {a s : State} (h : Follows a s) (f : FieldId) (ch : Idx16) :
    FollowsNext a (execMoverResume f ch s) := by
  unfold execMoverResume
  repeat' first
    | with_reducible assumption | with_reducible apply follows_modMover | with_reducible apply follows_next | with_reducible apply follows_ite | split
    | (intro t x ht; try dsimp only) | (intro t ht; try dsimp only) | (intro v; try beta_reduce) | dsimp only

theorem follows_execMoverLastWrite {a s : State} (h : Follows a s) (f : FieldId) (ch : Idx16) :
    FollowsNext a (execMoverLastWrite f ch s) := by
  unfold execMoverLastWrite
  repeat' first
    | with_reducible assumption | with_reducible apply follows_atMoverLastWrite | with_reducible apply follows_next | with_reducible apply follows_ite
    | split | (intro t x ht; try dsimp only) | (intro t ht; try dsimp only) | (intro v; try beta_reduce) | dsimp only

theorem follows_execMoverComplete {a s : State} (h : Follows a s) (f : FieldId) (ch : Idx16) :
    FollowsNext a (execMoverComplete f ch s) := by
  unfold execMoverComplete
  repeat' first
    | with_reducible assumption | with_reducible apply follows_moverDone | with_reducible apply follows_next | with_reducible apply follows_ite
    | split | (intro t x ht; try dsimp only) | (intro t ht; try dsimp only) | (intro v; try beta_reduce) | dsimp only

theorem follows_execMoverStopped {a s : State} (h : Follows a s) (f : FieldId) (ch : Idx16) :
    FollowsNext a (execMoverStopped f ch s) := by
  unfold execMoverStopped
  repeat' first
    | with_reducible assumption | with_reducible apply follows_moverHalt | with_reducible apply follows_next | with_reducible apply follows_ite
    | split | (intro t x ht; try dsimp only) | (intro t ht; try dsimp only) | (intro v; try beta_reduce) | dsimp only

theorem follows_execMoveCopy {a s : State} (h : Follows a s) (h' : Hdr) (count : BitVec 12) (src : Opnd) (dst : Opnd) :
    FollowsNext a (execMoveCopy h' count src dst s) := by
  unfold execMoveCopy
  repeat' first
    | with_reducible assumption | with_reducible apply follows_copyRows | with_reducible apply follows_issue | with_reducible apply follows_launch
    | with_reducible apply follows_withRows | with_reducible apply follows_next | with_reducible apply follows_ite | split
    | (intro t x ht; try dsimp only) | (intro t ht; try dsimp only) | (intro v; try beta_reduce) | dsimp only

theorem follows_execMoveTurn {a s : State} (h : Follows a s) (h' : Hdr) (count : BitVec 12) (esize : Fin 4) (src : Opnd) (dst : Opnd) (faults : List TurnFault) :
    FollowsNext a (execMoveTurn h' count esize src dst faults s) := by
  unfold execMoveTurn
  repeat' first
    | with_reducible assumption | with_reducible apply follows_bump | with_reducible apply follows_chargePier | with_reducible apply follows_event
    | with_reducible apply follows_failed | with_reducible apply follows_issue | with_reducible apply follows_launch
    | with_reducible apply follows_putRows | with_reducible apply follows_setReg | with_reducible apply follows_settle
    | exact follows_foldPair _ _ (fun v x hv => follows_putRows hv _ _ _) _ (by assumption)
    | with_reducible apply follows_withRows | with_reducible apply follows_foldl | with_reducible apply follows_next
    | with_reducible apply follows_ite | split | (intro t x ht; try dsimp only) | (intro t ht; try dsimp only) | (intro v; try beta_reduce)
    | dsimp only

theorem follows_execMoveFill {a s : State} (h : Follows a s) (h' : Hdr) (count : BitVec 12) (dst : Opnd) :
    FollowsNext a (execMoveFill h' count dst s) := by
  unfold execMoveFill
  repeat' first
    | with_reducible assumption | with_reducible apply follows_issue | with_reducible apply follows_launch | with_reducible apply follows_putRows
    | with_reducible apply follows_withRows | with_reducible apply follows_next | with_reducible apply follows_ite | split
    | (intro t x ht; try dsimp only) | (intro t ht; try dsimp only) | (intro v; try beta_reduce) | dsimp only

theorem follows_execFetchLinear {a s : State} (h : Follows a s) (h' : Hdr) (ra : Bool) (o : TowerOpnd) (dst : Opnd) :
    FollowsNext a (execFetchLinear h' ra o dst s) := by
  unfold execFetchLinear
  repeat' first
    | with_reducible assumption | with_reducible apply follows_aheadGo | with_reducible apply follows_fetch | with_reducible apply follows_issue
    | with_reducible apply follows_operandFault | with_reducible apply follows_rangeFault | with_reducible apply follows_next
    | with_reducible apply follows_ite | split | (intro t x ht; try dsimp only) | (intro t ht; try dsimp only) | (intro v; try beta_reduce)
    | dsimp only

theorem follows_execFetchList {a s : State} (h : Follows a s) (h' : Hdr) (ra : Bool) (count : BitVec 6) (list : Opnd) (dst : Opnd) :
    FollowsNext a (execFetchList h' ra count list dst s) := by
  unfold execFetchList
  repeat' first
    | with_reducible assumption | with_reducible apply follows_aheadGo | with_reducible apply follows_fetch | with_reducible apply follows_issue
    | with_reducible apply follows_rangeFault | with_reducible apply follows_withRows | with_reducible apply follows_next
    | with_reducible apply follows_ite | split | (intro t x ht; try dsimp only) | (intro t ht; try dsimp only) | (intro v; try beta_reduce)
    | dsimp only

theorem follows_execSendRows {a s : State} (h : Follows a s) (h' : Hdr) (o : SendOp) :
    FollowsNext a (execSendRows h' o s) := by
  unfold execSendRows
  repeat' first
    | with_reducible assumption | with_reducible apply follows_failed | with_reducible apply follows_issue | with_reducible apply follows_launch
    | with_reducible apply follows_sendReadback | with_reducible apply follows_sendRows | with_reducible apply follows_withRows
    | with_reducible apply follows_foldl | with_reducible apply follows_next | with_reducible apply follows_ite | split
    | (intro t x ht; try dsimp only) | (intro t ht; try dsimp only) | (intro v; try beta_reduce) | dsimp only

theorem follows_execSendSignal {a s : State} (h : Follows a s) (h' : Hdr) (target : BitVec 8) (chan : Idx16) :
    FollowsNext a (execSendSignal h' target chan s) := by
  unfold execSendSignal
  repeat' first
    | with_reducible assumption | with_reducible apply follows_failed | with_reducible apply follows_issue | with_reducible apply follows_launch
    | with_reducible apply follows_request | with_reducible apply follows_send | with_reducible apply follows_write
    | with_reducible apply follows_next | with_reducible apply follows_ite | split | (intro t x ht; try dsimp only) | (intro t ht; try dsimp only)
    | (intro v; try beta_reduce) | dsimp only

theorem follows_execSendStore {a s : State} (h : Follows a s) (h' : Hdr) (o : TowerOpnd) (src : Opnd) :
    FollowsNext a (execSendStore h' o src s) := by
  unfold execSendStore
  repeat' first
    | with_reducible assumption | with_reducible apply follows_issue | with_reducible apply follows_launch | with_reducible apply follows_operandFault
    | with_reducible apply follows_rangeFault | with_reducible apply follows_sendReadback | with_reducible apply follows_sendRows
    | with_reducible apply follows_withRows | with_reducible apply follows_foldl | with_reducible apply follows_next
    | with_reducible apply follows_ite | split | (intro t x ht; try dsimp only) | (intro t ht; try dsimp only) | (intro v; try beta_reduce)
    | dsimp only

theorem follows_execSendMcast {a s : State} (h : Follows a s) (h' : Hdr) (o : SendOp) :
    FollowsNext a (execSendMcast h' o s) := by
  unfold execSendMcast
  repeat' first
    | with_reducible assumption | with_reducible apply follows_failed | with_reducible apply follows_issue | with_reducible apply follows_launch
    | with_reducible apply follows_mcastCheck | with_reducible apply follows_mcastGo | with_reducible apply follows_modSpan
    | with_reducible apply follows_withRows | with_reducible apply follows_writeOpens | with_reducible apply follows_next
    | with_reducible apply follows_ite | split | (intro t x ht; try dsimp only) | (intro t ht; try dsimp only) | (intro v; try beta_reduce)
    | dsimp only

theorem follows_execRecvRows {a s : State} (h : Follows a s) (h' : Hdr) (chan : Idx16) (count : BitVec 12) :
    FollowsNext a (execRecvRows h' chan count s) := by
  unfold execRecvRows
  repeat' first
    | with_reducible assumption | with_reducible apply follows_await | with_reducible apply follows_issue | with_reducible apply follows_wakeWaiting
    | with_reducible apply follows_next | with_reducible apply follows_ite | split | (intro t x ht; try dsimp only) | (intro t ht; try dsimp only)
    | (intro v; try beta_reduce) | dsimp only

theorem follows_execRecvSignal {a s : State} (h : Follows a s) (h' : Hdr) (chan : Idx16) (count : BitVec 12) :
    FollowsNext a (execRecvSignal h' chan count s) := by
  unfold execRecvSignal
  repeat' first
    | with_reducible assumption | with_reducible apply follows_await | with_reducible apply follows_issue | with_reducible apply follows_wakeWaiting
    | with_reducible apply follows_next | with_reducible apply follows_ite | split | (intro t x ht; try dsimp only) | (intro t ht; try dsimp only)
    | (intro v; try beta_reduce) | dsimp only

theorem follows_execRows {a s : State} (h : Follows a s) (p : Pkt) (f : FieldId) (chan : Idx16) (rdst : BitVec 22) (bytes : List Byte) :
    FollowsNext a (execRows p f chan rdst bytes s) := by
  unfold execRows
  repeat' first
    | with_reducible assumption | with_reducible apply follows_atRows | with_reducible apply follows_carried | with_reducible apply follows_next
    | with_reducible apply follows_ite | split | (intro t x ht; try dsimp only) | (intro t ht; try dsimp only) | (intro v; try beta_reduce)
    | dsimp only

theorem follows_execMcastData {a s : State} (h : Follows a s) (p : Pkt) (f : FieldId) (group : Fin 32) (chan : Idx16) (rdst : BitVec 22) (bytes : List Byte) :
    FollowsNext a (execMcastData p f group chan rdst bytes s) := by
  unfold execMcastData
  repeat' first
    | with_reducible assumption | with_reducible apply follows_atMcastData | with_reducible apply follows_carried | with_reducible apply follows_next
    | with_reducible apply follows_ite | split | (intro t x ht; try dsimp only) | (intro t ht; try dsimp only) | (intro v; try beta_reduce)
    | dsimp only

theorem follows_execSignal {a s : State} (h : Follows a s) (p : Pkt) (f : FieldId) (chan : Idx16) :
    FollowsNext a (execSignal p f chan s) := by
  unfold execSignal
  repeat' first
    | with_reducible assumption | with_reducible apply follows_answer | with_reducible apply follows_bump | with_reducible apply follows_carried
    | with_reducible apply follows_dropStale | with_reducible apply follows_modSeq | with_reducible apply follows_wakeWaiting
    | with_reducible apply follows_next | with_reducible apply follows_ite | split | (intro t x ht; try dsimp only) | (intro t ht; try dsimp only)
    | (intro v; try beta_reduce) | dsimp only

theorem follows_execReadData {a s : State} (h : Follows a s) (p : Pkt) (bytes : List Byte) :
    FollowsNext a (execReadData p bytes s) := by
  unfold execReadData
  repeat' first
    | with_reducible assumption | with_reducible apply follows_atReadData | with_reducible apply follows_carried | with_reducible apply follows_next
    | with_reducible apply follows_ite | split | (intro t x ht; try dsimp only) | (intro t ht; try dsimp only) | (intro v; try beta_reduce)
    | dsimp only

theorem follows_execAck {a s : State} (h : Follows a s) (p : Pkt) (old : Word64) :
    FollowsNext a (execAck p old s) := by
  unfold execAck
  repeat' first
    | with_reducible assumption | with_reducible apply follows_carried | with_reducible apply follows_dropStale
    | with_reducible apply follows_endRequest | with_reducible apply follows_modSeq | with_reducible apply follows_responded
    | with_reducible apply follows_write | with_reducible apply follows_next | with_reducible apply follows_ite | split
    | (intro t x ht; try dsimp only) | (intro t ht; try dsimp only) | (intro v; try beta_reduce) | dsimp only

theorem follows_execNack {a s : State} (h : Follows a s) (p : Pkt) (code : BitVec 8) :
    FollowsNext a (execNack p code s) := by
  unfold execNack
  repeat' first
    | with_reducible assumption | with_reducible apply follows_carried | with_reducible apply follows_dropStale
    | with_reducible apply follows_requestFailed | with_reducible apply follows_settle | with_reducible apply follows_next
    | with_reducible apply follows_ite | split | (intro t x ht; try dsimp only) | (intro t ht; try dsimp only) | (intro v; try beta_reduce)
    | dsimp only

theorem follows_execResponseTimeout {a s : State} (h : Follows a s) (p : Pkt) :
    FollowsNext a (execResponseTimeout p s) := by
  unfold execResponseTimeout
  repeat' first
    | with_reducible assumption | with_reducible apply follows_bump | with_reducible apply follows_event | with_reducible apply follows_requestFailed
    | with_reducible apply follows_settle | with_reducible apply follows_next | with_reducible apply follows_ite | split
    | (intro t x ht; try dsimp only) | (intro t ht; try dsimp only) | (intro v; try beta_reduce) | dsimp only

theorem follows_execMcastAck {a s : State} (h : Follows a s) (p : Pkt) (group : Fin 32) (target : FieldId) :
    FollowsNext a (execMcastAck p group target s) := by
  unfold execMcastAck
  repeat' first
    | with_reducible assumption | with_reducible apply follows_carried | with_reducible apply follows_dropStale
    | with_reducible apply follows_mcastAcked | with_reducible apply follows_next | with_reducible apply follows_ite | split
    | (intro t x ht; try dsimp only) | (intro t ht; try dsimp only) | (intro v; try beta_reduce) | dsimp only

theorem follows_execCreditReset {a s : State} (h : Follows a s) (p : Pkt) (group : Fin 32) (target : FieldId) :
    FollowsNext a (execCreditReset p group target s) := by
  unfold execCreditReset
  repeat' first
    | with_reducible assumption | with_reducible apply follows_carried | with_reducible apply follows_dropStale
    | with_reducible apply follows_mcastResend | with_reducible apply follows_next | with_reducible apply follows_ite | split
    | (intro t x ht; try dsimp only) | (intro t ht; try dsimp only) | (intro v; try beta_reduce) | dsimp only

theorem follows_execMcastTargetTimeout {a s : State} (h : Follows a s) (sp : SpanId) (group : Fin 32) (target : FieldId) :
    FollowsNext a (execMcastTargetTimeout sp group target s) := by
  unfold execMcastTargetTimeout
  repeat' first
    | with_reducible assumption | with_reducible apply follows_mcastDrop | with_reducible apply follows_settle | with_reducible apply follows_next
    | with_reducible apply follows_ite | split | (intro t x ht; try dsimp only) | (intro t ht; try dsimp only) | (intro v; try beta_reduce)
    | dsimp only

theorem follows_execReservedPacketType {a s : State} (h : Follows a s)  :
    FollowsNext a (execReservedPacketType s) := by
  unfold execReservedPacketType
  repeat' first
    | with_reducible assumption | with_reducible apply follows_supEvent | with_reducible apply follows_event | with_reducible apply follows_next
    | with_reducible apply follows_ite | split | (intro t x ht; try dsimp only) | (intro t ht; try dsimp only) | (intro v; try beta_reduce)
    | dsimp only

theorem follows_execLinkReplay {a s : State} (h : Follows a s) (r : RouterId) (d : LinkDir) (wires : List (BitVec 12)) (failed : Bool) :
    FollowsNext a (execLinkReplay r d wires failed s) := by
  unfold execLinkReplay
  repeat' first
    | with_reducible assumption | with_reducible apply follows_bump | with_reducible apply follows_charge | with_reducible apply follows_failed
    | with_reducible apply follows_modRouter | with_reducible apply follows_setLinkState | with_reducible apply follows_settle
    | with_reducible apply follows_unitEvent | with_reducible apply follows_next | with_reducible apply follows_ite | split
    | (intro t x ht; try dsimp only) | (intro t ht; try dsimp only) | (intro v; try beta_reduce) | dsimp only

theorem follows_execLinkRepairDone {a s : State} (h : Follows a s) (r : RouterId) (d : LinkDir) (ok : Bool) :
    FollowsNext a (execLinkRepairDone r d ok s) := by
  unfold execLinkRepairDone
  repeat' first
    | with_reducible assumption | with_reducible apply follows_addSpare | with_reducible apply follows_modRouter
    | with_reducible apply follows_retireLink | with_reducible apply follows_setLinkState | with_reducible apply follows_unitEvent
    | with_reducible apply follows_foldl | with_reducible apply follows_next | with_reducible apply follows_ite | split
    | (intro t x ht; try dsimp only) | (intro t ht; try dsimp only) | (intro v; try beta_reduce) | dsimp only

theorem follows_execRouteHoldEnd {a s : State} (h : Follows a s)  :
    FollowsNext a (execRouteHoldEnd s) := by
  unfold execRouteHoldEnd
  repeat' first
    | with_reducible assumption | with_reducible apply follows_bump | with_reducible apply follows_modMesh | with_reducible apply follows_setReg
    | with_reducible apply follows_supEvent | with_reducible apply follows_event | with_reducible apply follows_next
    | with_reducible apply follows_ite | split | (intro t x ht; try dsimp only) | (intro t ht; try dsimp only) | (intro v; try beta_reduce)
    | dsimp only

theorem follows_execTimetableLoad {a s : State} (h : Follows a s) (sp : SpanId) :
    FollowsNext a (execTimetableLoad sp s) := by
  unfold execTimetableLoad
  repeat' first
    | with_reducible assumption | with_reducible apply follows_modSpan | with_reducible apply follows_noteOutside
    | with_reducible apply follows_noteRead | with_reducible apply follows_settle | with_reducible apply follows_next
    | with_reducible apply follows_ite | split | (intro t x ht; try dsimp only) | (intro t ht; try dsimp only) | (intro v; try beta_reduce)
    | dsimp only

theorem follows_execTimetableWindowStart {a s : State} (h : Follows a s) (sp : SpanId) :
    FollowsNext a (execTimetableWindowStart sp s) := by
  unfold execTimetableWindowStart
  repeat' first
    | with_reducible assumption | with_reducible apply follows_modSpan | with_reducible apply follows_next | with_reducible apply follows_ite | split
    | (intro t x ht; try dsimp only) | (intro t ht; try dsimp only) | (intro v; try beta_reduce) | dsimp only

theorem follows_execTimetableSlot {a s : State} (h : Follows a s) (f : FieldId) (ready : Bool) :
    FollowsNext a (execTimetableSlot f ready s) := by
  unfold execTimetableSlot
  repeat' first
    | with_reducible assumption | with_reducible apply follows_modSpan | with_reducible apply follows_toMembers | with_reducible apply follows_next
    | with_reducible apply follows_ite | split | (intro t x ht; try dsimp only) | (intro t ht; try dsimp only) | (intro v; try beta_reduce)
    | dsimp only

theorem follows_execSlip {a s : State} (h : Follows a s) (p : Pkt) (f : FieldId) :
    FollowsNext a (execSlip p f s) := by
  unfold execSlip
  repeat' first
    | with_reducible assumption | with_reducible apply follows_bump | with_reducible apply follows_carried | with_reducible apply follows_dropStale
    | with_reducible apply follows_event | with_reducible apply follows_modSpan | with_reducible apply follows_next | with_reducible apply follows_ite
    | split | (intro t x ht; try dsimp only) | (intro t ht; try dsimp only) | (intro v; try beta_reduce) | dsimp only

theorem follows_execTimetableWindowEnd {a s : State} (h : Follows a s) (sp : SpanId) :
    FollowsNext a (execTimetableWindowEnd sp s) := by
  unfold execTimetableWindowEnd
  repeat' first
    | with_reducible assumption | with_reducible apply follows_modSpan | with_reducible apply follows_next | with_reducible apply follows_ite | split
    | (intro t x ht; try dsimp only) | (intro t ht; try dsimp only) | (intro v; try beta_reduce) | dsimp only

theorem follows_execReadyReport {a s : State} (h : Follows a s) (f : FieldId) :
    FollowsNext a (execReadyReport f s) := by
  unfold execReadyReport
  repeat' first
    | with_reducible assumption | with_reducible apply follows_modSeq | with_reducible apply follows_send | with_reducible apply follows_next
    | with_reducible apply follows_ite | split | (intro t x ht; try dsimp only) | (intro t ht; try dsimp only) | (intro v; try beta_reduce)
    | dsimp only

theorem follows_execReport {a s : State} (h : Follows a s) (p : Pkt) (kind : ReportKind) (count : BitVec 16) (status : BitVec 16) (window : BitVec 32) :
    FollowsNext a (execReport p kind count status window s) := by
  unfold execReport
  repeat' first
    | with_reducible assumption | with_reducible apply follows_carried | with_reducible apply follows_dropStale | with_reducible apply follows_failed
    | with_reducible apply follows_reportAbortDone | with_reducible apply follows_reportFailed | with_reducible apply follows_reportReady
    | with_reducible apply follows_next | with_reducible apply follows_ite | split | (intro t x ht; try dsimp only) | (intro t ht; try dsimp only)
    | (intro v; try beta_reduce) | dsimp only

theorem follows_execKeystoneReadbackDone {a s : State} (h : Follows a s) (k : SpanId) :
    FollowsNext a (execKeystoneReadbackDone k s) := by
  unfold execKeystoneReadbackDone
  repeat' first
    | with_reducible assumption | with_reducible apply follows_ignored | with_reducible apply follows_keystoneDone
    | with_reducible apply follows_settle | with_reducible apply follows_next | with_reducible apply follows_ite | split
    | (intro t x ht; try dsimp only) | (intro t ht; try dsimp only) | (intro v; try beta_reduce) | dsimp only

theorem follows_execAdvance {a s : State} (h : Follows a s) (p : Pkt) (dest : AdvanceDest) (windowStart : Word64) :
    FollowsNext a (execAdvance p dest windowStart s) := by
  unfold execAdvance
  repeat' first
    | with_reducible assumption | with_reducible apply follows_advanceAway | with_reducible apply follows_advancePier
    | with_reducible apply follows_advanceSupervisor | with_reducible apply follows_carried | with_reducible apply follows_dropStale
    | with_reducible apply follows_engineAdvance | with_reducible apply follows_ignored | with_reducible apply follows_settle
    | with_reducible apply follows_windowAt | with_reducible apply follows_next | with_reducible apply follows_ite | split
    | (intro t x ht; try dsimp only) | (intro t ht; try dsimp only) | (intro v; try beta_reduce) | dsimp only

theorem follows_execCommitTimeout {a s : State} (h : Follows a s) (k : SpanId) :
    FollowsNext a (execCommitTimeout k s) := by
  unfold execCommitTimeout
  repeat' first
    | with_reducible assumption | with_reducible apply follows_abortSpan | with_reducible apply follows_next | with_reducible apply follows_ite
    | split | (intro t x ht; try dsimp only) | (intro t ht; try dsimp only) | (intro v; try beta_reduce) | dsimp only

theorem follows_execPierCommitTimeout {a s : State} (h : Follows a s) (f : FieldId) :
    FollowsNext a (execPierCommitTimeout f s) := by
  unfold execPierCommitTimeout
  repeat' first
    | with_reducible assumption | with_reducible apply follows_loseMember | with_reducible apply follows_probe | with_reducible apply follows_settle
    | with_reducible apply follows_next | with_reducible apply follows_ite | split | (intro t x ht; try dsimp only) | (intro t ht; try dsimp only)
    | (intro v; try beta_reduce) | dsimp only

theorem follows_execAbort {a s : State} (h : Follows a s) (p : Pkt) (f : FieldId) :
    FollowsNext a (execAbort p f s) := by
  unfold execAbort
  repeat' first
    | with_reducible assumption | with_reducible apply follows_abortAway | with_reducible apply follows_carried
    | with_reducible apply follows_dropStale | with_reducible apply follows_ignored | with_reducible apply follows_pierAbort
    | with_reducible apply follows_next | with_reducible apply follows_ite | split | (intro t x ht; try dsimp only) | (intro t ht; try dsimp only)
    | (intro v; try beta_reduce) | dsimp only

theorem follows_execAbortDone {a s : State} (h : Follows a s) (f : FieldId) :
    FollowsNext a (execAbortDone f s) := by
  unfold execAbortDone
  repeat' first
    | with_reducible assumption | with_reducible apply follows_modSeq | with_reducible apply follows_modSpan
    | with_reducible apply follows_prologueAgain | with_reducible apply follows_send | with_reducible apply follows_next
    | with_reducible apply follows_ite | split | (intro t x ht; try dsimp only) | (intro t ht; try dsimp only) | (intro v; try beta_reduce)
    | dsimp only

theorem follows_execOpenMsg {a s : State} (h : Follows a s) (p : Pkt) (f : FieldId) (windowStart : Word64) :
    FollowsNext a (execOpenMsg p f windowStart s) := by
  unfold execOpenMsg
  repeat' first
    | with_reducible assumption | with_reducible apply follows_attemptStart | with_reducible apply follows_carried
    | with_reducible apply follows_dropSegment | with_reducible apply follows_dropStale | with_reducible apply follows_moverSeqEvent
    | with_reducible apply follows_openAway | with_reducible apply follows_windowAt | with_reducible apply follows_next
    | with_reducible apply follows_ite | split | (intro t x ht; try dsimp only) | (intro t ht; try dsimp only) | (intro v; try beta_reduce)
    | dsimp only

theorem follows_execEpochWaitEnd {a s : State} (h : Follows a s) (k : SpanId) :
    FollowsNext a (execEpochWaitEnd k s) := by
  unfold execEpochWaitEnd
  repeat' first
    | with_reducible assumption | with_reducible apply follows_newEpoch | with_reducible apply follows_settle | with_reducible apply follows_next
    | with_reducible apply follows_ite | split | (intro t x ht; try dsimp only) | (intro t ht; try dsimp only) | (intro v; try beta_reduce)
    | dsimp only

theorem follows_execWeightLoadDone {a s : State} (h : Follows a s) (k : SpanId) (result : ReloadResult) :
    FollowsNext a (execWeightLoadDone k result s) := by
  unfold execWeightLoadDone
  repeat' first
    | with_reducible assumption | with_reducible apply follows_ignored | with_reducible apply follows_landDigests
    | with_reducible apply follows_loadFailed | with_reducible apply follows_modSpan | with_reducible apply follows_sendLoaded
    | with_reducible apply follows_tryReady | with_reducible apply follows_foldl | with_reducible apply follows_next
    | with_reducible apply follows_ite | split | (intro t x ht; try dsimp only) | (intro t ht; try dsimp only) | (intro v; try beta_reduce)
    | dsimp only

theorem follows_execSpanDrained {a s : State} (h : Follows a s) (k : SpanId) :
    FollowsNext a (execSpanDrained k s) := by
  unfold execSpanDrained
  repeat' first
    | with_reducible assumption | with_reducible apply follows_discardSpan | with_reducible apply follows_ignored
    | with_reducible apply follows_newEpoch | with_reducible apply follows_poke | with_reducible apply follows_setSpanState
    | with_reducible apply follows_showCommitted | with_reducible apply follows_writeKeystone | with_reducible apply follows_next
    | with_reducible apply follows_ite | split | (intro t x ht; try dsimp only) | (intro t ht; try dsimp only) | (intro v; try beta_reduce)
    | dsimp only

theorem follows_execRequestArrival {a s : State} (h : Follows a s) (k : SpanId) :
    FollowsNext a (execRequestArrival k s) := by
  unfold execRequestArrival
  repeat' first
    | with_reducible assumption | with_reducible apply follows_ignored | with_reducible apply follows_modSpan | with_reducible apply follows_poke
    | with_reducible apply follows_tryOpen | with_reducible apply follows_next | with_reducible apply follows_ite | split
    | (intro t x ht; try dsimp only) | (intro t ht; try dsimp only) | (intro v; try beta_reduce) | dsimp only

theorem follows_execPairingNotice {a s : State} (h : Follows a s) (k src : SpanId) (n : Word64) :
    FollowsNext a (execPairingNotice k src n s) := by
  unfold execPairingNotice
  dsimp only
  repeat' first | with_reducible assumption | with_reducible apply follows_next | with_reducible apply follows_tryOpen | with_reducible apply follows_event | with_reducible apply follows_modSpan | split

theorem follows_execProposalTimeout {a s : State} (h : Follows a s) (k : SpanId) :
    FollowsNext a (execProposalTimeout k s) := by
  unfold execProposalTimeout
  repeat' first
    | with_reducible assumption | with_reducible apply follows_event | with_reducible apply follows_modSpan | with_reducible apply follows_tryOpen
    | with_reducible apply follows_next | with_reducible apply follows_ite | split | (intro t x ht; try dsimp only) | (intro t ht; try dsimp only)
    | (intro v; try beta_reduce) | dsimp only

theorem follows_execRefCopyBad {a s : State} (h : Follows a s) (c : RefCopy) :
    FollowsNext a (execRefCopyBad c s) := by
  unfold execRefCopyBad
  repeat' first
    | with_reducible assumption | with_reducible apply follows_modClocks | with_reducible apply follows_reselect
    | with_reducible apply follows_supEvent | with_reducible apply follows_event | with_reducible apply follows_next
    | with_reducible apply follows_ite | split | (intro t x ht; try dsimp only) | (intro t ht; try dsimp only) | (intro v; try beta_reduce)
    | dsimp only

theorem follows_execRefCopyGood {a s : State} (h : Follows a s) (c : RefCopy) :
    FollowsNext a (execRefCopyGood c s) := by
  unfold execRefCopyGood
  repeat' first
    | with_reducible assumption | with_reducible apply follows_modClocks | with_reducible apply follows_supEvent | with_reducible apply follows_event
    | with_reducible apply follows_next | with_reducible apply follows_ite | split | (intro t x ht; try dsimp only) | (intro t ht; try dsimp only)
    | (intro v; try beta_reduce) | dsimp only

theorem follows_execRefRevert {a s : State} (h : Follows a s)  :
    FollowsNext a (execRefRevert s) := by
  unfold execRefRevert
  repeat' first
    | with_reducible assumption | with_reducible apply follows_switchRef | with_reducible apply follows_next | with_reducible apply follows_ite
    | split | (intro t x ht; try dsimp only) | (intro t ht; try dsimp only) | (intro v; try beta_reduce) | dsimp only

theorem follows_execDrawbridgeStart {a s : State} (h : Follows a s) (f : FieldId) :
    FollowsNext a (execDrawbridgeStart f s) := by
  unfold execDrawbridgeStart
  repeat' first
    | with_reducible assumption | with_reducible apply follows_modClock | with_reducible apply follows_modField
    | with_reducible apply follows_setFieldState | with_reducible apply follows_spinTo | with_reducible apply follows_next
    | with_reducible apply follows_ite | split | (intro t x ht; try dsimp only) | (intro t ht; try dsimp only) | (intro v; try beta_reduce)
    | dsimp only

theorem follows_execDrawbridgeEnd {a s : State} (h : Follows a s) (f : FieldId) (ns : BitVec 16) :
    FollowsNext a (execDrawbridgeEnd f ns s) := by
  unfold execDrawbridgeEnd
  repeat' first
    | with_reducible assumption | with_reducible apply follows_arrayResumes | with_reducible apply follows_bump
    | with_reducible apply follows_drawDone | with_reducible apply follows_forcedDone | with_reducible apply follows_modClock
    | with_reducible apply follows_powerUpdate | with_reducible apply follows_setFieldState | with_reducible apply follows_setReg
    | with_reducible apply follows_settle | with_reducible apply follows_next | with_reducible apply follows_ite | split
    | (intro t x ht; try dsimp only) | (intro t ht; try dsimp only) | (intro v; try beta_reduce) | dsimp only

theorem follows_execPllLockTimeout {a s : State} (h : Follows a s) (f : FieldId) :
    FollowsNext a (execPllLockTimeout f s) := by
  unfold execPllLockTimeout
  repeat' first
    | with_reducible assumption | with_reducible apply follows_charge | with_reducible apply follows_event | with_reducible apply follows_modClock
    | with_reducible apply follows_settle | with_reducible apply follows_next | with_reducible apply follows_ite | split
    | (intro t x ht; try dsimp only) | (intro t ht; try dsimp only) | (intro v; try beta_reduce) | dsimp only

theorem follows_execDroopDetect {a s : State} (h : Follows a s) (f : FieldId) :
    FollowsNext a (execDroopDetect f s) := by
  unfold execDroopDetect
  repeat' first
    | with_reducible assumption | with_reducible apply follows_modClock | with_reducible apply follows_next | with_reducible apply follows_ite | split
    | (intro t x ht; try dsimp only) | (intro t ht; try dsimp only) | (intro v; try beta_reduce) | dsimp only

theorem follows_execStretchEnd {a s : State} (h : Follows a s) (f : FieldId) (periods : Word32) (overQuarter : Bool) :
    FollowsNext a (execStretchEnd f periods overQuarter s) := by
  unfold execStretchEnd
  repeat' first
    | with_reducible assumption | with_reducible apply follows_bump | with_reducible apply follows_event | with_reducible apply follows_modClock
    | with_reducible apply follows_next | with_reducible apply follows_ite | split | (intro t x ht; try dsimp only) | (intro t ht; try dsimp only)
    | (intro v; try beta_reduce) | dsimp only

theorem follows_execBeacon {a s : State} (h : Follows a s) (f : FieldId) (error : BitVec 64) :
    FollowsNext a (execBeacon f error s) := by
  unfold execBeacon
  repeat' first
    | with_reducible assumption | with_reducible apply follows_event | with_reducible apply follows_modClock | with_reducible apply follows_timersTry
    | with_reducible apply follows_next | with_reducible apply follows_ite | split | (intro t x ht; try dsimp only) | (intro t ht; try dsimp only)
    | (intro v; try beta_reduce) | dsimp only

theorem follows_execBeaconNotice {a s : State} (h : Follows a s) (f : FieldId) (value : Word64) :
    FollowsNext a (execBeaconNotice f value s) := by
  unfold execBeaconNotice
  repeat' first
    | with_reducible assumption | with_reducible apply follows_modClock | with_reducible apply follows_next | with_reducible apply follows_ite | split
    | (intro t x ht; try dsimp only) | (intro t ht; try dsimp only) | (intro v; try beta_reduce) | dsimp only

theorem follows_execPtpSync {a s : State} (h : Follows a s) (offset : BitVec 64) :
    FollowsNext a (execPtpSync offset s) := by
  unfold execPtpSync
  repeat' first
    | with_reducible assumption | with_reducible apply follows_modClocks | with_reducible apply follows_ptpStep | with_reducible apply follows_setReg
    | with_reducible apply follows_supEvent | with_reducible apply follows_event | with_reducible apply follows_next
    | with_reducible apply follows_ite | split | (intro t x ht; try dsimp only) | (intro t ht; try dsimp only) | (intro v; try beta_reduce)
    | dsimp only

theorem follows_execPtpDelayResponse {a s : State} (h : Follows a s) (delay : Word32) :
    FollowsNext a (execPtpDelayResponse delay s) := by
  unfold execPtpDelayResponse
  repeat' first
    | with_reducible assumption | with_reducible apply follows_modClocks | with_reducible apply follows_next | with_reducible apply follows_ite
    | split | (intro t x ht; try dsimp only) | (intro t ht; try dsimp only) | (intro v; try beta_reduce) | dsimp only

theorem follows_execPtpAnnounce {a s : State} (h : Follows a s) (identity : Word64) :
    FollowsNext a (execPtpAnnounce identity s) := by
  unfold execPtpAnnounce
  repeat' first
    | with_reducible assumption | with_reducible apply follows_modClocks | with_reducible apply follows_setReg | with_reducible apply follows_next
    | with_reducible apply follows_ite | split | (intro t x ht; try dsimp only) | (intro t ht; try dsimp only) | (intro v; try beta_reduce)
    | dsimp only

theorem follows_execPtpAnnounceTimeout {a s : State} (h : Follows a s)  :
    FollowsNext a (execPtpAnnounceTimeout s) := by
  unfold execPtpAnnounceTimeout
  repeat' first
    | with_reducible assumption | with_reducible apply follows_modClocks | with_reducible apply follows_supEvent | with_reducible apply follows_event
    | with_reducible apply follows_next | with_reducible apply follows_ite | split | (intro t x ht; try dsimp only) | (intro t ht; try dsimp only)
    | (intro v; try beta_reduce) | dsimp only

theorem follows_execEventNotice {a s : State} (h : Follows a s) (src : BitVec 12) :
    FollowsNext a (execEventNotice src s) := by
  unfold execEventNotice
  repeat' first
    | with_reducible assumption | with_reducible apply follows_acceptNotice | with_reducible apply follows_next | with_reducible apply follows_ite
    | split | (intro t x ht; try dsimp only) | (intro t ht; try dsimp only) | (intro v; try beta_reduce) | dsimp only

theorem follows_execFlashPageWrite {a s : State} (h : Follows a s) : FollowsNext a (execFlashPageWrite s) := by
  have h1 (hp : s.recorder.pendingN ≠ 0) : Follows a (s.modRec fun x =>
      { x with flash := (x.flash ++ [(s.recorder.die.drop (s.recorder.die.length - s.recorder.pendingN)).take 128]).drop (x.flash.length + 1 - 128)
               pendingN := x.pendingN - ((s.recorder.die.drop (s.recorder.die.length - s.recorder.pendingN)).take 128).length
               bucket := x.bucket - 1, lostSince := 0 }) := follows_modRec h _ fun w => ⟨Recorder.page_numbered _ w hp _ _ _ _, Nat.le_refl _⟩
  unfold execFlashPageWrite
  dsimp only
  refine follows_next ?_
  split
  · exact h
  · rename_i hn
    have h2 := h1 fun e => hn (.inl e)
    exact follows_ite h2 (follows_record h2 _ _ _)

theorem follows_execPageBucketRefill {a s : State} (h : Follows a s) : FollowsNext a (execPageBucketRefill s) :=
  follows_next (follows_ite (follows_modRec h _ fun w => ⟨w, Nat.le_refl _⟩) h)

theorem follows_execVecConvert {a s : State} (h : Follows a s) (h' : Hdr) (o : VecOp) :
    FollowsNext a (execVecConvert h' o s) := by
  unfold execVecConvert
  repeat' first
    | with_reducible assumption | with_reducible apply follows_vecMap | with_reducible apply follows_next | with_reducible apply follows_ite | split
    | (intro t x ht; try dsimp only) | (intro t ht; try dsimp only) | (intro v; try beta_reduce) | dsimp only

theorem follows_execVecAdd {a s : State} (h : Follows a s) (h' : Hdr) (o : VecOp) :
    FollowsNext a (execVecAdd h' o s) := by
  unfold execVecAdd
  repeat' first
    | with_reducible assumption | with_reducible apply follows_vecMap | with_reducible apply follows_next | with_reducible apply follows_ite | split
    | (intro t x ht; try dsimp only) | (intro t ht; try dsimp only) | (intro v; try beta_reduce) | dsimp only

theorem follows_execVecMul {a s : State} (h : Follows a s) (h' : Hdr) (o : VecOp) :
    FollowsNext a (execVecMul h' o s) := by
  unfold execVecMul
  repeat' first
    | with_reducible assumption | with_reducible apply follows_vecMap | with_reducible apply follows_next | with_reducible apply follows_ite | split
    | (intro t x ht; try dsimp only) | (intro t ht; try dsimp only) | (intro v; try beta_reduce) | dsimp only

theorem follows_execVecRmsnorm {a s : State} (h : Follows a s) (h' : Hdr) (o : VecOp) :
    FollowsNext a (execVecRmsnorm h' o s) := by
  unfold execVecRmsnorm
  repeat' first
    | with_reducible assumption | with_reducible apply follows_vecMap | with_reducible apply follows_next | with_reducible apply follows_ite | split
    | (intro t x ht; try dsimp only) | (intro t ht; try dsimp only) | (intro v; try beta_reduce) | dsimp only

theorem follows_execVecAddnorm {a s : State} (h : Follows a s) (h' : Hdr) (o : VecOp) :
    FollowsNext a (execVecAddnorm h' o s) := by
  unfold execVecAddnorm
  repeat' first
    | with_reducible assumption | with_reducible apply follows_putVectors | with_reducible apply follows_vecCount
    | with_reducible apply follows_vecIssue | with_reducible apply follows_next | with_reducible apply follows_ite | split
    | (intro t x ht; try dsimp only) | (intro t ht; try dsimp only) | (intro v; try beta_reduce) | dsimp only

theorem follows_execVecLayernorm {a s : State} (h : Follows a s) (h' : Hdr) (o : VecOp) :
    FollowsNext a (execVecLayernorm h' o s) := by
  unfold execVecLayernorm
  repeat' first
    | with_reducible assumption | with_reducible apply follows_vecMap | with_reducible apply follows_next | with_reducible apply follows_ite | split
    | (intro t x ht; try dsimp only) | (intro t ht; try dsimp only) | (intro v; try beta_reduce) | dsimp only

theorem follows_execVecSoftmax {a s : State} (h : Follows a s) (h' : Hdr) (o : VecOp) :
    FollowsNext a (execVecSoftmax h' o s) := by
  unfold execVecSoftmax
  repeat' first
    | with_reducible assumption | with_reducible apply follows_modSeq | with_reducible apply follows_softmaxRun
    | with_reducible apply follows_vecIssue | with_reducible apply follows_next | with_reducible apply follows_ite | split
    | (intro t x ht; try dsimp only) | (intro t ht; try dsimp only) | (intro v; try beta_reduce) | dsimp only

theorem follows_execVecSwiglu {a s : State} (h : Follows a s) (h' : Hdr) (o : VecOp) :
    FollowsNext a (execVecSwiglu h' o s) := by
  unfold execVecSwiglu
  repeat' first
    | with_reducible assumption | with_reducible apply follows_vecMap | with_reducible apply follows_next | with_reducible apply follows_ite | split
    | (intro t x ht; try dsimp only) | (intro t ht; try dsimp only) | (intro v; try beta_reduce) | dsimp only

theorem follows_execVecGelu {a s : State} (h : Follows a s) (h' : Hdr) (o : VecOp) :
    FollowsNext a (execVecGelu h' o s) := by
  unfold execVecGelu
  repeat' first
    | with_reducible assumption | with_reducible apply follows_vecMap | with_reducible apply follows_next | with_reducible apply follows_ite | split
    | (intro t x ht; try dsimp only) | (intro t ht; try dsimp only) | (intro v; try beta_reduce) | dsimp only

theorem follows_execVecRotary {a s : State} (h : Follows a s) (h' : Hdr) (o : VecOp) :
    FollowsNext a (execVecRotary h' o s) := by
  unfold execVecRotary
  repeat' first
    | with_reducible assumption | with_reducible apply follows_vecMap | with_reducible apply follows_next | with_reducible apply follows_ite | split
    | (intro t x ht; try dsimp only) | (intro t ht; try dsimp only) | (intro v; try beta_reduce) | dsimp only

theorem follows_execVecTreemask {a s : State} (h : Follows a s) (h' : Hdr) (o : VecOp) :
    FollowsNext a (execVecTreemask h' o s) := by
  unfold execVecTreemask
  repeat' first
    | with_reducible assumption | with_reducible apply follows_event | with_reducible apply follows_failed | with_reducible apply follows_issue
    | with_reducible apply follows_putRows | with_reducible apply follows_setReg | with_reducible apply follows_vecLaunch
    | with_reducible apply follows_vecStalls | with_reducible apply follows_vector | with_reducible apply follows_withRows
    | with_reducible apply follows_next | with_reducible apply follows_ite | split | (intro t x ht; try dsimp only) | (intro t ht; try dsimp only)
    | (intro v; try beta_reduce) | dsimp only

theorem follows_execVecTopk {a s : State} (h : Follows a s) (h' : Hdr) (o : VecOp) :
    FollowsNext a (execVecTopk h' o s) := by
  unfold execVecTopk
  repeat' first
    | with_reducible assumption | with_reducible apply follows_putRows | with_reducible apply follows_vecCount | with_reducible apply follows_vecIssue
    | with_reducible apply follows_next | with_reducible apply follows_ite | split | (intro t x ht; try dsimp only) | (intro t ht; try dsimp only)
    | (intro v; try beta_reduce) | dsimp only

theorem follows_execVecSample {a s : State} (h : Follows a s) (h' : Hdr) (o : VecOp) :
    FollowsNext a (execVecSample h' o s) := by
  unfold execVecSample
  repeat' first
    | with_reducible assumption | with_reducible apply follows_bump | with_reducible apply follows_putRows | with_reducible apply follows_vecIssue
    | with_reducible apply follows_next | with_reducible apply follows_ite | split | (intro t x ht; try dsimp only) | (intro t ht; try dsimp only)
    | (intro v; try beta_reduce) | dsimp only

theorem follows_execVecGather {a s : State} (h : Follows a s) (h' : Hdr) (o : VecOp) :
    FollowsNext a (execVecGather h' o s) := by
  unfold execVecGather
  repeat' first
    | with_reducible assumption | with_reducible apply follows_bump | with_reducible apply follows_putRows | with_reducible apply follows_putVectors
    | with_reducible apply follows_vecCount | with_reducible apply follows_vecIssue | with_reducible apply follows_next
    | with_reducible apply follows_ite | split | (intro t x ht; try dsimp only) | (intro t ht; try dsimp only) | (intro v; try beta_reduce)
    | dsimp only

theorem follows_execVecNotify {a s : State} (h : Follows a s) (h' : Hdr) (o : VecOp) (sampled : List SampledSeq) :
    FollowsNext a (execVecNotify h' o sampled s) := by
  unfold execVecNotify
  repeat' first
    | with_reducible assumption | with_reducible apply follows_accept | with_reducible apply follows_bump | with_reducible apply follows_interrupt
    | with_reducible apply follows_issue | with_reducible apply follows_moverSeqEvent | with_reducible apply follows_vecLaunch
    | with_reducible apply follows_vector | with_reducible apply follows_next | with_reducible apply follows_ite | split
    | (intro t x ht; try dsimp only) | (intro t ht; try dsimp only) | (intro v; try beta_reduce) | dsimp only

end Sys2Proof.Machine
end

