-- ==== Sys2Proof/Laws/FollowsCmds2.lean ====
section
/-! SUPPORT. `Follows` of the commands, part 2 of 3. -/

set_option linter.all false

namespace Sys2Proof.Machine

theorem follows_execVectorVerdict {a s : State} (h : Follows a s) (f : FieldId) (q : BitVec 16) (faults : List LaneFault) :
    FollowsNext a (execVectorVerdict f q faults s) := by
  unfold execVectorVerdict
  repeat' first
    | with_reducible assumption | with_reducible apply follows_bump | with_reducible apply follows_chargePier | with_reducible apply follows_event
    | with_reducible apply follows_failed | with_reducible apply follows_modSeq | with_reducible apply follows_settle
    | with_reducible apply follows_next | with_reducible apply follows_ite | split | (intro t x ht; try dsimp only) | (intro t ht; try dsimp only)
    | (intro v; try beta_reduce) | dsimp only

theorem follows_execProgramLoad {a s : State} (h : Follows a s) (f : FieldId) (image : BitVec 48) :
    FollowsNext a (execProgramLoad f image s) := by
  unfold execProgramLoad
  repeat' first
    | with_reducible assumption | with_reducible apply follows_loadImage | with_reducible apply follows_noteImage
    | with_reducible apply follows_noteOutside | with_reducible apply follows_settle | with_reducible apply follows_supEvent
    | with_reducible apply follows_event | with_reducible apply follows_next | with_reducible apply follows_ite | split
    | (intro t x ht; try dsimp only) | (intro t ht; try dsimp only) | (intro v; try beta_reduce) | dsimp only

theorem follows_execProgmemScrub {a s : State} (h : Follows a s) (f : FieldId) (found : EccResult) :
    FollowsNext a (execProgmemScrub f found s) := by
  unfold execProgmemScrub
  repeat' first
    | with_reducible assumption | with_reducible apply follows_bump | with_reducible apply follows_wordFault | with_reducible apply follows_next
    | with_reducible apply follows_ite | split | (intro t x ht; try dsimp only) | (intro t ht; try dsimp only) | (intro v; try beta_reduce)
    | dsimp only

theorem follows_execProgmemRewriteDone {a s : State} (h : Follows a s) (f : FieldId) :
    FollowsNext a (execProgmemRewriteDone f s) := by
  unfold execProgmemRewriteDone
  repeat' first
    | with_reducible assumption | with_reducible apply follows_modSeq | with_reducible apply follows_next | with_reducible apply follows_ite | split
    | (intro t x ht; try dsimp only) | (intro t ht; try dsimp only) | (intro v; try beta_reduce) | dsimp only

theorem follows_execHeartbeat {a s : State} (h : Follows a s)  :
    FollowsNext a (execHeartbeat s) := by
  unfold execHeartbeat
  repeat' first
    | with_reducible assumption | with_reducible apply follows_emit | with_reducible apply follows_next | with_reducible apply follows_ite | split
    | (intro t x ht; try dsimp only) | (intro t ht; try dsimp only) | (intro v; try beta_reduce) | dsimp only

theorem follows_execSupervisorStartTimeout {a s : State} (h : Follows a s)  :
    FollowsNext a (execSupervisorStartTimeout s) := by
  unfold execSupervisorStartTimeout
  repeat' first
    | with_reducible assumption | with_reducible apply follows_capacityChanged | with_reducible apply follows_modCtl
    | with_reducible apply follows_next | with_reducible apply follows_ite | split | (intro t x ht; try dsimp only) | (intro t ht; try dsimp only)
    | (intro v; try beta_reduce) | dsimp only

theorem follows_execMailboxWrite {a s : State} (h : Follows a s) (p : Pkt) (f : FieldId) (offset : BitVec 12) (bytes : List Byte) :
    FollowsNext a (execMailboxWrite p f offset bytes s) := by
  unfold execMailboxWrite
  repeat' first
    | with_reducible assumption | with_reducible apply follows_carried | with_reducible apply follows_mailboxWrite | with_reducible apply follows_next
    | with_reducible apply follows_ite | split | (intro t x ht; try dsimp only) | (intro t ht; try dsimp only) | (intro v; try beta_reduce)
    | dsimp only

theorem follows_execSupervisorControlPacket {a s : State} (h : Follows a s) (sp : SpanId) (device : Fin 4) (c : PeerControl) :
    FollowsNext a (execSupervisorControlPacket sp device c s) := by
  unfold execSupervisorControlPacket
  repeat' first
    | with_reducible assumption | with_reducible apply follows_installEpoch | with_reducible apply follows_modSpan
    | with_reducible apply follows_setProfile | with_reducible apply follows_setReg | with_reducible apply follows_settle
    | with_reducible apply follows_tryReady | with_reducible apply follows_next | with_reducible apply follows_ite | split
    | (intro t x ht; try dsimp only) | (intro t ht; try dsimp only) | (intro v; try beta_reduce) | dsimp only

theorem follows_execBridgedTakeoverTimeout {a s : State} (h : Follows a s) (sp : SpanId) (device : Fin 4) :
    FollowsNext a (execBridgedTakeoverTimeout sp device s) := by
  unfold execBridgedTakeoverTimeout
  repeat' first
    | with_reducible assumption | with_reducible apply follows_loseMember | with_reducible apply follows_settle | with_reducible apply follows_foldl
    | with_reducible apply follows_next | with_reducible apply follows_ite | split | (intro t x ht; try dsimp only) | (intro t ht; try dsimp only)
    | (intro v; try beta_reduce) | dsimp only

theorem follows_execDigestPassEnd {a s : State} (h : Follows a s) (f : FieldId) :
    FollowsNext a (execDigestPassEnd f s) := by
  unfold execDigestPassEnd
  repeat' first
    | with_reducible assumption | with_reducible apply follows_digestFails | with_reducible apply follows_keepDigests
    | with_reducible apply follows_modBank | with_reducible apply follows_settle | with_reducible apply follows_showDigests
    | with_reducible apply follows_foldl | with_reducible apply follows_next | with_reducible apply follows_ite | split
    | (intro t x ht; try dsimp only) | (intro t ht; try dsimp only) | (intro v; try beta_reduce) | dsimp only

theorem follows_execWeightRewriteDone {a s : State} (h : Follows a s) (f : FieldId) (b : BankId) (result : ReloadResult) :
    FollowsNext a (execWeightRewriteDone f b result s) := by
  unfold execWeightRewriteDone
  repeat' first
    | with_reducible assumption | with_reducible apply follows_event | with_reducible apply follows_modBank | with_reducible apply follows_reloadBank
    | with_reducible apply follows_settle | with_reducible apply follows_stopSpan | with_reducible apply follows_tryOpen
    | with_reducible apply follows_foldl | with_reducible apply follows_next | with_reducible apply follows_ite | split
    | (intro t x ht; try dsimp only) | (intro t ht; try dsimp only) | (intro v; try beta_reduce) | dsimp only

theorem follows_execSegmentStart {a s : State} (h : Follows a s) (f : FieldId) (unit : BitVec 8) (pattern : Word32) :
    FollowsNext a (execSegmentStart f unit pattern s) := by
  unfold execSegmentStart
  repeat' first
    | with_reducible assumption | with_reducible apply follows_arrayEnter | with_reducible apply follows_fieldTesting
    | with_reducible apply follows_modTests | with_reducible apply follows_next | with_reducible apply follows_ite | split
    | (intro t x ht; try dsimp only) | (intro t ht; try dsimp only) | (intro v; try beta_reduce) | dsimp only

theorem follows_execSegmentEnd {a s : State} (h : Follows a s) (f : FieldId) (passed : Bool) (charged : Word32) :
    FollowsNext a (execSegmentEnd f passed charged s) := by
  unfold execSegmentEnd
  repeat' first
    | with_reducible assumption | with_reducible apply follows_arrayIdle | with_reducible apply follows_bump | with_reducible apply follows_cover
    | with_reducible apply follows_fieldTested | with_reducible apply follows_fieldTesting | with_reducible apply follows_modTests
    | with_reducible apply follows_pauseFor | with_reducible apply follows_segmentFails | with_reducible apply follows_settle
    | with_reducible apply follows_supEvent | with_reducible apply follows_testPauseEnds | with_reducible apply follows_event
    | with_reducible apply follows_next | with_reducible apply follows_ite | split | (intro t x ht; try dsimp only) | (intro t ht; try dsimp only)
    | (intro v; try beta_reduce) | dsimp only

theorem follows_execCoverageOverdue {a s : State} (h : Follows a s) (f : FieldId) :
    FollowsNext a (execCoverageOverdue f s) := by
  unfold execCoverageOverdue
  repeat' first
    | with_reducible assumption | with_reducible apply follows_bump | with_reducible apply follows_modTests | with_reducible apply follows_pauseFor
    | with_reducible apply follows_supEvent | with_reducible apply follows_event | with_reducible apply follows_next
    | with_reducible apply follows_ite | split | (intro t x ht; try dsimp only) | (intro t ht; try dsimp only) | (intro v; try beta_reduce)
    | dsimp only

theorem follows_execDiagnosticTestDone {a s : State} (h : Follows a s) (unit : Word32) (found : Findings) :
    FollowsNext a (execDiagnosticTestDone unit found s) := by
  unfold execDiagnosticTestDone
  repeat' first
    | with_reducible assumption | with_reducible apply follows_locatedDone | with_reducible apply follows_settle
    | with_reducible apply follows_suspectDone | with_reducible apply follows_foldl | with_reducible apply follows_next
    | with_reducible apply follows_ite | split | (intro t x ht; try dsimp only) | (intro t ht; try dsimp only) | (intro v; try beta_reduce)
    | dsimp only

theorem follows_execProbeTimeout {a s : State} (h : Follows a s) (f : FieldId) :
    FollowsNext a (execProbeTimeout f s) := by
  unfold execProbeTimeout
  repeat' first
    | with_reducible assumption | with_reducible apply follows_declare | with_reducible apply follows_modFaults | with_reducible apply follows_settle
    | with_reducible apply follows_next | with_reducible apply follows_ite | split | (intro t x ht; try dsimp only) | (intro t ht; try dsimp only)
    | (intro v; try beta_reduce) | dsimp only

theorem follows_execSpareReloadDone {a s : State} (h : Follows a s) (sp : SpanId) (result : ReloadResult) :
    FollowsNext a (execSpareReloadDone sp result s) := by
  unfold execSpareReloadDone
  repeat' first
    | with_reducible assumption | with_reducible apply follows_ignored | with_reducible apply follows_landDigests
    | with_reducible apply follows_modSpan | with_reducible apply follows_recoveryDone | with_reducible apply follows_reloadRegions
    | with_reducible apply follows_settle | with_reducible apply follows_spareTakes | with_reducible apply follows_stopSpan
    | with_reducible apply follows_next | with_reducible apply follows_ite | split | (intro t x ht; try dsimp only) | (intro t ht; try dsimp only)
    | (intro v; try beta_reduce) | dsimp only

theorem follows_execPlanReloadDone {a s : State} (h : Follows a s) (sp : SpanId) (result : ReloadResult) :
    FollowsNext a (execPlanReloadDone sp result s) := by
  unfold execPlanReloadDone
  repeat' first
    | with_reducible assumption | with_reducible apply follows_ignored | with_reducible apply follows_installPlan
    | with_reducible apply follows_landDigests | with_reducible apply follows_noteImage | with_reducible apply follows_noteOutside
    | with_reducible apply follows_recoverFrom | with_reducible apply follows_recoveryDone | with_reducible apply follows_reloadRegions
    | with_reducible apply follows_settle | with_reducible apply follows_stopSpan | with_reducible apply follows_supEvent
    | with_reducible apply follows_event | with_reducible apply follows_foldl | with_reducible apply follows_next | with_reducible apply follows_ite
    | split | (intro t x ht; try dsimp only) | (intro t ht; try dsimp only) | (intro v; try beta_reduce) | dsimp only

theorem follows_execInputUndervoltage {a s : State} (h : Follows a s) (millivolts : Word16) :
    FollowsNext a (execInputUndervoltage millivolts s) := by
  unfold execInputUndervoltage
  repeat' first
    | with_reducible assumption | with_reducible apply follows_alertActs | with_reducible apply follows_modSupply
    | with_reducible apply follows_setReg | with_reducible apply follows_supEvent | with_reducible apply follows_event
    | with_reducible apply follows_next | with_reducible apply follows_ite | split | (intro t x ht; try dsimp only) | (intro t ht; try dsimp only)
    | (intro v; try beta_reduce) | dsimp only

theorem follows_execUndervoltageRelease {a s : State} (h : Follows a s)  :
    FollowsNext a (execUndervoltageRelease s) := by
  unfold execUndervoltageRelease
  repeat' first
    | with_reducible assumption | with_reducible apply follows_alertEnds | with_reducible apply follows_modSupply | with_reducible apply follows_next
    | with_reducible apply follows_ite | split | (intro t x ht; try dsimp only) | (intro t ht; try dsimp only) | (intro v; try beta_reduce)
    | dsimp only

theorem follows_execInputOvervoltage {a s : State} (h : Follows a s) (millivolts : Word16) :
    FollowsNext a (execInputOvervoltage millivolts s) := by
  unfold execInputOvervoltage
  repeat' first
    | with_reducible assumption | with_reducible apply follows_setReg | with_reducible apply follows_supEvent | with_reducible apply follows_event
    | with_reducible apply follows_next | with_reducible apply follows_ite | split | (intro t x ht; try dsimp only) | (intro t ht; try dsimp only)
    | (intro v; try beta_reduce) | dsimp only

theorem follows_execPowerLoss {a s : State} (h : Follows a s)  :
    FollowsNext a (execPowerLoss s) := by
  unfold execPowerLoss
  repeat' first
    | with_reducible assumption | with_reducible apply follows_powerOff | with_reducible apply follows_next | with_reducible apply follows_ite | split
    | (intro t x ht; try dsimp only) | (intro t ht; try dsimp only) | (intro v; try beta_reduce) | dsimp only

theorem follows_execAlertAssert {a s : State} (h : Follows a s)  :
    FollowsNext a (execAlertAssert s) := by
  unfold execAlertAssert
  repeat' first
    | with_reducible assumption | with_reducible apply follows_alertActs | with_reducible apply follows_bump | with_reducible apply follows_modSupply
    | with_reducible apply follows_supEvent | with_reducible apply follows_event | with_reducible apply follows_next
    | with_reducible apply follows_ite | split | (intro t x ht; try dsimp only) | (intro t ht; try dsimp only) | (intro v; try beta_reduce)
    | dsimp only

theorem follows_execAlertRelease {a s : State} (h : Follows a s)  :
    FollowsNext a (execAlertRelease s) := by
  unfold execAlertRelease
  repeat' first
    | with_reducible assumption | with_reducible apply follows_alertEnds | with_reducible apply follows_modSupply
    | with_reducible apply follows_supEvent | with_reducible apply follows_event | with_reducible apply follows_next
    | with_reducible apply follows_ite | split | (intro t x ht; try dsimp only) | (intro t ht; try dsimp only) | (intro v; try beta_reduce)
    | dsimp only

theorem follows_execAlertHoldExpiry {a s : State} (h : Follows a s)  :
    FollowsNext a (execAlertHoldExpiry s) := by
  unfold execAlertHoldExpiry
  repeat' first
    | with_reducible assumption | with_reducible apply follows_modSupply | with_reducible apply follows_powerAll | with_reducible apply follows_next
    | with_reducible apply follows_ite | split | (intro t x ht; try dsimp only) | (intro t ht; try dsimp only) | (intro v; try beta_reduce)
    | dsimp only

theorem follows_execRegCellTrip {a s : State} (h : Follows a s) (f : FieldId) (cell : Idx16) :
    FollowsNext a (execRegCellTrip f cell s) := by
  unfold execRegCellTrip
  repeat' first
    | with_reducible assumption | with_reducible apply follows_cellsApply | with_reducible apply follows_charge
    | with_reducible apply follows_modField | with_reducible apply follows_settle | with_reducible apply follows_supEvent
    | with_reducible apply follows_event | with_reducible apply follows_next | with_reducible apply follows_ite | split
    | (intro t x ht; try dsimp only) | (intro t ht; try dsimp only) | (intro v; try beta_reduce) | dsimp only

theorem follows_execRegCellRestart {a s : State} (h : Follows a s) (f : FieldId) (cell : Idx16) :
    FollowsNext a (execRegCellRestart f cell s) := by
  unfold execRegCellRestart
  repeat' first
    | with_reducible assumption | with_reducible apply follows_cellsApply | with_reducible apply follows_fieldWaking
    | with_reducible apply follows_modField | with_reducible apply follows_settle | with_reducible apply follows_next
    | with_reducible apply follows_ite | split | (intro t x ht; try dsimp only) | (intro t ht; try dsimp only) | (intro v; try beta_reduce)
    | dsimp only

theorem follows_execContactCheck {a s : State} (h : Follows a s) (f : FieldId) (g : Fin 24) (departure : BitVec 16) :
    FollowsNext a (execContactCheck f g departure s) := by
  unfold execContactCheck
  repeat' first
    | with_reducible assumption | with_reducible apply follows_event | with_reducible apply follows_setReg | with_reducible apply follows_next
    | with_reducible apply follows_ite | split | (intro t x ht; try dsimp only) | (intro t ht; try dsimp only) | (intro v; try beta_reduce)
    | dsimp only

theorem follows_execContactCalibration {a s : State} (h : Follows a s) (models : List Word32) :
    FollowsNext a (execContactCalibration models s) := by
  unfold execContactCalibration
  repeat' first
    | with_reducible assumption | with_reducible apply follows_modSupply | with_reducible apply follows_next | with_reducible apply follows_ite
    | split | (intro t x ht; try dsimp only) | (intro t ht; try dsimp only) | (intro v; try beta_reduce) | dsimp only

theorem follows_execVminSample {a s : State} (h : Follows a s) (f : FieldId) (rail : Rail) (millivolts : Word16) :
    FollowsNext a (execVminSample f rail millivolts s) := by
  unfold execVminSample
  repeat' first
    | with_reducible assumption | with_reducible apply follows_event | with_reducible apply follows_modSupply | with_reducible apply follows_setReg
    | with_reducible apply follows_next | with_reducible apply follows_ite | split | (intro t x ht; try dsimp only) | (intro t ht; try dsimp only)
    | (intro v; try beta_reduce) | dsimp only

theorem follows_execAgeingCheck {a s : State} (h : Follows a s) (f : FieldId) (mhz : Word16) :
    FollowsNext a (execAgeingCheck f mhz s) := by
  unfold execAgeingCheck
  repeat' first
    | with_reducible assumption | with_reducible apply follows_changed | with_reducible apply follows_event | with_reducible apply follows_modPower
    | with_reducible apply follows_powerUpdate | with_reducible apply follows_retireDue | with_reducible apply follows_settle
    | with_reducible apply follows_next | with_reducible apply follows_ite | split | (intro t x ht; try dsimp only) | (intro t ht; try dsimp only)
    | (intro v; try beta_reduce) | dsimp only

theorem follows_execVoltageSlewDone {a s : State} (h : Follows a s) (f : FieldId) :
    FollowsNext a (execVoltageSlewDone f s) := by
  unfold execVoltageSlewDone
  repeat' first
    | with_reducible assumption | with_reducible apply follows_modPower | with_reducible apply follows_powerUpdate | with_reducible apply follows_next
    | with_reducible apply follows_ite | split | (intro t x ht; try dsimp only) | (intro t ht; try dsimp only) | (intro v; try beta_reduce)
    | dsimp only

theorem follows_execPhaseHoldExpiry {a s : State} (h : Follows a s) (f : FieldId) :
    FollowsNext a (execPhaseHoldExpiry f s) := by
  unfold execPhaseHoldExpiry
  repeat' first
    | with_reducible assumption | with_reducible apply follows_modPower | with_reducible apply follows_pointMove | with_reducible apply follows_next
    | with_reducible apply follows_ite | split | (intro t x ht; try dsimp only) | (intro t ht; try dsimp only) | (intro v; try beta_reduce)
    | dsimp only

theorem follows_execCapControlInterval {a s : State} (h : Follows a s) (milliwatts : Word32) (pierMilliamps : List Word32) :
    FollowsNext a (execCapControlInterval milliwatts pierMilliamps s) := by
  unfold execCapControlInterval
  repeat' first
    | with_reducible assumption | with_reducible apply follows_bump | with_reducible apply follows_countBubbles
    | with_reducible apply follows_modSupply | with_reducible apply follows_setCapLimit | with_reducible apply follows_setReg
    | with_reducible apply follows_supEvent | with_reducible apply follows_event | with_reducible apply follows_foldl
    | with_reducible apply follows_next | with_reducible apply follows_ite | split | (intro t x ht; try dsimp only) | (intro t ht; try dsimp only)
    | (intro v; try beta_reduce) | dsimp only

theorem follows_execAdmissionCheck {a s : State} (h : Follows a s) (f : FieldId) (zoneMilliamps : Word32) :
    FollowsNext a (execAdmissionCheck f zoneMilliamps s) := by
  unfold execAdmissionCheck
  repeat' first
    | with_reducible assumption | with_reducible apply follows_pierStaging | with_reducible apply follows_zoneMeasured
    | with_reducible apply follows_next | with_reducible apply follows_ite | split | (intro t x ht; try dsimp only) | (intro t ht; try dsimp only)
    | (intro v; try beta_reduce) | dsimp only

theorem follows_execAdmissionTimeout {a s : State} (h : Follows a s) (f : FieldId) :
    FollowsNext a (execAdmissionTimeout f s) := by
  unfold execAdmissionTimeout
  repeat' first
    | with_reducible assumption | with_reducible apply follows_event | with_reducible apply follows_modPower
    | with_reducible apply follows_pierStaging | with_reducible apply follows_next | with_reducible apply follows_ite | split
    | (intro t x ht; try dsimp only) | (intro t ht; try dsimp only) | (intro v; try beta_reduce) | dsimp only

theorem follows_execAdmissionRecheck {a s : State} (h : Follows a s) (f : FieldId) (zoneMilliamps : Word32) :
    FollowsNext a (execAdmissionRecheck f zoneMilliamps s) := by
  unfold execAdmissionRecheck
  repeat' first
    | with_reducible assumption | with_reducible apply follows_modPower | with_reducible apply follows_powerUpdate
    | with_reducible apply follows_zoneMeasured | with_reducible apply follows_next | with_reducible apply follows_ite | split
    | (intro t x ht; try dsimp only) | (intro t ht; try dsimp only) | (intro v; try beta_reduce) | dsimp only

theorem follows_execPierStageDone {a s : State} (h : Follows a s) (f : FieldId) :
    FollowsNext a (execPierStageDone f s) := by
  unfold execPierStageDone
  repeat' first
    | with_reducible assumption | with_reducible apply follows_modPower | with_reducible apply follows_pierOn | with_reducible apply follows_next
    | with_reducible apply follows_ite | split | (intro t x ht; try dsimp only) | (intro t ht; try dsimp only) | (intro v; try beta_reduce)
    | exact follows_fst (by with_reducible assumption) (by first | with_reducible assumption | skip) | dsimp only

theorem follows_execJunctionSample {a s : State} (h : Follows a s) (f : FieldId) (millidegrees : Word32) :
    FollowsNext a (execJunctionSample f millidegrees s) := by
  unfold execJunctionSample
  repeat' first
    | with_reducible assumption | with_reducible apply follows_event | with_reducible apply follows_fieldDarkHeat
    | with_reducible apply follows_heatOff | with_reducible apply follows_modField | with_reducible apply follows_modPower
    | with_reducible apply follows_rerouted | with_reducible apply follows_setReg | with_reducible apply follows_settle
    | with_reducible apply follows_throttle | with_reducible apply follows_next | with_reducible apply follows_ite | split
    | (intro t x ht; try dsimp only) | (intro t ht; try dsimp only) | (intro v; try beta_reduce) | dsimp only

theorem follows_execThermalRelease {a s : State} (h : Follows a s) (f : FieldId) :
    FollowsNext a (execThermalRelease f s) := by
  unfold execThermalRelease
  repeat' first
    | with_reducible assumption | with_reducible apply follows_event | with_reducible apply follows_heatOff | with_reducible apply follows_modPower
    | with_reducible apply follows_pierWake | with_reducible apply follows_powerUpdate | with_reducible apply follows_next
    | with_reducible apply follows_ite | split | (intro t x ht; try dsimp only) | (intro t ht; try dsimp only) | (intro v; try beta_reduce)
    | dsimp only

theorem follows_execHeatKeystoneTimeout {a s : State} (h : Follows a s) (sp : SpanId) :
    FollowsNext a (execHeatKeystoneTimeout sp s) := by
  unfold execHeatKeystoneTimeout
  repeat' first
    | with_reducible assumption | with_reducible apply follows_abortQuorum | with_reducible apply follows_pauseNow
    | with_reducible apply follows_settle | with_reducible apply follows_next | with_reducible apply follows_ite | split
    | (intro t x ht; try dsimp only) | (intro t ht; try dsimp only) | (intro v; try beta_reduce) | dsimp only

theorem follows_execHeatSwapExpiry {a s : State} (h : Follows a s) (f : FieldId) :
    FollowsNext a (execHeatSwapExpiry f s) := by
  unfold execHeatSwapExpiry
  repeat' first
    | with_reducible assumption | with_reducible apply follows_event | with_reducible apply follows_heatOff | with_reducible apply follows_loseMember
    | with_reducible apply follows_modSpan | with_reducible apply follows_settle | with_reducible apply follows_next
    | with_reducible apply follows_ite | split | (intro t x ht; try dsimp only) | (intro t ht; try dsimp only) | (intro v; try beta_reduce)
    | dsimp only

theorem follows_execFieldHeatRelease {a s : State} (h : Follows a s) (f : FieldId) :
    FollowsNext a (execFieldHeatRelease f s) := by
  unfold execFieldHeatRelease
  repeat' first
    | with_reducible assumption | with_reducible apply follows_event | with_reducible apply follows_fieldWaking
    | with_reducible apply follows_modField | with_reducible apply follows_next | with_reducible apply follows_ite | split
    | (intro t x ht; try dsimp only) | (intro t ht; try dsimp only) | (intro v; try beta_reduce) | dsimp only

theorem follows_execFieldUp {a s : State} (h : Follows a s) (f : FieldId) :
    FollowsNext a (execFieldUp f s) := by
  unfold execFieldUp
  repeat' first
    | with_reducible assumption | with_reducible apply follows_fieldBack | with_reducible apply follows_modField
    | with_reducible apply follows_pierWake | with_reducible apply follows_rerouted | with_reducible apply follows_setFieldState
    | with_reducible apply follows_next | with_reducible apply follows_ite | split | (intro t x ht; try dsimp only) | (intro t ht; try dsimp only)
    | (intro v; try beta_reduce) | dsimp only

theorem follows_execFieldWakeTimeout {a s : State} (h : Follows a s) (f : FieldId) :
    FollowsNext a (execFieldWakeTimeout f s) := by
  unfold execFieldWakeTimeout
  repeat' first
    | with_reducible assumption | with_reducible apply follows_chargeOpen | with_reducible apply follows_fieldDark
    | with_reducible apply follows_modField | with_reducible apply follows_settle | with_reducible apply follows_next
    | with_reducible apply follows_ite | split | (intro t x ht; try dsimp only) | (intro t ht; try dsimp only) | (intro v; try beta_reduce)
    | dsimp only

theorem follows_execTowerDieTemperatureSample {a s : State} (h : Follows a s) (t : TowerId) (millidegrees : Word32) :
    FollowsNext a (execTowerDieTemperatureSample t millidegrees s) := by
  unfold execTowerDieTemperatureSample
  repeat' first
    | with_reducible assumption | with_reducible apply follows_modTower | with_reducible apply follows_setReg | with_reducible apply follows_supEvent
    | with_reducible apply follows_event | with_reducible apply follows_next | with_reducible apply follows_ite | split
    | (intro t x ht; try dsimp only) | (intro t ht; try dsimp only) | (intro v; try beta_reduce) | dsimp only

theorem follows_execPersistCounts {a s : State} (h : Follows a s)  :
    FollowsNext a (execPersistCounts s) := by
  unfold execPersistCounts
  repeat' first
    | with_reducible assumption | with_reducible apply follows_persist | with_reducible apply follows_next | with_reducible apply follows_ite | split
    | (intro t x ht; try dsimp only) | (intro t ht; try dsimp only) | (intro v; try beta_reduce) | dsimp only

theorem follows_execBringupStepDone {a s : State} (h : Follows a s) (report : StepReport) :
    FollowsNext a (execBringupStepDone report s) := by
  unfold execBringupStepDone
  repeat' first
    | with_reducible assumption | with_reducible apply follows_bistDone | with_reducible apply follows_bootOther
    | with_reducible apply follows_fastCheck | with_reducible apply follows_fieldsWake | with_reducible apply follows_firmwareRuns
    | with_reducible apply follows_fullReady | with_reducible apply follows_fusesRead | with_reducible apply follows_mapsApplied
    | with_reducible apply follows_modBoot | with_reducible apply follows_nextRound | with_reducible apply follows_piersWake
    | with_reducible apply follows_portsLeft | with_reducible apply follows_portsTrain | with_reducible apply follows_recovered
    | with_reducible apply follows_serveAll | with_reducible apply follows_settle | with_reducible apply follows_showPins
    | with_reducible apply follows_stepEnded | with_reducible apply follows_next | with_reducible apply follows_ite | split
    | (intro t x ht; try dsimp only) | (intro t ht; try dsimp only) | (intro v; try beta_reduce) | dsimp only

theorem follows_execPowerGood {a s : State} (h : Follows a s)  :
    FollowsNext a (execPowerGood s) := by
  unfold execPowerGood
  repeat' first
    | with_reducible assumption | with_reducible apply follows_bump | with_reducible apply follows_modBoot | with_reducible apply follows_persist
    | with_reducible apply follows_showPins | with_reducible apply follows_next | with_reducible apply follows_ite | split
    | (intro t x ht; try dsimp only) | (intro t ht; try dsimp only) | (intro v; try beta_reduce) | dsimp only

theorem follows_execSpanlinkRetry {a s : State} (h : Follows a s) (p : LinkId) :
    FollowsNext a (execSpanlinkRetry p s) := by
  unfold execSpanlinkRetry
  repeat' first
    | with_reducible assumption | with_reducible apply follows_setPortState | with_reducible apply follows_next | with_reducible apply follows_ite
    | split | (intro t x ht; try dsimp only) | (intro t ht; try dsimp only) | (intro v; try beta_reduce) | dsimp only

theorem follows_execActivationStart {a s : State} (h : Follows a s)  :
    FollowsNext a (execActivationStart s) := by
  unfold execActivationStart
  repeat' first
    | with_reducible assumption | with_reducible apply follows_activateNext | with_reducible apply follows_modBoot
    | with_reducible apply follows_setUpdate | with_reducible apply follows_next | with_reducible apply follows_ite | split
    | (intro t x ht; try dsimp only) | (intro t ht; try dsimp only) | (intro v; try beta_reduce) | dsimp only

theorem follows_execFieldRestart {a s : State} (h : Follows a s) (f : FieldId) :
    FollowsNext a (execFieldRestart f s) := by
  unfold execFieldRestart
  repeat' first
    | with_reducible assumption | with_reducible apply follows_activateNext | with_reducible apply follows_rollbackNext
    | with_reducible apply follows_next | with_reducible apply follows_ite | split | (intro t x ht; try dsimp only) | (intro t ht; try dsimp only)
    | (intro v; try beta_reduce) | dsimp only

theorem follows_execRestartKeystoneTimeout {a s : State} (h : Follows a s) (sp : SpanId) :
    FollowsNext a (execRestartKeystoneTimeout sp s) := by
  unfold execRestartKeystoneTimeout
  repeat' first
    | with_reducible assumption | with_reducible apply follows_abortQuorum | with_reducible apply follows_pauseNow
    | with_reducible apply follows_settle | with_reducible apply follows_next | with_reducible apply follows_ite | split
    | (intro t x ht; try dsimp only) | (intro t ht; try dsimp only) | (intro v; try beta_reduce) | dsimp only

theorem follows_execFieldRestartDone {a s : State} (h : Follows a s) (f : FieldId) :
    FollowsNext a (execFieldRestartDone f s) := by
  unfold execFieldRestartDone
  repeat' first
    | with_reducible assumption | with_reducible apply follows_imageReload | with_reducible apply follows_modBoot
    | with_reducible apply follows_modField | with_reducible apply follows_modSpan | with_reducible apply follows_newEpoch
    | with_reducible apply follows_powerUpdate | with_reducible apply follows_restartUnmark | with_reducible apply follows_rollbackCheck
    | with_reducible apply follows_setFieldState | with_reducible apply follows_setUpdate | with_reducible apply follows_settle
    | with_reducible apply follows_supEvent | with_reducible apply follows_event | with_reducible apply follows_next
    | with_reducible apply follows_ite | split | (intro t x ht; try dsimp only) | (intro t ht; try dsimp only) | (intro v; try beta_reduce)
    | dsimp only

theorem follows_execFieldRestartTimeout {a s : State} (h : Follows a s) (f : FieldId) :
    FollowsNext a (execFieldRestartTimeout f s) := by
  unfold execFieldRestartTimeout
  repeat' first
    | with_reducible assumption | with_reducible apply follows_chargeOpen | with_reducible apply follows_rollBack
    | with_reducible apply follows_rollbackCheck | with_reducible apply follows_settle | with_reducible apply follows_next
    | with_reducible apply follows_ite | split | (intro t x ht; try dsimp only) | (intro t ht; try dsimp only) | (intro v; try beta_reduce)
    | dsimp only

theorem follows_execSupervisorRestartDone {a s : State} (h : Follows a s)  :
    FollowsNext a (execSupervisorRestartDone s) := by
  unfold execSupervisorRestartDone
  repeat' first
    | with_reducible assumption | with_reducible apply follows_activationCommit | with_reducible apply follows_modBoot
    | with_reducible apply follows_rollbackCheck | with_reducible apply follows_switchSupervisor | with_reducible apply follows_next
    | with_reducible apply follows_ite | split | (intro t x ht; try dsimp only) | (intro t ht; try dsimp only) | (intro v; try beta_reduce)
    | dsimp only

theorem follows_execHeartbeatTimeout {a s : State} (h : Follows a s)  :
    FollowsNext a (execHeartbeatTimeout s) := by
  unfold execHeartbeatTimeout
  repeat' first
    | with_reducible assumption | with_reducible apply follows_newLeaves | with_reducible apply follows_rollBack | with_reducible apply follows_settle
    | with_reducible apply follows_takeover | with_reducible apply follows_next | with_reducible apply follows_ite | split
    | (intro t x ht; try dsimp only) | (intro t ht; try dsimp only) | (intro v; try beta_reduce) | dsimp only

theorem follows_execStagingWindowWrite {a s : State} (h : Follows a s) (offset : BitVec 25) (bytes : List Byte) :
    FollowsNext a (execStagingWindowWrite offset bytes s) := by
  unfold execStagingWindowWrite
  repeat' first
    | with_reducible assumption | with_reducible apply follows_stageWindow | with_reducible apply follows_next | with_reducible apply follows_ite
    | split | (intro t x ht; try dsimp only) | (intro t ht; try dsimp only) | (intro v; try beta_reduce) | dsimp only

theorem follows_execAttestTokenRefill {a s : State} (h : Follows a s)  :
    FollowsNext a (execAttestTokenRefill s) := by
  unfold execAttestTokenRefill
  repeat' first
    | with_reducible assumption | with_reducible apply follows_setReg | with_reducible apply follows_next | with_reducible apply follows_ite | split
    | (intro t x ht; try dsimp only) | (intro t ht; try dsimp only) | (intro v; try beta_reduce) | dsimp only

theorem follows_execStart {a s : State} (h : Follows a s) (d : Datagram) :
    FollowsNext a (execStart d s) := by
  unfold execStart
  repeat' first
    | with_reducible assumption | with_reducible apply follows_requestIn | with_reducible apply follows_next | with_reducible apply follows_ite
    | split | (intro t x ht; try dsimp only) | (intro t ht; try dsimp only) | (intro v; try beta_reduce) | dsimp only

theorem follows_execAppend {a s : State} (h : Follows a s) (d : Datagram) :
    FollowsNext a (execAppend d s) := by
  unfold execAppend
  repeat' first
    | with_reducible assumption | with_reducible apply follows_requestIn | with_reducible apply follows_next | with_reducible apply follows_ite
    | split | (intro t x ht; try dsimp only) | (intro t ht; try dsimp only) | (intro v; try beta_reduce) | dsimp only

theorem follows_execEndSeq {a s : State} (h : Follows a s) (d : Datagram) :
    FollowsNext a (execEndSeq d s) := by
  unfold execEndSeq
  repeat' first
    | with_reducible assumption | with_reducible apply follows_requestIn | with_reducible apply follows_next | with_reducible apply follows_ite
    | split | (intro t x ht; try dsimp only) | (intro t ht; try dsimp only) | (intro v; try beta_reduce) | dsimp only

theorem follows_execCancel {a s : State} (h : Follows a s) (d : Datagram) :
    FollowsNext a (execCancel d s) := by
  unfold execCancel
  repeat' first
    | with_reducible assumption | with_reducible apply follows_requestIn | with_reducible apply follows_next | with_reducible apply follows_ite
    | split | (intro t x ht; try dsimp only) | (intro t ht; try dsimp only) | (intro v; try beta_reduce) | dsimp only

theorem follows_execEthLinkUp {a s : State} (h : Follows a s) (e : EthId) :
    FollowsNext a (execEthLinkUp e s) := by
  unfold execEthLinkUp
  repeat' first
    | with_reducible assumption | with_reducible apply follows_capacityChanged | with_reducible apply follows_event
    | with_reducible apply follows_modEth | with_reducible apply follows_next | with_reducible apply follows_ite | split
    | (intro t x ht; try dsimp only) | (intro t ht; try dsimp only) | (intro v; try beta_reduce) | dsimp only

theorem follows_execEthLinkDown {a s : State} (h : Follows a s) (e : EthId) (retiredLane : Option Idx16) :
    FollowsNext a (execEthLinkDown e retiredLane s) := by
  unfold execEthLinkDown
  repeat' first
    | with_reducible assumption | with_reducible apply follows_ethDown | with_reducible apply follows_retireLane | with_reducible apply follows_settle
    | with_reducible apply follows_next | with_reducible apply follows_ite | split | (intro t x ht; try dsimp only) | (intro t ht; try dsimp only)
    | (intro v; try beta_reduce) | dsimp only

theorem follows_execFrameReceived {a s : State} (h : Follows a s) (port : FramePort) (kind : OtherFrame) :
    FollowsNext a (execFrameReceived port kind s) := by
  unfold execFrameReceived
  repeat' first
    | with_reducible assumption | with_reducible apply follows_ethFrame | with_reducible apply follows_t1sFrame | with_reducible apply follows_next
    | with_reducible apply follows_ite | split | (intro t x ht; try dsimp only) | (intro t ht; try dsimp only) | (intro v; try beta_reduce)
    | dsimp only

theorem follows_execT1sLinkChange {a s : State} (h : Follows a s) (p : Fin 2) (up : Bool) (plca : Bool) :
    FollowsNext a (execT1sLinkChange p up plca s) := by
  unfold execT1sLinkChange
  repeat' first
    | with_reducible assumption | with_reducible apply follows_setReg | with_reducible apply follows_next | with_reducible apply follows_ite | split
    | (intro t x ht; try dsimp only) | (intro t ht; try dsimp only) | (intro v; try beta_reduce) | dsimp only

theorem follows_execRtpPacket {a s : State} (h : Follows a s) (st : StreamId) (p : RtpPkt) :
    FollowsNext a (execRtpPacket st p s) := by
  unfold execRtpPacket
  repeat' first
    | with_reducible assumption | with_reducible apply follows_bump | with_reducible apply follows_event | with_reducible apply follows_frameDrop
    | with_reducible apply follows_modStream | with_reducible apply follows_rtpTaken | with_reducible apply follows_next
    | with_reducible apply follows_ite | split | (intro t ht; exact ht) | (intro t x ht; try dsimp only) | (intro t ht; try dsimp only)
    | (intro v; try beta_reduce) | dsimp only

theorem follows_execRtcpPacket {a s : State} (h : Follows a s) (st : StreamId) (roundTrip : Word32) :
    FollowsNext a (execRtcpPacket st roundTrip s) := by
  unfold execRtcpPacket
  repeat' first
    | with_reducible assumption | with_reducible apply follows_bump | with_reducible apply follows_modStream | with_reducible apply follows_next
    | with_reducible apply follows_ite | split | (intro t ht; exact ht) | (intro t x ht; try dsimp only) | (intro t ht; try dsimp only)
    | (intro v; try beta_reduce) | dsimp only

theorem follows_execRtcpIntervalTimer {a s : State} (h : Follows a s) (engine : Fin 2) :
    FollowsNext a (execRtcpIntervalTimer engine s) := by
  unfold execRtcpIntervalTimer
  repeat' first
    | with_reducible assumption | with_reducible apply follows_record | with_reducible apply follows_streamOut | with_reducible apply follows_foldl
    | with_reducible apply follows_next | with_reducible apply follows_ite | split | (intro t ht; exact ht) | (intro t x ht; try dsimp only)
    | (intro t ht; try dsimp only) | (intro v; try beta_reduce) | dsimp only

theorem follows_execStreamTimeout {a s : State} (h : Follows a s) (st : StreamId) :
    FollowsNext a (execStreamTimeout st s) := by
  unfold execStreamTimeout
  repeat' first
    | with_reducible assumption | with_reducible apply follows_event | with_reducible apply follows_modPorts | with_reducible apply follows_modStream
    | with_reducible apply follows_next | with_reducible apply follows_ite | split | (intro t ht; exact ht) | (intro t x ht; try dsimp only)
    | (intro t ht; try dsimp only) | (intro v; try beta_reduce) | dsimp only

theorem follows_execMediaTick {a s : State} (h : Follows a s) (g : MediaGroup) :
    FollowsNext a (execMediaTick g s) := by
  unfold execMediaTick
  repeat' first
    | with_reducible assumption | with_reducible apply follows_bump | with_reducible apply follows_modPorts | with_reducible apply follows_modStream
    | with_reducible apply follows_moverMediaEvent | with_reducible apply follows_noteOutside | with_reducible apply follows_poke
    | with_reducible apply follows_record | with_reducible apply follows_foldl | with_reducible apply follows_next | with_reducible apply follows_ite
    | split | (intro t ht; exact ht) | (intro t x ht; try dsimp only) | (intro t ht; try dsimp only) | (intro v; try beta_reduce) | dsimp only

theorem follows_execTxSendPoint {a s : State} (h : Follows a s) (g : MediaGroup) :
    FollowsNext a (execTxSendPoint g s) := by
  unfold execTxSendPoint
  repeat' first
    | with_reducible assumption | with_reducible apply follows_modStream | with_reducible apply follows_noteOutside
    | with_reducible apply follows_noteRead | with_reducible apply follows_settle | with_reducible apply follows_streamSent
    | with_reducible apply follows_foldl | with_reducible apply follows_next | with_reducible apply follows_ite | split | (intro t ht; exact ht)
    | (intro t x ht; try dsimp only) | (intro t ht; try dsimp only) | (intro v; try beta_reduce) | dsimp only

theorem follows_execSpanlinkTrainingDone {a s : State} (h : Follows a s) (p : LinkId) (answered : Bool) (goodLanes : BitVec 16) (serial : Word64) (peerPort : BitVec 8) (crossNs : Word32) :
    FollowsNext a (execSpanlinkTrainingDone p answered goodLanes serial peerPort crossNs s) := by
  unfold execSpanlinkTrainingDone
  repeat' first
    | with_reducible assumption | with_reducible apply follows_linkLost | with_reducible apply follows_linkOff
    | with_reducible apply follows_linkRetrained | with_reducible apply follows_linkTrained | with_reducible apply follows_settle
    | with_reducible apply follows_next | with_reducible apply follows_ite | split | (intro t x ht; try dsimp only) | (intro t ht; try dsimp only)
    | (intro v; try beta_reduce) | dsimp only

theorem follows_execSpanlinkFlitReplay {a s : State} (h : Follows a s) (p : LinkId) (failed : Bool) :
    FollowsNext a (execSpanlinkFlitReplay p failed s) := by
  unfold execSpanlinkFlitReplay
  repeat' first
    | with_reducible assumption | with_reducible apply follows_bump | with_reducible apply follows_failed | with_reducible apply follows_linkRetrain
    | with_reducible apply follows_modLink | with_reducible apply follows_next | with_reducible apply follows_ite | split
    | (intro t x ht; try dsimp only) | (intro t ht; try dsimp only) | (intro v; try beta_reduce) | dsimp only

theorem follows_execSpanlinkFault {a s : State} (h : Follows a s) (p : LinkId) :
    FollowsNext a (execSpanlinkFault p s) := by
  unfold execSpanlinkFault
  repeat' first
    | with_reducible assumption | with_reducible apply follows_linkRetrain | with_reducible apply follows_next | with_reducible apply follows_ite
    | split | (intro t x ht; try dsimp only) | (intro t ht; try dsimp only) | (intro v; try beta_reduce) | dsimp only

theorem follows_execSpanlinkRetrainTimeout {a s : State} (h : Follows a s) (p : LinkId) :
    FollowsNext a (execSpanlinkRetrainTimeout p s) := by
  unfold execSpanlinkRetrainTimeout
  repeat' first
    | with_reducible assumption | with_reducible apply follows_linkLost | with_reducible apply follows_next | with_reducible apply follows_ite | split
    | (intro t x ht; try dsimp only) | (intro t ht; try dsimp only) | (intro v; try beta_reduce) | dsimp only

theorem follows_execSpanlinkPeerNotice {a s : State} (h : Follows a s) (p : LinkId) (retired : Bool) :
    FollowsNext a (execSpanlinkPeerNotice p retired s) := by
  unfold execSpanlinkPeerNotice
  repeat' first
    | with_reducible assumption | with_reducible apply follows_linkRetrain | with_reducible apply follows_retirePort
    | with_reducible apply follows_settle | with_reducible apply follows_supEvent | with_reducible apply follows_event
    | with_reducible apply follows_next | with_reducible apply follows_ite | split | (intro t x ht; try dsimp only) | (intro t ht; try dsimp only)
    | (intro v; try beta_reduce) | dsimp only

theorem follows_execSpanlinkPacket {a s : State} (h : Follows a s) (p : LinkId) (inbound : Bool) (type : BitVec 8) (k : Pkt) (addr : BitVec 48) :
    FollowsNext a (execSpanlinkPacket p inbound type k addr s) := by
  unfold execSpanlinkPacket
  repeat' first
    | with_reducible assumption | with_reducible apply follows_carried | with_reducible apply follows_cross | with_reducible apply follows_next
    | with_reducible apply follows_ite | split | (intro t x ht; try dsimp only) | (intro t ht; try dsimp only) | (intro v; try beta_reduce)
    | dsimp only

theorem follows_execModResetN {a s : State} (h : Follows a s)  :
    FollowsNext a (execModResetN s) := by
  unfold execModResetN
  repeat' first
    | with_reducible assumption | with_reducible apply follows_powerOff | with_reducible apply follows_next | with_reducible apply follows_ite | split
    | (intro t x ht; try dsimp only) | (intro t ht; try dsimp only) | (intro v; try beta_reduce) | dsimp only

theorem follows_execLeakDetect {a s : State} (h : Follows a s)  :
    FollowsNext a (execLeakDetect s) := by
  unfold execLeakDetect
  repeat' first
    | with_reducible assumption | with_reducible apply follows_setReg | with_reducible apply follows_showPins | with_reducible apply follows_supEvent
    | with_reducible apply follows_event | with_reducible apply follows_next | with_reducible apply follows_ite | split
    | (intro t x ht; try dsimp only) | (intro t ht; try dsimp only) | (intro v; try beta_reduce) | dsimp only

theorem follows_execCoolantSample {a s : State} (h : Follows a s) (inlet : Word32) (outlet : Word32) (flow : Option Word32) :
    FollowsNext a (execCoolantSample inlet outlet flow s) := by
  unfold execCoolantSample
  repeat' first
    | with_reducible assumption | with_reducible apply follows_coolantCap | with_reducible apply follows_coolantMeasured
    | with_reducible apply follows_modSupply | with_reducible apply follows_showPins | with_reducible apply follows_next
    | with_reducible apply follows_ite | split | (intro t x ht; try dsimp only) | (intro t ht; try dsimp only) | (intro v; try beta_reduce)
    | dsimp only

theorem follows_execBypass {a s : State} (h : Follows a s)  :
    FollowsNext a (execBypass s) := by
  unfold execBypass
  repeat' first
    | with_reducible assumption | with_reducible apply follows_jtagBypass | with_reducible apply follows_next | with_reducible apply follows_ite
    | split | (intro t x ht; try dsimp only) | (intro t ht; try dsimp only) | (intro v; try beta_reduce) | dsimp only

theorem follows_execIdcode {a s : State} (h : Follows a s) : FollowsNext a (execIdcode s) := by
  unfold execIdcode
  refine follows_next ?_
  repeat' first | with_reducible assumption | with_reducible apply follows_jtagBypass | with_reducible apply follows_emit | exact follows_jtag h _ | split | dsimp only

theorem follows_execSamplePreload {a s : State} (h : Follows a s) (p : Option Word64) : FollowsNext a (execSamplePreload p s) := by
  unfold execSamplePreload
  refine follows_next ?_
  split
  · exact follows_jtag h _
  · dsimp only
    exact follows_nextFree (follows_emit (follows_jtag h _) _)

theorem follows_execExtest {a s : State} (h : Follows a s) : FollowsNext a (execExtest s) := by
  unfold execExtest
  refine follows_next ?_
  repeat' first | with_reducible assumption | with_reducible apply follows_jtagBypass | with_reducible apply follows_emit | exact follows_jtag h _ | split | dsimp only

theorem follows_execClamp {a s : State} (h : Follows a s) : FollowsNext a (execClamp s) := by
  unfold execClamp
  refine follows_next ?_
  repeat' first | with_reducible assumption | with_reducible apply follows_jtagBypass | with_reducible apply follows_emit | exact follows_jtag h _ | split | dsimp only

theorem follows_execDictRead {a s : State} (h : Follows a s) (r : Req) (index : BitVec 16) (sub : BitVec 8) (offset : Word32) (length : Word32) :
    FollowsNext a (execDictRead r index sub offset length s) := by
  unfold execDictRead
  repeat' first
    | with_reducible assumption | with_reducible apply follows_ask | with_reducible apply follows_next | with_reducible apply follows_ite | split
    | (intro t x ht; try dsimp only) | (intro t ht; try dsimp only) | (intro v; try beta_reduce) | dsimp only

theorem follows_execDictWrite {a s : State} (h : Follows a s) (r : Req) (index : BitVec 16) (sub : BitVec 8) (value : List Byte) :
    FollowsNext a (execDictWrite r index sub value s) := by
  unfold execDictWrite
  repeat' first
    | with_reducible assumption | with_reducible apply follows_ask | with_reducible apply follows_next | with_reducible apply follows_ite | split
    | (intro t x ht; try dsimp only) | (intro t ht; try dsimp only) | (intro v; try beta_reduce) | dsimp only

end Sys2Proof.Machine
end

