-- ==== Sys2Proof/Laws/FollowsCmds3.lean ====
section
/-! SUPPORT. `Follows` of the commands, part 3 of 3. -/

set_option linter.all false

namespace Sys2Proof.Machine

theorem follows_execTxBegin {a s : State} (h : Follows a s) (r : Req) :
    FollowsNext a (execTxBegin r s) := by
  unfold execTxBegin
  repeat' first
    | with_reducible assumption | with_reducible apply follows_ask | with_reducible apply follows_next | with_reducible apply follows_ite | split
    | (intro t x ht; try dsimp only) | (intro t ht; try dsimp only) | (intro v; try beta_reduce) | dsimp only

theorem follows_execTxCommit {a s : State} (h : Follows a s) (r : Req) :
    FollowsNext a (execTxCommit r s) := by
  unfold execTxCommit
  repeat' first
    | with_reducible assumption | with_reducible apply follows_ask | with_reducible apply follows_next | with_reducible apply follows_ite | split
    | (intro t x ht; try dsimp only) | (intro t ht; try dsimp only) | (intro v; try beta_reduce) | dsimp only

theorem follows_execTxAbort {a s : State} (h : Follows a s) (r : Req) :
    FollowsNext a (execTxAbort r s) := by
  unfold execTxAbort
  repeat' first
    | with_reducible assumption | with_reducible apply follows_ask | with_reducible apply follows_next | with_reducible apply follows_ite | split
    | (intro t x ht; try dsimp only) | (intro t ht; try dsimp only) | (intro v; try beta_reduce) | dsimp only

theorem follows_execSummary {a s : State} (h : Follows a s) (r : Req) (length : Word32) :
    FollowsNext a (execSummary r length s) := by
  unfold execSummary
  repeat' first
    | with_reducible assumption | with_reducible apply follows_ask | with_reducible apply follows_next | with_reducible apply follows_ite | split
    | (intro t x ht; try dsimp only) | (intro t ht; try dsimp only) | (intro v; try beta_reduce) | dsimp only

theorem follows_execDescribe {a s : State} (h : Follows a s) (r : Req) (index : BitVec 16) (sub : BitVec 8) :
    FollowsNext a (execDescribe r index sub s) := by
  unfold execDescribe
  repeat' first
    | with_reducible assumption | with_reducible apply follows_ask | with_reducible apply follows_next | with_reducible apply follows_ite | split
    | (intro t x ht; try dsimp only) | (intro t ht; try dsimp only) | (intro v; try beta_reduce) | dsimp only

theorem follows_execNop {a s : State} (h : Follows a s) (r : Req) :
    FollowsNext a (execNop r s) := by
  unfold execNop
  repeat' first
    | with_reducible assumption | with_reducible apply follows_ask | with_reducible apply follows_next | with_reducible apply follows_ite | split
    | (intro t x ht; try dsimp only) | (intro t ht; try dsimp only) | (intro v; try beta_reduce) | dsimp only

theorem follows_execWindowRead {a s : State} (h : Follows a s) (r : Req) :
    FollowsNext a (execWindowRead r s) := by
  unfold execWindowRead
  repeat' first
    | with_reducible assumption | with_reducible apply follows_ask | with_reducible apply follows_next | with_reducible apply follows_ite | split
    | (intro t x ht; try dsimp only) | (intro t ht; try dsimp only) | (intro v; try beta_reduce) | dsimp only

theorem follows_execSupervisorSwap {a s : State} (h : Follows a s) (r : Req) (value : List Byte) :
    FollowsNext a (execSupervisorSwap r value s) := by
  unfold execSupervisorSwap
  repeat' first
    | with_reducible assumption | with_reducible apply follows_ask | with_reducible apply follows_next | with_reducible apply follows_ite | split
    | (intro t x ht; try dsimp only) | (intro t ht; try dsimp only) | (intro v; try beta_reduce) | dsimp only

theorem follows_execCreate {a s : State} (h : Follows a s) (r : Req) (sp : SpanId) :
    FollowsNext a (execCreate r sp s) := by
  unfold execCreate
  repeat' first
    | with_reducible assumption | with_reducible apply follows_ask | with_reducible apply follows_next | with_reducible apply follows_ite | split
    | (intro t x ht; try dsimp only) | (intro t ht; try dsimp only) | (intro v; try beta_reduce) | dsimp only

theorem follows_execSpanReset {a s : State} (h : Follows a s) (r : Req) (sp : SpanId) :
    FollowsNext a (execSpanReset r sp s) := by
  unfold execSpanReset
  repeat' first
    | with_reducible assumption | with_reducible apply follows_ask | with_reducible apply follows_next | with_reducible apply follows_ite | split
    | (intro t x ht; try dsimp only) | (intro t ht; try dsimp only) | (intro v; try beta_reduce) | dsimp only

theorem follows_execSpanDelete {a s : State} (h : Follows a s) (r : Req) (sp : SpanId) :
    FollowsNext a (execSpanDelete r sp s) := by
  unfold execSpanDelete
  repeat' first
    | with_reducible assumption | with_reducible apply follows_ask | with_reducible apply follows_next | with_reducible apply follows_ite | split
    | (intro t x ht; try dsimp only) | (intro t ht; try dsimp only) | (intro v; try beta_reduce) | dsimp only

theorem follows_execPause {a s : State} (h : Follows a s) (r : Req) (sp : SpanId) (value : List Byte) :
    FollowsNext a (execPause r sp value s) := by
  unfold execPause
  repeat' first
    | with_reducible assumption | with_reducible apply follows_ask | with_reducible apply follows_next | with_reducible apply follows_ite | split
    | (intro t x ht; try dsimp only) | (intro t ht; try dsimp only) | (intro v; try beta_reduce) | dsimp only

theorem follows_execStepVariant {a s : State} (h : Follows a s) (r : Req) (sp : SpanId) (value : List Byte) :
    FollowsNext a (execStepVariant r sp value s) := by
  unfold execStepVariant
  repeat' first
    | with_reducible assumption | with_reducible apply follows_ask | with_reducible apply follows_next | with_reducible apply follows_ite | split
    | (intro t x ht; try dsimp only) | (intro t ht; try dsimp only) | (intro v; try beta_reduce) | dsimp only

theorem follows_execCoreSpan {a s : State} (h : Follows a s) (r : Req) (f : FieldId) (value : List Byte) :
    FollowsNext a (execCoreSpan r f value s) := by
  unfold execCoreSpan
  repeat' first
    | with_reducible assumption | with_reducible apply follows_ask | with_reducible apply follows_next | with_reducible apply follows_ite | split
    | (intro t x ht; try dsimp only) | (intro t ht; try dsimp only) | (intro v; try beta_reduce) | dsimp only

theorem follows_execAccessEntry {a s : State} (h : Follows a s) (r : Req) (target : BitVec 8) (e : Fin 64) (value : List Byte) :
    FollowsNext a (execAccessEntry r target e value s) := by
  unfold execAccessEntry
  repeat' first
    | with_reducible assumption | with_reducible apply follows_ask | with_reducible apply follows_next | with_reducible apply follows_ite | split
    | (intro t x ht; try dsimp only) | (intro t ht; try dsimp only) | (intro v; try beta_reduce) | dsimp only

theorem follows_execSetDesc {a s : State} (h : Follows a s) (r : Req) (k : SetId) (value : List Byte) :
    FollowsNext a (execSetDesc r k value s) := by
  unfold execSetDesc
  repeat' first
    | with_reducible assumption | with_reducible apply follows_ask | with_reducible apply follows_next | with_reducible apply follows_ite | split
    | (intro t x ht; try dsimp only) | (intro t ht; try dsimp only) | (intro v; try beta_reduce) | dsimp only

theorem follows_execCheckProfile {a s : State} (h : Follows a s) (r : Req) (sp : SpanId) (value : List Byte) :
    FollowsNext a (execCheckProfile r sp value s) := by
  unfold execCheckProfile
  repeat' first
    | with_reducible assumption | with_reducible apply follows_ask | with_reducible apply follows_next | with_reducible apply follows_ite | split
    | (intro t x ht; try dsimp only) | (intro t ht; try dsimp only) | (intro v; try beta_reduce) | dsimp only

theorem follows_execPredReset {a s : State} (h : Follows a s) (r : Req) (sp : SpanId) (value : List Byte) :
    FollowsNext a (execPredReset r sp value s) := by
  unfold execPredReset
  repeat' first
    | with_reducible assumption | with_reducible apply follows_ask | with_reducible apply follows_next | with_reducible apply follows_ite | split
    | (intro t x ht; try dsimp only) | (intro t ht; try dsimp only) | (intro v; try beta_reduce) | dsimp only

theorem follows_execSpinEnable {a s : State} (h : Follows a s) (r : Req) (f : FieldId) (value : List Byte) :
    FollowsNext a (execSpinEnable r f value s) := by
  unfold execSpinEnable
  repeat' first
    | with_reducible assumption | with_reducible apply follows_ask | with_reducible apply follows_next | with_reducible apply follows_ite | split
    | (intro t x ht; try dsimp only) | (intro t ht; try dsimp only) | (intro v; try beta_reduce) | dsimp only

theorem follows_execBankPower {a s : State} (h : Follows a s) (r : Req) (f : FieldId) (value : List Byte) :
    FollowsNext a (execBankPower r f value s) := by
  unfold execBankPower
  repeat' first
    | with_reducible assumption | with_reducible apply follows_ask | with_reducible apply follows_next | with_reducible apply follows_ite | split
    | (intro t x ht; try dsimp only) | (intro t ht; try dsimp only) | (intro v; try beta_reduce) | dsimp only

theorem follows_execRetireUnit {a s : State} (h : Follows a s) (r : Req) (value : List Byte) :
    FollowsNext a (execRetireUnit r value s) := by
  unfold execRetireUnit
  repeat' first
    | with_reducible assumption | with_reducible apply follows_ask | with_reducible apply follows_next | with_reducible apply follows_ite | split
    | (intro t x ht; try dsimp only) | (intro t ht; try dsimp only) | (intro v; try beta_reduce) | dsimp only

theorem follows_execHistoryClear {a s : State} (h : Follows a s) (r : Req) (value : List Byte) :
    FollowsNext a (execHistoryClear r value s) := by
  unfold execHistoryClear
  repeat' first
    | with_reducible assumption | with_reducible apply follows_ask | with_reducible apply follows_next | with_reducible apply follows_ite | split
    | (intro t x ht; try dsimp only) | (intro t ht; try dsimp only) | (intro v; try beta_reduce) | dsimp only

theorem follows_execVminClear {a s : State} (h : Follows a s) (r : Req) (f : FieldId) (value : List Byte) :
    FollowsNext a (execVminClear r f value s) := by
  unfold execVminClear
  repeat' first
    | with_reducible assumption | with_reducible apply follows_ask | with_reducible apply follows_next | with_reducible apply follows_ite | split
    | (intro t x ht; try dsimp only) | (intro t ht; try dsimp only) | (intro v; try beta_reduce) | dsimp only

theorem follows_execGuardBand {a s : State} (h : Follows a s) (r : Req) (value : List Byte) :
    FollowsNext a (execGuardBand r value s) := by
  unfold execGuardBand
  repeat' first
    | with_reducible assumption | with_reducible apply follows_ask | with_reducible apply follows_next | with_reducible apply follows_ite | split
    | (intro t x ht; try dsimp only) | (intro t ht; try dsimp only) | (intro v; try beta_reduce) | dsimp only

theorem follows_execPowerCap {a s : State} (h : Follows a s) (r : Req) (value : List Byte) :
    FollowsNext a (execPowerCap r value s) := by
  unfold execPowerCap
  repeat' first
    | with_reducible assumption | with_reducible apply follows_ask | with_reducible apply follows_next | with_reducible apply follows_ite | split
    | (intro t x ht; try dsimp only) | (intro t ht; try dsimp only) | (intro v; try beta_reduce) | dsimp only

theorem follows_execPierPowerRequest {a s : State} (h : Follows a s) (r : Req) (f : FieldId) (value : List Byte) :
    FollowsNext a (execPierPowerRequest r f value s) := by
  unfold execPierPowerRequest
  repeat' first
    | with_reducible assumption | with_reducible apply follows_ask | with_reducible apply follows_next | with_reducible apply follows_ite | split
    | (intro t x ht; try dsimp only) | (intro t ht; try dsimp only) | (intro v; try beta_reduce) | dsimp only

theorem follows_execStageOpen {a s : State} (h : Follows a s) (r : Req) :
    FollowsNext a (execStageOpen r s) := by
  unfold execStageOpen
  repeat' first
    | with_reducible assumption | with_reducible apply follows_ask | with_reducible apply follows_next | with_reducible apply follows_ite | split
    | (intro t x ht; try dsimp only) | (intro t ht; try dsimp only) | (intro v; try beta_reduce) | dsimp only

theorem follows_execStageVerify {a s : State} (h : Follows a s) (r : Req) :
    FollowsNext a (execStageVerify r s) := by
  unfold execStageVerify
  repeat' first
    | with_reducible assumption | with_reducible apply follows_ask | with_reducible apply follows_next | with_reducible apply follows_ite | split
    | (intro t x ht; try dsimp only) | (intro t ht; try dsimp only) | (intro v; try beta_reduce) | dsimp only

theorem follows_execStageAbort {a s : State} (h : Follows a s) (r : Req) :
    FollowsNext a (execStageAbort r s) := by
  unfold execStageAbort
  repeat' first
    | with_reducible assumption | with_reducible apply follows_ask | with_reducible apply follows_next | with_reducible apply follows_ite | split
    | (intro t x ht; try dsimp only) | (intro t ht; try dsimp only) | (intro v; try beta_reduce) | dsimp only

theorem follows_execStageChunk {a s : State} (h : Follows a s) (r : Req) (value : List Byte) :
    FollowsNext a (execStageChunk r value s) := by
  unfold execStageChunk
  repeat' first
    | with_reducible assumption | with_reducible apply follows_ask | with_reducible apply follows_next | with_reducible apply follows_ite | split
    | (intro t x ht; try dsimp only) | (intro t ht; try dsimp only) | (intro v; try beta_reduce) | dsimp only

theorem follows_execActivateTime {a s : State} (h : Follows a s) (r : Req) (value : List Byte) :
    FollowsNext a (execActivateTime r value s) := by
  unfold execActivateTime
  repeat' first
    | with_reducible assumption | with_reducible apply follows_ask | with_reducible apply follows_next | with_reducible apply follows_ite | split
    | (intro t x ht; try dsimp only) | (intro t ht; try dsimp only) | (intro v; try beta_reduce) | dsimp only

theorem follows_execAttestNonce {a s : State} (h : Follows a s) (r : Req) (value : List Byte) :
    FollowsNext a (execAttestNonce r value s) := by
  unfold execAttestNonce
  repeat' first
    | with_reducible assumption | with_reducible apply follows_ask | with_reducible apply follows_next | with_reducible apply follows_ite | split
    | (intro t x ht; try dsimp only) | (intro t ht; try dsimp only) | (intro v; try beta_reduce) | dsimp only

theorem follows_execLinkSavedClear {a s : State} (h : Follows a s) (r : Req) (value : List Byte) :
    FollowsNext a (execLinkSavedClear r value s) := by
  unfold execLinkSavedClear
  repeat' first
    | with_reducible assumption | with_reducible apply follows_ask | with_reducible apply follows_next | with_reducible apply follows_ite | split
    | (intro t x ht; try dsimp only) | (intro t ht; try dsimp only) | (intro v; try beta_reduce) | dsimp only

theorem follows_execMgmtKey {a s : State} (h : Follows a s) (r : Req) (slot : Fin 8) (value : List Byte) :
    FollowsNext a (execMgmtKey r slot value s) := by
  unfold execMgmtKey
  repeat' first
    | with_reducible assumption | with_reducible apply follows_ask | with_reducible apply follows_next | with_reducible apply follows_ite | split
    | (intro t x ht; try dsimp only) | (intro t ht; try dsimp only) | (intro v; try beta_reduce) | dsimp only

theorem follows_execEthMode {a s : State} (h : Follows a s) (r : Req) (e : EthId) (value : List Byte) :
    FollowsNext a (execEthMode r e value s) := by
  unfold execEthMode
  repeat' first
    | with_reducible assumption | with_reducible apply follows_ask | with_reducible apply follows_next | with_reducible apply follows_ite | split
    | (intro t x ht; try dsimp only) | (intro t ht; try dsimp only) | (intro v; try beta_reduce) | dsimp only

theorem follows_execStreamDesc {a s : State} (h : Follows a s) (r : Req) (value : List Byte) :
    FollowsNext a (execStreamDesc r value s) := by
  unfold execStreamDesc
  repeat' first
    | with_reducible assumption | with_reducible apply follows_ask | with_reducible apply follows_next | with_reducible apply follows_ite | split
    | (intro t x ht; try dsimp only) | (intro t ht; try dsimp only) | (intro v; try beta_reduce) | dsimp only

theorem follows_execGroupDesc {a s : State} (h : Follows a s) (r : Req) (g : MediaGroup) (value : List Byte) :
    FollowsNext a (execGroupDesc r g value s) := by
  unfold execGroupDesc
  repeat' first
    | with_reducible assumption | with_reducible apply follows_ask | with_reducible apply follows_next | with_reducible apply follows_ite | split
    | (intro t x ht; try dsimp only) | (intro t ht; try dsimp only) | (intro v; try beta_reduce) | dsimp only

theorem follows_execSubmit {a s : State} (h : Follows a s) (slot : Slot) (master : BitVec 12) (request : List Byte) :
    FollowsNext a (execSubmit slot master request s) := by
  unfold execSubmit
  repeat' first
    | with_reducible assumption | with_reducible apply follows_request | with_reducible apply follows_send | with_reducible apply follows_submit
    | with_reducible apply follows_violation | with_reducible apply follows_next | with_reducible apply follows_ite | split
    | (intro t x ht; try dsimp only) | (intro t ht; try dsimp only) | (intro v; try beta_reduce) | dsimp only

theorem follows_execSummaryCmd {a s : State} (h : Follows a s)  :
    FollowsNext a (execSummaryCmd s) := by
  unfold execSummaryCmd
  repeat' first
    | with_reducible assumption | with_reducible apply follows_modCtl | with_reducible apply follows_vector | with_reducible apply follows_next
    | with_reducible apply follows_ite | split | (intro t x ht; try dsimp only) | (intro t ht; try dsimp only) | (intro v; try beta_reduce)
    | dsimp only

theorem follows_execIrqStatusClear {a s : State} (h : Follows a s) (mask : Word32) :
    FollowsNext a (execIrqStatusClear mask s) := by
  unfold execIrqStatusClear
  repeat' first
    | with_reducible assumption | with_reducible apply follows_modCtl | with_reducible apply follows_foldl | with_reducible apply follows_next
    | with_reducible apply follows_ite | split | (intro t x ht; try dsimp only) | (intro t ht; try dsimp only) | (intro v; try beta_reduce)
    | dsimp only

theorem follows_execPcieFunctionReset {a s : State} (h : Follows a s)  :
    FollowsNext a (execPcieFunctionReset s) := by
  unfold execPcieFunctionReset
  repeat' first
    | with_reducible assumption | with_reducible apply follows_expireTx | with_reducible apply follows_modCtl | with_reducible apply follows_next
    | with_reducible apply follows_ite | split | (intro t x ht; try dsimp only) | (intro t ht; try dsimp only) | (intro v; try beta_reduce)
    | dsimp only

theorem follows_execPcieLinkTrained {a s : State} (h : Follows a s) (rate : BitVec 8) (width : BitVec 4) :
    FollowsNext a (execPcieLinkTrained rate width s) := by
  unfold execPcieLinkTrained
  repeat' first
    | with_reducible assumption | with_reducible apply follows_setReg | with_reducible apply follows_next | with_reducible apply follows_ite | split
    | (intro t x ht; try dsimp only) | (intro t ht; try dsimp only) | (intro v; try beta_reduce) | dsimp only

theorem follows_execDiag {a s : State} (h : Follows a s) (request : List Byte) : FollowsNext a (execDiag request s) := by
  have h1 : Follows a { s with jtag := { s.jtag with instr := 5, drives := false } } := follows_jtag h _
  unfold execDiag
  dsimp only
  exact follows_next (follows_ite h1 (follows_emit (follows_serveMessage h1 _ _ _ _) _))

theorem follows_execHello {a s : State} (h : Follows a s) (port : Fin 2) (slot : BitVec 8) (clientNonce : List Byte) (deviceNonce : List Byte) :
    FollowsNext a (execHello port slot clientNonce deviceNonce s) := by
  unfold execHello
  repeat' first
    | with_reducible assumption | with_reducible apply follows_bump | with_reducible apply follows_modSession | with_reducible apply follows_shake
    | with_reducible apply follows_next | with_reducible apply follows_ite | split | (intro t x ht; try dsimp only) | (intro t ht; try dsimp only)
    | (intro v; try beta_reduce) | dsimp only

theorem follows_execAuth {a s : State} (h : Follows a s) (session : Idx16) (tag : List Byte) :
    FollowsNext a (execAuth session tag s) := by
  unfold execAuth
  repeat' first
    | with_reducible assumption | with_reducible apply follows_authFailed | with_reducible apply follows_bump
    | with_reducible apply follows_openSession | with_reducible apply follows_shake | with_reducible apply follows_next
    | with_reducible apply follows_ite | split | (intro t x ht; try dsimp only) | (intro t ht; try dsimp only) | (intro v; try beta_reduce)
    | dsimp only

theorem follows_execClose {a s : State} (h : Follows a s) (session : Idx16) :
    FollowsNext a (execClose session s) := by
  unfold execClose
  repeat' first
    | with_reducible assumption | with_reducible apply follows_bump | with_reducible apply follows_endSession | with_reducible apply follows_modCtl
    | with_reducible apply follows_shake | with_reducible apply follows_next | with_reducible apply follows_ite | split
    | (intro t x ht; try dsimp only) | (intro t ht; try dsimp only) | (intro v; try beta_reduce) | dsimp only

theorem follows_execTxTimeout {a s : State} (h : Follows a s) (master : BitVec 12) :
    FollowsNext a (execTxTimeout master s) := by
  unfold execTxTimeout
  repeat' first
    | with_reducible assumption | with_reducible apply follows_expireTx | with_reducible apply follows_next | with_reducible apply follows_ite | split
    | (intro t x ht; try dsimp only) | (intro t ht; try dsimp only) | (intro v; try beta_reduce) | dsimp only

theorem follows_execSessionIdleTimeout {a s : State} (h : Follows a s) (session : Idx16) :
    FollowsNext a (execSessionIdleTimeout session s) := by
  unfold execSessionIdleTimeout
  repeat' first
    | with_reducible assumption | with_reducible apply follows_endSession | with_reducible apply follows_next | with_reducible apply follows_ite
    | split | (intro t x ht; try dsimp only) | (intro t ht; try dsimp only) | (intro v; try beta_reduce) | dsimp only

theorem follows_execKeySlotUnlock {a s : State} (h : Follows a s) (slot : Fin 8) :
    FollowsNext a (execKeySlotUnlock slot s) := by
  unfold execKeySlotUnlock
  repeat' first
    | with_reducible assumption | with_reducible apply follows_modCtl | with_reducible apply follows_next | with_reducible apply follows_ite | split
    | (intro t x ht; try dsimp only) | (intro t ht; try dsimp only) | (intro v; try beta_reduce) | dsimp only

theorem follows_execFrozenCopyExpiry {a s : State} (h : Follows a s) (master : BitVec 12) :
    FollowsNext a (execFrozenCopyExpiry master s) := by
  unfold execFrozenCopyExpiry
  repeat' first
    | with_reducible assumption | with_reducible apply follows_modCtl | with_reducible apply follows_next | with_reducible apply follows_ite | split
    | (intro t x ht; try dsimp only) | (intro t ht; try dsimp only) | (intro v; try beta_reduce) | dsimp only

theorem follows_execRead {a s : State} (h : Follows a s) (p : Pkt) (addr : BitVec 48) (len : BitVec 17) :
    FollowsNext a (execRead p addr len s) := by
  unfold execRead
  repeat' first
    | with_reducible assumption | with_reducible apply follows_atRead | with_reducible apply follows_carried | with_reducible apply follows_next
    | with_reducible apply follows_ite | split | (intro t x ht; try dsimp only) | (intro t ht; try dsimp only) | (intro v; try beta_reduce)
    | dsimp only

theorem follows_execAtomic {a s : State} (h : Follows a s) (p : Pkt) (addr : BitVec 48) (op : AtomicOp) (a0 : Word64) (b : Word64) :
    FollowsNext a (execAtomic p addr op a0 b s) := by
  unfold execAtomic
  repeat' first
    | with_reducible assumption | with_reducible apply follows_atAtomic | with_reducible apply follows_carried | with_reducible apply follows_next
    | with_reducible apply follows_ite | split | (intro t x ht; try dsimp only) | (intro t ht; try dsimp only) | (intro v; try beta_reduce)
    | dsimp only

theorem follows_execSmallWrite {a s : State} (h : Follows a s) (p : Pkt) (addr : BitVec 48) (bytes : List Byte) :
    FollowsNext a (execSmallWrite p addr bytes s) := by
  unfold execSmallWrite
  repeat' first
    | with_reducible assumption | with_reducible apply follows_carried | with_reducible apply follows_writeRequest | with_reducible apply follows_next
    | with_reducible apply follows_ite | split | (intro t x ht; try dsimp only) | (intro t ht; try dsimp only) | (intro v; try beta_reduce)
    | dsimp only

theorem follows_execWrite {a s : State} (h : Follows a s) (p : Pkt) (addr : BitVec 48) (bytes : List Byte) :
    FollowsNext a (execWrite p addr bytes s) := by
  unfold execWrite
  repeat' first
    | with_reducible assumption | with_reducible apply follows_carried | with_reducible apply follows_writeRequest | with_reducible apply follows_next
    | with_reducible apply follows_ite | split | (intro t x ht; try dsimp only) | (intro t ht; try dsimp only) | (intro v; try beta_reduce)
    | dsimp only

theorem follows_execReadback {a s : State} (h : Follows a s) (p : Pkt) (addr : BitVec 48) :
    FollowsNext a (execReadback p addr s) := by
  unfold execReadback
  repeat' first
    | with_reducible assumption | with_reducible apply follows_atReadback | with_reducible apply follows_carried | with_reducible apply follows_next
    | with_reducible apply follows_ite | split | (intro t x ht; try dsimp only) | (intro t ht; try dsimp only) | (intro v; try beta_reduce)
    | dsimp only

theorem follows_execCollReduce {a s : State} (h : Follows a s) (h' : Hdr) (o : CollOp) :
    FollowsNext a (execCollReduce h' o s) := by
  unfold execCollReduce
  repeat' first
    | with_reducible assumption | with_reducible apply follows_coll | with_reducible apply follows_next | with_reducible apply follows_ite | split
    | (intro t x ht; try dsimp only) | (intro t ht; try dsimp only) | (intro v; try beta_reduce) | dsimp only

theorem follows_execCollAllreduce {a s : State} (h : Follows a s) (h' : Hdr) (o : CollOp) :
    FollowsNext a (execCollAllreduce h' o s) := by
  unfold execCollAllreduce
  repeat' first
    | with_reducible assumption | with_reducible apply follows_coll | with_reducible apply follows_next | with_reducible apply follows_ite | split
    | (intro t x ht; try dsimp only) | (intro t ht; try dsimp only) | (intro v; try beta_reduce) | dsimp only

theorem follows_execCollAllgather {a s : State} (h : Follows a s) (h' : Hdr) (o : CollOp) :
    FollowsNext a (execCollAllgather h' o s) := by
  unfold execCollAllgather
  repeat' first
    | with_reducible assumption | with_reducible apply follows_coll | with_reducible apply follows_next | with_reducible apply follows_ite | split
    | (intro t x ht; try dsimp only) | (intro t ht; try dsimp only) | (intro v; try beta_reduce) | dsimp only

theorem follows_execCollBroadcast {a s : State} (h : Follows a s) (h' : Hdr) (o : CollOp) :
    FollowsNext a (execCollBroadcast h' o s) := by
  unfold execCollBroadcast
  repeat' first
    | with_reducible assumption | with_reducible apply follows_coll | with_reducible apply follows_next | with_reducible apply follows_ite | split
    | (intro t x ht; try dsimp only) | (intro t ht; try dsimp only) | (intro v; try beta_reduce) | dsimp only

theorem follows_execCollData {a s : State} (h : Follows a s) (p : Pkt) (f : FieldId) (c : CollHdr) (bytes : List Byte) :
    FollowsNext a (execCollData p f c bytes s) := by
  unfold execCollData
  repeat' first
    | with_reducible assumption | with_reducible apply follows_answer | with_reducible apply follows_bump | with_reducible apply follows_carried
    | with_reducible apply follows_chargePier | with_reducible apply follows_dropStale | with_reducible apply follows_event
    | with_reducible apply follows_failed | with_reducible apply follows_modSeq | with_reducible apply follows_settle
    | with_reducible apply follows_next | with_reducible apply follows_ite | split | (intro t x ht; try dsimp only) | (intro t ht; try dsimp only)
    | (intro v; try beta_reduce) | dsimp only

theorem follows_execSyncSpan {a s : State} (h : Follows a s) (h' : Hdr) :
    FollowsNext a (execSyncSpan h' s) := by
  unfold execSyncSpan
  repeat' first
    | with_reducible assumption | with_reducible apply follows_sync | with_reducible apply follows_next | with_reducible apply follows_ite | split
    | (intro t x ht; try dsimp only) | (intro t ht; try dsimp only) | (intro v; try beta_reduce) | dsimp only

theorem follows_execSyncGroup {a s : State} (h : Follows a s) (h' : Hdr) (group : BitVec 8) :
    FollowsNext a (execSyncGroup h' group s) := by
  unfold execSyncGroup
  repeat' first
    | with_reducible assumption | with_reducible apply follows_sync | with_reducible apply follows_next | with_reducible apply follows_ite | split
    | (intro t x ht; try dsimp only) | (intro t ht; try dsimp only) | (intro v; try beta_reduce) | dsimp only

theorem follows_execSyncLocal {a s : State} (h : Follows a s) (h' : Hdr) :
    FollowsNext a (execSyncLocal h' s) := by
  unfold execSyncLocal
  repeat' first
    | with_reducible assumption | with_reducible apply follows_await | with_reducible apply follows_issue | with_reducible apply follows_wakeWaiting
    | with_reducible apply follows_next | with_reducible apply follows_ite | split | (intro t x ht; try dsimp only) | (intro t ht; try dsimp only)
    | (intro v; try beta_reduce) | dsimp only

theorem follows_execArrive {a s : State} (h : Follows a s) (p : Pkt) (group : BitVec 8) (seq : BitVec 16) (count : BitVec 16) :
    FollowsNext a (execArrive p group seq count s) := by
  unfold execArrive
  repeat' first
    | with_reducible assumption | with_reducible apply follows_answer | with_reducible apply follows_barrierArrive
    | with_reducible apply follows_carried | with_reducible apply follows_dropStale | with_reducible apply follows_next
    | with_reducible apply follows_ite | split | (intro t x ht; try dsimp only) | (intro t ht; try dsimp only) | (intro v; try beta_reduce)
    | dsimp only

theorem follows_execRelease {a s : State} (h : Follows a s) (p : Pkt) (f : FieldId) (group : BitVec 8) (seq : BitVec 16) :
    FollowsNext a (execRelease p f group seq s) := by
  unfold execRelease
  repeat' first
    | with_reducible assumption | with_reducible apply follows_carried | with_reducible apply follows_dropStale | with_reducible apply follows_modSeq
    | with_reducible apply follows_sync | with_reducible apply follows_wakeWaiting | with_reducible apply follows_next
    | with_reducible apply follows_ite | split | (intro t x ht; try dsimp only) | (intro t ht; try dsimp only) | (intro v; try beta_reduce)
    | dsimp only

theorem follows_execBankAccess {a s : State} (h : Follows a s) (f : FieldId) (b : BankId) (row : BitVec 16) (m : BankMaster) (op : BankOp) (ecc : EccResult) :
    FollowsNext a (execBankAccess f b row m op ecc s) := by
  unfold execBankAccess
  repeat' first
    | with_reducible assumption | with_reducible apply follows_bankDo | with_reducible apply follows_bankRefuses
    | with_reducible apply follows_modBank | with_reducible apply follows_settle | with_reducible apply follows_next
    | with_reducible apply follows_ite | split | (intro t x ht; try dsimp only) | (intro t ht; try dsimp only) | (intro v; try beta_reduce)
    | dsimp only

theorem follows_execAccessAged {a s : State} (h : Follows a s) (f : FieldId) (b : BankId) :
    FollowsNext a (execAccessAged f b s) := by
  unfold execAccessAged
  repeat' first
    | with_reducible assumption | with_reducible apply follows_modBank | with_reducible apply follows_next | with_reducible apply follows_ite | split
    | (intro t x ht; try dsimp only) | (intro t ht; try dsimp only) | (intro v; try beta_reduce) | dsimp only

theorem follows_execBankDrained {a s : State} (h : Follows a s) (f : FieldId) (b : BankId) :
    FollowsNext a (execBankDrained f b s) := by
  unfold execBankDrained
  repeat' first
    | with_reducible assumption | with_reducible apply follows_bankServe | with_reducible apply follows_bankSettle
    | with_reducible apply follows_bankTo | with_reducible apply follows_offCheck | with_reducible apply follows_next
    | with_reducible apply follows_ite | split | (intro t x ht; try dsimp only) | (intro t ht; try dsimp only) | (intro v; try beta_reduce)
    | dsimp only

theorem follows_execScrubRead {a s : State} (h : Follows a s) (f : FieldId) (b : BankId) (ecc : EccResult) :
    FollowsNext a (execScrubRead f b ecc s) := by
  unfold execScrubRead
  repeat' first
    | with_reducible assumption | with_reducible apply follows_bankDo | with_reducible apply follows_scrubNext | with_reducible apply follows_settle
    | with_reducible apply follows_next | with_reducible apply follows_ite | split | (intro t x ht; try dsimp only) | (intro t ht; try dsimp only)
    | (intro v; try beta_reduce) | dsimp only

theorem follows_execRetainScrubDue {a s : State} (h : Follows a s) (f : FieldId) (b : BankId) :
    FollowsNext a (execRetainScrubDue f b s) := by
  unfold execRetainScrubDue
  repeat' first
    | with_reducible assumption | with_reducible apply follows_bankTo | with_reducible apply follows_modBank | with_reducible apply follows_next
    | with_reducible apply follows_ite | split | (intro t x ht; try dsimp only) | (intro t ht; try dsimp only) | (intro v; try beta_reduce)
    | dsimp only

theorem follows_execRowRepair {a s : State} (h : Follows a s) (f : FieldId) (b : BankId) (row : BitVec 16) (rowGood : Bool) :
    FollowsNext a (execRowRepair f b row rowGood s) := by
  unfold execRowRepair
  repeat' first
    | with_reducible assumption | with_reducible apply follows_bump | with_reducible apply follows_modBank | with_reducible apply follows_noteRefill
    | with_reducible apply follows_retireRow | with_reducible apply follows_setRow | with_reducible apply follows_settle
    | with_reducible apply follows_next | with_reducible apply follows_ite | split | (intro t x ht; try dsimp only) | (intro t ht; try dsimp only)
    | (intro v; try beta_reduce) | dsimp only

theorem follows_execCheckWait {a s : State} (h : Follows a s) (h' : Hdr) :
    FollowsNext a (execCheckWait h' s) := by
  unfold execCheckWait
  repeat' first
    | with_reducible assumption | with_reducible apply follows_await | with_reducible apply follows_issue | with_reducible apply follows_wakeWaiting
    | with_reducible apply follows_next | with_reducible apply follows_ite | split | (intro t x ht; try dsimp only) | (intro t ht; try dsimp only)
    | (intro v; try beta_reduce) | dsimp only

theorem follows_execCheckForce {a s : State} (h : Follows a s) (h' : Hdr) :
    FollowsNext a (execCheckForce h' s) := by
  unfold execCheckForce
  repeat' first
    | with_reducible assumption | with_reducible apply follows_issue | with_reducible apply follows_modSeq | with_reducible apply follows_next
    | with_reducible apply follows_ite | split | (intro t x ht; try dsimp only) | (intro t ht; try dsimp only) | (intro v; try beta_reduce)
    | dsimp only

theorem follows_execCheckWindow {a s : State} (h : Follows a s) (h' : Hdr) (ireg : Idx16) :
    FollowsNext a (execCheckWindow h' ireg s) := by
  unfold execCheckWindow
  repeat' first
    | with_reducible assumption | with_reducible apply follows_issue | with_reducible apply follows_modSeq | with_reducible apply follows_next
    | with_reducible apply follows_ite | split | (intro t x ht; try dsimp only) | (intro t ht; try dsimp only) | (intro v; try beta_reduce)
    | dsimp only

theorem follows_execPhase {a s : State} (h : Follows a s) (h' : Hdr) (code : BitVec 3) :
    FollowsNext a (execPhase h' code s) := by
  unfold execPhase
  repeat' first
    | with_reducible assumption | with_reducible apply follows_declarePhase | with_reducible apply follows_issue | with_reducible apply follows_next
    | with_reducible apply follows_ite | split | (intro t x ht; try dsimp only) | (intro t ht; try dsimp only) | (intro v; try beta_reduce)
    | dsimp only

theorem follows_execCommit {a s : State} (h : Follows a s) (h' : Hdr) (outTail : Word32) (reqHead : Word32) (more : Bool) :
    FollowsNext a (execCommit h' outTail reqHead more s) := by
  unfold execCommit
  repeat' first
    | with_reducible assumption | with_reducible apply follows_anchorCommits | with_reducible apply follows_issue
    | with_reducible apply follows_modSeq | with_reducible apply follows_next | with_reducible apply follows_ite | split
    | (intro t x ht; try dsimp only) | (intro t ht; try dsimp only) | (intro v; try beta_reduce) | dsimp only

theorem follows_execStepNext {a s : State} (h : Follows a s) (h' : Hdr) :
    FollowsNext a (execStepNext h' s) := by
  unfold execStepNext
  repeat' first
    | with_reducible assumption | with_reducible apply follows_attemptStart | with_reducible apply follows_await | with_reducible apply follows_issue
    | with_reducible apply follows_issueIf | with_reducible apply follows_modSeq | with_reducible apply follows_moverSeqEvent
    | with_reducible apply follows_seqWait | with_reducible apply follows_next | with_reducible apply follows_ite | split | (intro t ht; exact ht)
    | (intro t x ht; try dsimp only) | (intro t ht; try dsimp only) | (intro v; try beta_reduce) | dsimp only

theorem follows_execStepBase {a s : State} (h : Follows a s) (h' : Hdr) (ireg : Idx16) (modulus : BitVec 8) (base : BitVec 48) (stride : BitVec 32) :
    FollowsNext a (execStepBase h' ireg modulus base stride s) := by
  unfold execStepBase
  repeat' first
    | with_reducible assumption | with_reducible apply follows_issue | with_reducible apply follows_modSeq | with_reducible apply follows_next
    | with_reducible apply follows_ite | split | (intro t x ht; try dsimp only) | (intro t ht; try dsimp only) | (intro v; try beta_reduce)
    | dsimp only

theorem follows_execStepAdd {a s : State} (h : Follows a s) (h' : Hdr) (ireg : Idx16) (imm : BitVec 48) :
    FollowsNext a (execStepAdd h' ireg imm s) := by
  unfold execStepAdd
  repeat' first
    | with_reducible assumption | with_reducible apply follows_issue | with_reducible apply follows_modSeq | with_reducible apply follows_next
    | with_reducible apply follows_ite | split | (intro t x ht; try dsimp only) | (intro t ht; try dsimp only) | (intro v; try beta_reduce)
    | dsimp only

theorem follows_execStepLoop {a s : State} (h : Follows a s) (h' : Hdr) (lc : Fin 4) (iter : BitVec 16) :
    FollowsNext a (execStepLoop h' lc iter s) := by
  unfold execStepLoop
  repeat' first
    | with_reducible assumption | with_reducible apply follows_issue | with_reducible apply follows_modSeq | with_reducible apply follows_next
    | with_reducible apply follows_ite | split | (intro t x ht; try dsimp only) | (intro t ht; try dsimp only) | (intro v; try beta_reduce)
    | dsimp only

theorem follows_execStepEndloop {a s : State} (h : Follows a s) (h' : Hdr) (lc : Fin 4) (target : BitVec 14) :
    FollowsNext a (execStepEndloop h' lc target s) := by
  unfold execStepEndloop
  repeat' first
    | with_reducible assumption | with_reducible apply follows_issue | with_reducible apply follows_modSeq | with_reducible apply follows_next
    | with_reducible apply follows_ite | split | (intro t x ht; try dsimp only) | (intro t ht; try dsimp only) | (intro v; try beta_reduce)
    | dsimp only

theorem follows_execStepJump {a s : State} (h : Follows a s) (h' : Hdr) (target : BitVec 14) :
    FollowsNext a (execStepJump h' target s) := by
  unfold execStepJump
  repeat' first
    | with_reducible assumption | with_reducible apply follows_issue | with_reducible apply follows_modSeq | with_reducible apply follows_next
    | with_reducible apply follows_ite | split | (intro t x ht; try dsimp only) | (intro t ht; try dsimp only) | (intro v; try beta_reduce)
    | dsimp only

theorem follows_execStepLdx {a s : State} (h : Follows a s) (h' : Hdr) (ireg : Idx16) (src : Opnd) (word : BitVec 6) :
    FollowsNext a (execStepLdx h' ireg src word s) := by
  unfold execStepLdx
  repeat' first
    | with_reducible assumption | with_reducible apply follows_aheadPastLdx | with_reducible apply follows_issue | with_reducible apply follows_modSeq
    | with_reducible apply follows_withRows | with_reducible apply follows_next | with_reducible apply follows_ite | split
    | (intro t x ht; try dsimp only) | (intro t ht; try dsimp only) | (intro v; try beta_reduce) | dsimp only

theorem follows_execUnitCompletion {a s : State} (h : Follows a s) (f : FieldId) (done : Completion) :
    FollowsNext a (execUnitCompletion f done s) := by
  unfold execUnitCompletion
  repeat' first
    | with_reducible assumption | with_reducible apply follows_arrayIdle | with_reducible apply follows_bump | with_reducible apply follows_collDone
    | with_reducible apply follows_fetch | with_reducible apply follows_finish | with_reducible apply follows_modArray
    | with_reducible apply follows_vector | with_reducible apply follows_vectorNext | with_reducible apply follows_next
    | with_reducible apply follows_ite | split | (intro t x ht; try dsimp only) | (intro t ht; try dsimp only) | (intro v; try beta_reduce)
    | dsimp only

theorem follows_execTowerAccess {a s : State} (h : Follows a s) (c : ChannelId) (granule : BitVec 28) (op : GranuleOp) (errs : SymbolErrors) :
    FollowsNext a (execTowerAccess c granule op errs s) := by
  unfold execTowerAccess
  repeat' first
    | with_reducible assumption | with_reducible apply follows_granuleRead | with_reducible apply follows_granuleWrite
    | with_reducible apply follows_modChannel | with_reducible apply follows_settle | with_reducible apply follows_write
    | with_reducible apply follows_next | with_reducible apply follows_ite | split | (intro t x ht; try dsimp only) | (intro t ht; try dsimp only)
    | (intro v; try beta_reduce) | dsimp only

theorem follows_execTowerAccessAged {a s : State} (h : Follows a s) (c : ChannelId) :
    FollowsNext a (execTowerAccessAged c s) := by
  unfold execTowerAccessAged
  repeat' first
    | with_reducible assumption | with_reducible apply follows_modChannel | with_reducible apply follows_next | with_reducible apply follows_ite
    | split | (intro t x ht; try dsimp only) | (intro t ht; try dsimp only) | (intro v; try beta_reduce) | dsimp only

theorem follows_execPatrolScrub {a s : State} (h : Follows a s) (c : ChannelId) (errs : SymbolErrors) :
    FollowsNext a (execPatrolScrub c errs s) := by
  unfold execPatrolScrub
  repeat' first
    | with_reducible assumption | with_reducible apply follows_granuleRead | with_reducible apply follows_modChannel
    | with_reducible apply follows_settle | with_reducible apply follows_next | with_reducible apply follows_ite | split
    | (intro t x ht; try dsimp only) | (intro t ht; try dsimp only) | (intro v; try beta_reduce) | dsimp only

theorem follows_execEdcReplay {a s : State} (h : Follows a s) (c : ChannelId) (failed : Bool) :
    FollowsNext a (execEdcReplay c failed s) := by
  unfold execEdcReplay
  repeat' first
    | with_reducible assumption | with_reducible apply follows_bump | with_reducible apply follows_charge | with_reducible apply follows_failed
    | with_reducible apply follows_modChannel | with_reducible apply follows_setChannelState | with_reducible apply follows_settle
    | with_reducible apply follows_unitEvent | with_reducible apply follows_next | with_reducible apply follows_ite | split
    | (intro t x ht; try dsimp only) | (intro t ht; try dsimp only) | (intro v; try beta_reduce) | dsimp only

theorem follows_execRetrainDone {a s : State} (h : Follows a s) (c : ChannelId) (micros : Word32) :
    FollowsNext a (execRetrainDone c micros s) := by
  unfold execRetrainDone
  repeat' first
    | with_reducible assumption | with_reducible apply follows_modChannel | with_reducible apply follows_setChannelState
    | with_reducible apply follows_settle | with_reducible apply follows_unitEvent | with_reducible apply follows_next
    | with_reducible apply follows_ite | split | (intro t x ht; try dsimp only) | (intro t ht; try dsimp only) | (intro v; try beta_reduce)
    | dsimp only

theorem follows_execRetrainTryTimeout {a s : State} (h : Follows a s) (c : ChannelId) :
    FollowsNext a (execRetrainTryTimeout c s) := by
  unfold execRetrainTryTimeout
  repeat' first
    | with_reducible assumption | with_reducible apply follows_modChannel | with_reducible apply follows_retireChannel
    | with_reducible apply follows_settle | with_reducible apply follows_next | with_reducible apply follows_ite | split
    | (intro t x ht; try dsimp only) | (intro t ht; try dsimp only) | (intro v; try beta_reduce) | dsimp only

theorem follows_execChannelTrainingDone {a s : State} (h : Follows a s) (c : ChannelId) (passed : Bool) :
    FollowsNext a (execChannelTrainingDone c passed s) := by
  unfold execChannelTrainingDone
  repeat' first
    | with_reducible assumption | with_reducible apply follows_fastCheck | with_reducible apply follows_nextRound
    | with_reducible apply follows_retireChannel | with_reducible apply follows_serveAll | with_reducible apply follows_setChannelState
    | with_reducible apply follows_settle | with_reducible apply follows_next | with_reducible apply follows_ite | split
    | (intro t x ht; try dsimp only) | (intro t ht; try dsimp only) | (intro v; try beta_reduce) | dsimp only

theorem follows_execTowerTestDone {a s : State} (h : Follows a s) (t : TowerId) (passed : Bool) :
    FollowsNext a (execTowerTestDone t passed s) := by
  unfold execTowerTestDone
  repeat' first
    | with_reducible assumption | with_reducible apply follows_fastCheck | with_reducible apply follows_modTower
    | with_reducible apply follows_nextRound | with_reducible apply follows_retireChannel | with_reducible apply follows_serveAll
    | with_reducible apply follows_setChannelState | with_reducible apply follows_setTested | with_reducible apply follows_settle
    | with_reducible apply follows_supEvent | with_reducible apply follows_event | with_reducible apply follows_foldl
    | with_reducible apply follows_next | with_reducible apply follows_ite | split | (intro t x ht; try dsimp only) | (intro t ht; try dsimp only)
    | (intro v; try beta_reduce) | dsimp only

theorem follows_execRemapFill {a s : State} (h : Follows a s) (k : SetId) :
    FollowsNext a (execRemapFill k s) := by
  unfold execRemapFill
  repeat' first
    | with_reducible assumption | with_reducible apply follows_fillDone | with_reducible apply follows_zeroRemapped
    | with_reducible apply follows_next | with_reducible apply follows_ite | split | (intro t x ht; try dsimp only) | (intro t ht; try dsimp only)
    | (intro v; try beta_reduce) | dsimp only

theorem follows_execReserveRefill {a s : State} (h : Follows a s) (k : SetId) :
    FollowsNext a (execReserveRefill k s) := by
  unfold execReserveRefill
  repeat' first
    | with_reducible assumption | with_reducible apply follows_copyMirror | with_reducible apply follows_fillDone
    | with_reducible apply follows_zeroRemapped | with_reducible apply follows_foldl | with_reducible apply follows_next
    | with_reducible apply follows_ite | split | (intro t x ht; try dsimp only) | (intro t ht; try dsimp only) | (intro v; try beta_reduce)
    | dsimp only

theorem follows_execBankWakeDone {a s : State} (h : Follows a s) (f : FieldId) (b : BankId) :
    FollowsNext a (execBankWakeDone f b s) := by
  unfold execBankWakeDone
  repeat' first
    | with_reducible assumption | with_reducible apply follows_awaken | with_reducible apply follows_bankAwake | with_reducible apply follows_foldl
    | with_reducible apply follows_next | with_reducible apply follows_ite | with_reducible apply follows_sleepers | split
    | (intro t x ht; try dsimp only) | (intro t ht; try dsimp only) | (intro v; try beta_reduce) | dsimp only

end Sys2Proof.Machine
end

