-- ==== Sys2Proof/Laws/Issue.lean ====
section
/-! SUPPORT. What an instruction does that executes normally: issue, and the checks of its rows. -/

namespace Sys2Proof.Machine

variable {s : State} {h : Hdr} {w : Nat} {u : Option PierUnit}

theorem State.issues_iff : s.issues h w u = true ↔
    (s.field h.field).state ≠ .drawbridge ∧ (s.field h.field).seq.issuing = true ∧ (s.field h.field).seq.nextIs w = true ∧ h.fault = .clean ∧
    (s.field h.field).seq.mayIssue h u = true := by
  simp [State.issues, and_assoc]

/-- An instruction that issues has its effect on the state with the instruction index moved past it. -/
theorem State.issue_runs (k : s.issues h w u = true) (act : State → State) : s.issue h w u act = act (s.advanced h) := by
  obtain ⟨k0, k1, k2, k3, k4⟩ := State.issues_iff.1 k
  simp [State.issue, State.issueIf, k0, k1, k2, k3, k4, State.advanced]

/-- An instruction whose rows are free is performed. -/
theorem State.withRows_free {f : Nat} {operands rows : List Nat} (k : s.rowsFree f operands rows = true) (act : State → State) :
    s.withRows f operands rows act = act s := by
  simp only [State.rowsFree, Bool.and_eq_true, Bool.not_eq_true', beq_iff_eq] at k
  simp [State.withRows, k.1.1, k.1.2, k.2]

/-- A packet that is delivered acts on the state after its journey. -/
theorem State.carried_delivers {p : Pkt} (k : s.delivers p = true) (ty n : Nat) (act : State → State) :
    s.carried ty n p act = act (s.hauled p n) := by
  simp only [State.delivers, Bool.and_eq_true, Option.isNone_iff_eq_none, beq_iff_eq] at k
  obtain ⟨⟨k1, k2⟩, k3⟩ := k
  unfold State.carried
  rw [k1]
  simp only [k2, ne_eq, not_true_eq_false, if_false]
  split at k3
  · rename_i outs e; rw [e]
  · cases k3

/-- A change of one field, seen at that field. -/
theorem State.field_modSeq (f : Nat) (g : Sequencer → Sequencer) (k : f < s.fields.length) :
    (s.modSeq f g).field f = { s.field f with seq := g (s.field f).seq } := State.field_modField_same s f _ k

theorem State.fields_length (k : s.wf = true) : s.fields.length = 30 := ((State.sized_iff s).1 ((State.wf_iff s).1 k).2.2.1).1

theorem State.fieldLt (k : s.wf = true) (f : FieldId) : f.val < s.fields.length := by rw [State.fields_length k]; exact f.isLt

/-- Two changes of one sequencer are one. -/
theorem State.modSeq_modSeq (f : Nat) (g k : Sequencer → Sequencer) : (s.modSeq f g).modSeq f k = s.modSeq f fun q => k (g q) := by
  simp [State.modSeq, State.modField, List.modify_modify_eq, Function.comp_def]

/-- A change of one sequencer changes nothing but that sequencer. -/
theorem State.onlySeq_modSeq (f : Nat) (g : Sequencer → Sequencer) : s.onlySeq (s.modSeq f g) f := by
  unfold State.onlySeq
  by_cases k : f < s.fields.length
  · rw [State.field_modSeq f g k]
    unfold State.modSeq State.modField
    congr 1
    apply List.ext_getElem?
    intro i
    simp only [List.getElem?_modify]
    by_cases hi : f = i
    · subst hi; simp [State.field, k]
    · simp [hi]
  · have : ∀ g' : Field → Field, s.fields.modify f g' = s.fields := fun g' => List.modify_eq_self (by omega)
    simp [State.modSeq, State.modField, this]

end Sys2Proof.Machine
end

