-- ==== Sys2Proof/Machine/Bars.lean ====
section
/-! DEFINITION. What the host reads in the windows of the PCIe function: the register block, the slots, the SUMMARY buffer, the recorder ring
view and the staging window (R525 to R530).  No command of the table is such a read; they show state that other commands change. -/

namespace Sys2Proof.Machine

/-- DEV_STATUS (R526).  A takeover is over in the command that makes it, so no read finds one in progress. -/
def State.devStatus (s : State) : Nat :=
  s.boot.code + 2 ^ 8 * boolNat s.dictReady + 2 ^ 9 * boolNat s.control.activeB + 2 ^ 10 * boolNat s.forcedLow

/-- SLOT_STATE (R522). -/
def SlotS.code (x : SlotS) : Nat := leAt (slotBytes x) 0xFE4 4

/-- The BAR0 register block (R526). -/
def State.registerBlock (s : State) : List Byte :=
  leBytes 4 1 ++ leBytes 4 s.devStatus ++ leBytes 8 (s.reg regGeneration 0) ++ leBytes 8 s.now ++ leBytes 8 s.recorder.lastSeq ++ zeros 4 ++
  leBytes 4 s.control.summaryStatus ++ leBytes 4 s.control.irqStatus ++ zeros 4 ++
  leBytes 4 ((List.range 4).map fun i => (s.control.pcie.getD i .reset).code * 4 ^ i).sum

/-- `n` bytes of BAR0 from an offset (R525); reserved offsets read as zeros.  The MSI-X table and its pending bits follow PCI Express and are
the host's own, so what a read finds there is open (notes/assumptions/76). -/
def State.bar0Read (s : State) (x n : Nat) : List Byte :=
  if x < 0x1000 then slice x n (padTo 0x1000 s.registerBlock)
  else if x < 0x2000 then leBytes n (s.free (8 * n)).toNat
  else if x < 0xA000 then slice (x % 0x2000) n (slotBytes (s.control.pcie.getD (x / 0x2000 - 1) .reset))
  else if x < 0xC000 then slice (x - 0xA000) n (padTo 0x2000 s.control.summaryBuf)
  else zeros n

/-- The record of the ring view at a place (R529); zeros where the on-die ring holds none. -/
def State.ringRecord (s : State) (i : Nat) : List Byte :=
  match s.recorder.die.find? (·.seq % 4096 == i) with
  | some e => e.bytes
  | none => zeros 32

/-- `n` bytes of BAR2 from an offset (R525, R529, R530); reserved offsets read as zeros. -/
def State.bar2Read (s : State) (x n : Nat) : List Byte :=
  if x < 0x20000 then slice (x % 32) n (s.ringRecord (x / 32))
  else if 0x2000000 ≤ x ∧ x < 0x4000000 then
    let key := if s.boot.target = 1 ∨ s.boot.recovery then uploadKey else bankKey (!s.boot.bootB)
    s.read (key + (x - 0x2000000)) n
  else zeros n

end Sys2Proof.Machine
end

