-- ==== Sys2Proof/WellFormed.lean ====
section
/-! DEFINITION. Which commands are well formed: the limits that the rules put on operands beyond their widths. -/

namespace Sys2Proof

/-- A dictionary value has at most 1,028 bytes (R511). -/
def valueFits (l : List Byte) : Bool := l.length ≤ 1028

/-- The bytes of a stream fit: at most 64 KiB stand for the packets of one. -/
def packetFits (l : List Byte) : Bool := l.length ≤ 65536

/-- A SMALL_WRITE carries 1 to 128 B (R283). -/
def smallFits (l : List Byte) : Bool := 1 ≤ l.length && l.length ≤ 128

/-- A WRITE carries 1 to 8 whole flits (R281, R283). -/
def flitsFit (l : List Byte) : Bool := 256 ≤ l.length && l.length ≤ 2048 && l.length % 256 == 0

/-- A READ asks for 1 B to 64 KiB (R283). -/
def readFits (n : Nat) : Bool := 1 ≤ n && n ≤ 65536

/-- Is a command well formed? -/
def Instr.wf : Instr → Bool
  | .pass _ _ => true
  | .vecConvert _ _ => true
  | .vecAdd _ _ => true
  | .vecMul _ _ => true
  | .vecRmsnorm _ _ => true
  | .vecAddnorm _ _ => true
  | .vecLayernorm _ _ => true
  | .vecSoftmax _ _ => true
  | .vecSwiglu _ _ => true
  | .vecGelu _ _ => true
  | .vecRotary _ _ => true
  | .vecTreemask _ _ => true
  | .vecTopk _ _ => true
  | .vecSample _ _ => true
  | .vecGather _ _ => true
  | .vecNotify _ _ _ => true
  | .moveCopy _ _ _ _ => true
  | .moveTurn _ _ _ _ _ _ => true
  | .moveFill _ _ _ => true
  | .fetchLinear _ _ _ _ => true
  | .fetchList _ _ _ _ _ => true
  | .sendRows _ _ => true
  | .sendSignal _ _ _ => true
  | .sendStore _ _ _ => true
  | .sendMcast _ _ => true
  | .recvRows _ _ _ => true
  | .recvSignal _ _ _ => true
  | .collReduce _ _ => true
  | .collAllreduce _ _ => true
  | .collAllgather _ _ => true
  | .collBroadcast _ _ => true
  | .syncSpan _ => true
  | .syncGroup _ _ => true
  | .syncLocal _ => true
  | .checkWait _ => true
  | .checkForce _ => true
  | .checkWindow _ _ => true
  | .phase _ _ => true
  | .commit _ _ _ _ => true
  | .stepNext _ => true
  | .stepBase _ _ _ _ _ => true
  | .stepAdd _ _ _ => true
  | .stepLoop _ _ _ => true
  | .stepEndloop _ _ _ => true
  | .stepJump _ _ => true
  | .stepLdx _ _ _ _ => true
  | .unitCompletion _ _ => true
  | .progmemScrub _ _ => true
  | .progmemRewriteDone _ => true
  | .programLoad _ _ => true
  | .checksumVerdict _ _ _ => true
  | .vectorVerdict _ _ _ => true
  | .readyReport _ => true
  | .keystoneReadbackDone _ => true
  | .commitTimeout _ => true
  | .pierCommitTimeout _ => true
  | .abortDone _ => true
  | .epochWaitEnd _ => true
  | .spanDrained _ => true
  | .weightLoadDone _ _ => true
  | .requestArrival _ => true
  | .spinThresholdExpiry _ => true
  | .spinRampEnd _ => true
  | .preRampDone _ => true
  | .bankAccess _ _ _ _ _ _ => true
  | .accessAged _ _ => true
  | .scrubRead _ _ _ => true
  | .retainScrubDue _ _ => true
  | .rowRepair _ _ _ _ => true
  | .bankDrained _ _ => true
  | .bankWakeDone _ _ => true
  | .read _ _ len => readFits len.toNat
  | .atomic _ _ _ _ _ => true
  | .smallWrite _ _ bytes => smallFits bytes
  | .signal _ _ _ => true
  | .arrive _ _ _ _ => true
  | .report _ _ _ _ _ => true
  | .release _ _ _ _ => true
  | .advance _ _ _ => true
  | .abort _ _ => true
  | .openMsg _ _ _ => true
  | .slip _ _ => true
  | .creditReset _ _ _ => true
  | .readData _ bytes => packetFits bytes
  | .ack _ _ => true
  | .nack _ _ => true
  | .mcastAck _ _ _ => true
  | .write _ _ bytes => flitsFit bytes
  | .rows _ _ _ _ bytes => packetFits bytes
  | .readback _ _ => true
  | .mcastData _ _ _ _ _ bytes => packetFits bytes
  | .collData _ _ _ bytes => packetFits bytes
  | .reservedPacketType => true
  | .eventNotice _ => true
  | .pairingNotice _ _ _ => true
  | .proposalTimeout _ => true
  | .linkReplay _ _ _ _ => true
  | .linkRepairDone _ _ _ => true
  | .routeHoldEnd => true
  | .responseTimeout _ => true
  | .mcastTargetTimeout _ _ _ => true
  | .timetableLoad _ => true
  | .timetableWindowStart _ => true
  | .timetableSlot _ _ => true
  | .timetableWindowEnd _ => true
  | .go _ _ _ => true
  | .armShadow _ _ _ => true
  | .stop _ _ _ => true
  | .clear _ _ _ => true
  | .registerSetWrite _ _ _ _ _ bytes => packetFits bytes
  | .moverTimer _ _ => true
  | .moverResume _ _ => true
  | .moverLastWrite _ _ => true
  | .moverComplete _ _ => true
  | .moverStopped _ _ => true
  | .mailboxWrite _ _ _ bytes => packetFits bytes
  | .heartbeat => true
  | .heartbeatTimeout => true
  | .supervisorSwap _ value => valueFits value
  | .create _ _ => true
  | .spanReset _ _ => true
  | .spanDelete _ _ => true
  | .pause _ _ value => valueFits value
  | .stepVariant _ _ value => valueFits value
  | .coreSpan _ _ value => valueFits value
  | .accessEntry _ _ _ value => valueFits value
  | .setDesc _ _ value => valueFits value
  | .checkProfile _ _ value => valueFits value
  | .predReset _ _ value => valueFits value
  | .spinEnable _ _ value => valueFits value
  | .bankPower _ _ value => valueFits value
  | .retireUnit _ value => valueFits value
  | .digestPassEnd _ => true
  | .weightRewriteDone _ _ _ => true
  | .segmentStart _ _ _ => true
  | .segmentEnd _ _ _ => true
  | .coverageOverdue _ => true
  | .diagnosticTestDone _ _ => true
  | .probeTimeout _ => true
  | .spareReloadDone _ _ => true
  | .planReloadDone _ _ => true
  | .flashPageWrite => true
  | .pageBucketRefill => true
  | .windowRead _ => true
  | .historyClear _ value => valueFits value
  | .refCopyBad _ => true
  | .refCopyGood _ => true
  | .refRevert => true
  | .drawbridgeStart _ => true
  | .drawbridgeEnd _ _ => true
  | .pllLockTimeout _ => true
  | .droopDetect _ => true
  | .stretchEnd _ _ _ => true
  | .beacon _ _ => true
  | .beaconNotice _ _ => true
  | .ptpSync _ => true
  | .ptpDelayResponse _ => true
  | .ptpAnnounce _ => true
  | .ptpAnnounceTimeout => true
  | .inputUndervoltage _ => true
  | .undervoltageRelease => true
  | .inputOvervoltage _ => true
  | .powerLoss => true
  | .regCellTrip _ _ => true
  | .regCellRestart _ _ => true
  | .contactCheck _ _ _ => true
  | .contactCalibration _ => true
  | .vminSample _ _ _ => true
  | .vminClear _ _ value => valueFits value
  | .ageingCheck _ _ => true
  | .voltageSlewDone _ => true
  | .phaseHoldExpiry _ => true
  | .guardBand _ value => valueFits value
  | .powerCap _ value => valueFits value
  | .capControlInterval _ _ => true
  | .alertAssert => true
  | .alertRelease => true
  | .alertHoldExpiry => true
  | .pierPowerRequest _ _ value => valueFits value
  | .admissionCheck _ _ => true
  | .admissionTimeout _ => true
  | .pierStageDone _ => true
  | .junctionSample _ _ => true
  | .thermalRelease _ => true
  | .heatKeystoneTimeout _ => true
  | .heatSwapExpiry _ => true
  | .fieldHeatRelease _ => true
  | .fieldUp _ => true
  | .fieldWakeTimeout _ => true
  | .persistCounts => true
  | .powerGood => true
  | .bringupStepDone _ => true
  | .spanlinkRetry _ => true
  | .stageOpen _ => true
  | .stageVerify _ => true
  | .stageAbort _ => true
  | .stageChunk _ value => valueFits value
  | .stagingWindowWrite _ bytes => packetFits bytes
  | .activateTime _ value => valueFits value
  | .activationStart => true
  | .fieldRestart _ => true
  | .fieldRestartDone _ => true
  | .fieldRestartTimeout _ => true
  | .attestNonce _ value => valueFits value
  | .attestTokenRefill => true
  | .linkSavedClear _ value => valueFits value
  | .dictRead _ _ _ _ _ => true
  | .dictWrite _ _ _ value => valueFits value
  | .txBegin _ => true
  | .txCommit _ => true
  | .txAbort _ => true
  | .summary _ _ => true
  | .describe _ _ _ => true
  | .nop _ => true
  | .hello _ _ clientNonce deviceNonce => clientNonce.length == 32 && deviceNonce.length == 32
  | .auth _ tag => tag.length == 48
  | .close _ => true
  | .txTimeout _ => true
  | .sessionIdleTimeout _ => true
  | .keySlotUnlock _ => true
  | .frozenCopyExpiry _ => true
  | .mgmtKey _ _ value => valueFits value
  | .submit _ _ _ => true
  | .summaryCmd => true
  | .irqStatusClear _ => true
  | .pcieFunctionReset => true
  | .ethMode _ _ value => valueFits value
  | .ethLinkUp _ => true
  | .ethLinkDown _ _ => true
  | .start _ => true
  | .append _ => true
  | .endSeq _ => true
  | .cancel _ => true
  | .rtpPacket _ _ => true
  | .rtcpPacket _ _ => true
  | .rtcpIntervalTimer _ => true
  | .streamTimeout _ => true
  | .mediaTick _ => true
  | .txSendPoint _ => true
  | .streamDesc _ value => valueFits value
  | .groupDesc _ _ value => valueFits value
  | .spanlinkTrainingDone _ _ _ _ _ _ => true
  | .spanlinkFlitReplay _ _ => true
  | .spanlinkFault _ => true
  | .spanlinkRetrainTimeout _ => true
  | .spanlinkPeerNotice _ _ => true
  | .spanlinkPacket _ _ _ _ _ => true
  | .towerAccess _ _ _ _ => true
  | .towerAccessAged _ => true
  | .edcReplay _ _ => true
  | .patrolScrub _ _ => true
  | .channelTrainingDone _ _ => true
  | .towerTestDone _ _ => true
  | .retrainDone _ _ => true
  | .retrainTryTimeout _ => true
  | .remapFill _ => true
  | .reserveRefill _ => true
  | .modResetN => true
  | .leakDetect => true
  | .coolantSample _ _ _ => true
  | .bypass => true
  | .idcode => true
  | .samplePreload _ => true
  | .extest => true
  | .clamp => true
  | .diag _ => true
  | .towerDieTemperatureSample _ _ => true
  | .admissionRecheck _ _ => true
  | .supervisorRestartDone => true
  | .restartKeystoneTimeout _ => true
  | .supervisorControlPacket _ _ _ => true
  | .bridgedTakeoverTimeout _ _ => true
  | .supervisorStartTimeout => true
  | .frameReceived _ _ => true
  | .t1sLinkChange _ _ _ => true
  | .pcieLinkTrained _ _ => true

end Sys2Proof
end

