-- ==== Sys2Proof/Tests/Slice0.lean ====
section
/-! SUPPORT. Tests: the checks of WellFormed refuse an ill-formed term each; the values of rules worked out by hand; and states that meet the
hypotheses of the statements. -/

namespace Sys2Proof.Tests

open Sys2Proof.Machine

set_option Elab.async false

/-! ### Well-formed commands -/

/-- A packet of span 0's step 1 between two routers of the mesh. -/
def somePkt : Pkt := ⟨0, 0, 0x300, 7, 1, 0, 3, 0, 0, 0, false, none⟩
def someReq : Req := ⟨0x300, 0xFF, false, 1⟩
def txReq : Req := { someReq with tx := true }

theorem test_value_too_long : (Instr.powerCap someReq (zeros 1029)).wf = false := by decide +kernel
theorem test_value_fits : (Instr.powerCap someReq (zeros 1028)).wf = true := by decide +kernel
theorem test_packet_too_long : (Instr.rows somePkt 0 0 0 (zeros 65537)).wf = false := by decide +kernel
theorem test_small_write_empty : (Instr.smallWrite somePkt 0 []).wf = false := by decide +kernel
theorem test_small_write_129 : (Instr.smallWrite somePkt 0 (zeros 129)).wf = false := by decide +kernel
theorem test_write_not_flits : (Instr.write somePkt 0 (zeros 300)).wf = false := by decide +kernel
theorem test_read_none : (Instr.read somePkt 0 0).wf = false := by decide +kernel
theorem test_read_over : (Instr.read somePkt 0 65537).wf = false := by decide +kernel
theorem test_hello_nonce : (Instr.hello 0 1 (zeros 31) (zeros 32)).wf = false := by decide +kernel
theorem test_auth_tag : (Instr.auth 0 (zeros 47)).wf = false := by decide +kernel

/-! ### States that tests share -/

/-- A field in READY with its pier ON, its banks ACTIVE and its sequencer WAITING. -/
def upField : Machine.Field :=
  { Machine.Field.reset with
    state := .ready, seq := { Sequencer.reset with state := .waiting }, power := { PowerS.reset with state := .on }
    banks := List.replicate 40 { Bank.reset with state := .active } }

/-- The module after bring-up, with nothing to do. -/
def up : State :=
  { State.reset with
    fields := List.replicate 30 upField, boot := { Boot.reset with powered := true, step := 10 }
    clocks := { Clocks.reset with running := true } }

/-- Span 0 RUNNING in fields 0 and 1, anchored at field 0, with step 1 open. -/
def workSpan : Span :=
  { Span.reset with state := .running, members := [(0, 0), (0, 1)], anchor := 0, step := some .opened }

/-- An image with two descriptors: for VEC, one row of 16 BF16 elements; for PASS, one beat of ML4 products. -/
def img : Image :=
  { addr := 0, build := 1, digest := [], codeFirst := 0, codeCount := 0, prologue := 0, body := [], regions := [], code := []
    descs := [[5, 5, 1, 0, 16] ++ zeros 16 ++ [1] ++ zeros 10, [0, 0, 1, 1, 0, 0, 0, 0, 1, 0, 16] ++ zeros 21] }

/-- The module with span 0 at work and the sequencer of field 0 RUNNING. -/
def work : State :=
  ((up.modSpan 0 fun _ => workSpan).modSeq 0 fun q => { q with state := .running, image := some img }).modField 0 fun x => { x with state := .serving }

/-- A state in which the word `w` is next at field 0. -/
def placing (w : Nat) (s : State) : State := s.modSeq 0 fun q => { q with image := some { img with code := [w], codeCount := 1 }, pc := 0 }

/-- The header of an instruction at field 0 that waits for no token and sets none. -/
def hdr : Hdr := ⟨0, 0, 0, false, .clean⟩
def row0 : Opnd := ⟨0, 0⟩
def row1 : Opnd := ⟨0, 64⟩
def row2 : Opnd := ⟨0, 128⟩
def vop : VecOp := ⟨0, row0, row1, row2⟩
/-- The state once an instruction of field 0 has issued, and its VEC descriptor. -/
def adv : State := work.advanced hdr
def vdesc : VecDesc := .ofBytes (adv.descriptor 0 0)
def passOp : PassOp := ⟨1, false, false, row0, ⟨0, 256⟩, ⟨0, 512⟩⟩
def sendOp : SendOp := ⟨1, 0, 0, row0, row1⟩
def collOp : CollOp := ⟨0, 0, row0, row1⟩
def towerOp : TowerOpnd := ⟨0, 0, 0⟩

/-! ### The statements' hypotheses can be met -/

/-- One instruction of each kind that any sequencer takes up. -/
def instructions : List Instr :=
  [.pass hdr passOp, .vecConvert hdr vop, .vecAdd hdr vop, .vecMul hdr vop, .vecRmsnorm hdr vop, .vecAddnorm hdr vop, .vecLayernorm hdr vop,
   .vecSoftmax hdr vop, .vecSwiglu hdr vop, .vecGelu hdr vop, .vecRotary hdr vop, .vecTreemask hdr vop, .vecTopk hdr vop, .vecSample hdr vop,
   .vecGather hdr vop, .vecNotify hdr vop [], .moveCopy hdr 0 row0 row1, .moveTurn hdr 0 2 row0 row1 [], .moveFill hdr 0 row0] ++
  [.fetchLinear hdr true towerOp row1, .fetchList hdr false 0 row0 row1, .sendRows hdr sendOp, .sendSignal hdr 1 0, .sendStore hdr towerOp row0,
   .sendMcast hdr sendOp, .recvRows hdr 0 0, .recvSignal hdr 0 0, .collReduce hdr collOp, .collAllreduce hdr collOp, .collAllgather hdr collOp,
   .collBroadcast hdr collOp, .syncSpan hdr, .syncGroup hdr 1, .syncLocal hdr, .checkWait hdr, .checkForce hdr, .checkWindow hdr 3, .phase hdr 2,
   .stepBase hdr 3 4 100 (-2), .stepAdd hdr 3 (-1), .stepLoop hdr 2 9, .stepEndloop hdr 2 0, .stepJump hdr 0, .stepLdx hdr 3 row0 5]

/-- Where the word of an instruction is next at `work`, it issues: every result statement of a pier program. -/
theorem hyps_issues : instructions.length = 44 ∧ (instructions.all fun i =>
    match i.issued with
    | some (h, w, u) => (placing w work).issues h w u
    | none => false) = true ∧ (placing (checkWord 1 hdr 0) work).wf = true := by decide +kernel

/-- The five ways in which an instruction is held back. -/
theorem hyps_IssueHoldsBack :
    let w := vecWord 0x02 hdr vop
    let s := placing w work
    (Instr.vecAdd hdr vop).issued = some (hdr, w, some .vector) ∧
    ((s.modField 0 fun x => { x with state := .drawbridge }).field 0).state = .drawbridge ∧ (s.field 0).state ≠ .drawbridge ∧
    ({ hdr with fault := .twin 3 } : Hdr).fault = .twin 3 ∧ (s.field 0).seq.state ≠ .empty ∧ (up.field 0).seq.issuing = false ∧
    (s.field 0).seq.nextIs (vecWord 0x03 hdr vop) = false ∧ ({ hdr with fault := .uncorrectable } : Hdr).fault = .uncorrectable ∧
    (s.field 0).seq.issuing = true ∧ (s.field 0).seq.nextIs w = true ∧ hdr.fault = .clean ∧
    (let h := { hdr with wait := 1 }
     let v := placing (vecWord 0x02 h vop) (work.modSeq 0 fun q => { q with tokens := List.replicate 16 true })
     (Instr.vecAdd h vop).issued = some (h, vecWord 0x02 h vop, some .vector) ∧ (v.field 0).seq.issuing = true ∧
      (v.field 0).seq.nextIs (vecWord 0x02 h vop) = true ∧ (v.field 0).seq.mayIssue h (some .vector) = false) := by decide +kernel

theorem hyps_SequencerControl :
    let commits (s : State) : State := placing (commitWord hdr) s
    let away := commits (work.modSpan 0 fun p => { p with anchor := 1 })
    let s := commits work
    let ahead := placing (nextWord hdr) (up.modSeq 0 fun q => { q with state := .prologue })
    let waits := placing (nextWord hdr) up
    (placing (phaseWord hdr 4) work).issues hdr (phaseWord hdr 4) none = true ∧
    (away.issues hdr (commitWord hdr) none = true ∧ (away.field 0).seq.state = .running ∧ away.memberOf 0 = some 0 ∧ (away.span 0).anchor ≠ 0) ∧
    (s.issues hdr (commitWord hdr) none = true ∧ s.memberOf 0 = some 0 ∧ (s.span 0).anchor = 0 ∧ (s.span 0).step = some .opened ∧
      (s.span 0).verified = []) ∧
    (ahead.issues hdr (nextWord hdr) none = true ∧ (ahead.field 0).seq.state = .prologue ∧ ahead.openStep 0 = none) ∧
    ((placing (nextWord hdr) work).issues hdr (nextWord hdr) none = true ∧ ((placing (nextWord hdr) work).field 0).seq.state = .running) ∧
    ((waits.field 0).state ≠ .drawbridge ∧ (waits.field 0).seq.state = .waiting ∧ (waits.field 0).seq.damagedWord = false ∧
      (waits.field 0).seq.nextIs (nextWord hdr) = true ∧ (waits.field 0).seq.mayIssue hdr none = true) ∧
    (let w := ldxWord hdr 1 row0 0
     let t := placing w work
     t.issues hdr w none = true ∧ (t.advanced hdr).rowsFree 0 [(t.advanced hdr).opnd 0 row0] [(t.advanced hdr).opnd 0 row0] = true) := by
  decide +kernel

/-- Every row that a VEC operation reads or writes is free, with the rows that its operation adds. -/
theorem hyps_VectorMaps :
    ([(sameLen, noExtra), (sameLen, src2Vectors hdr vop), (sameLen, src2Vector hdr vop),
      (sameLen, fun t d => src2Vector hdr vop t d ++ [vectorRows (t.paramOperand hdr.field (d.p32 4)) 5 d.len 1]),
      (sameLen, fun t d => if d.masked then [[t.opnd hdr.field vop.src2]] else []), ((fun d => d.len / 2), noExtra),
      (sameLen, fun t d => [tableRows hdr t d] ++ if d.p32 8 = 0 then [] else [[t.paramOperand hdr.field (d.p32 8)]])].all fun e =>
        let p := vecPlan hdr vop e.1 e.2 adv vdesc
        adv.rowsFree 0 p.operands (p.reads ++ p.writes)) = true := by decide +kernel

/-- A SOFTMAX with mask rows and a PREFIX in a register, behind another vector operation. -/
theorem hyps_softmax_held :
    let s := placing (vecWord 0x18 hdr vop) (work.modSeq 0 fun q => { q with inFlight := [⟨.vector, 2, none, 1, 0, []⟩] })
    let u := s.modSeq 0 fun q => { q with image := q.image.map fun i => { i with descs := [[5, 5, 1, 0, 16] ++ zeros 16 ++ [3] ++ zeros 10] } }
    let t := u.advanced hdr
    let d := VecDesc.ofBytes (t.descriptor 0 0)
    let p := vecPlan hdr vop sameLen (fun t d => if d.masked then [[t.opnd 0 vop.src2]] else []) t d
    u.issues hdr (vecWord 0x18 hdr vop) (some .vector) = true ∧ t.rowsFree 0 p.operands (p.reads ++ p.writes) = true ∧ d.masked = true ∧
    d.prefixReg = true ∧ t.vectorBusy 0 = true := by decide +kernel

theorem hyps_VectorOthers :
    let a := adv.opnd 0 row0
    let b := adv.opnd 0 row2
    adv.rowsFree 0 [a, b] [a, b, rowAfter b 1] = true ∧
    (let p := vecPlan hdr vop sameLen (fun t d => src2Vector hdr vop t d ++ [residRows hdr t d]) adv vdesc
     adv.rowsFree 0 p.operands (p.reads ++ p.writes) = true) ∧
    (let from1 := adv.sourceRows 0 hdr vdesc a
     let dst := rowsFrom b (2 * vdesc.rows)
     adv.rowsFree 0 ([from1, dst].filterMap List.head?) (from1 ++ dst) = true) ∧
    (let from1 := rowsFrom a (2 * vdesc.p8 9)
     adv.rowsFree 0 ([from1, [b]].filterMap List.head?) (from1 ++ [b]) = true) ∧
    (let index := rowsFrom (adv.paramOperand 0 (vdesc.p32 0)) ((4 * vdesc.rows + 511) / 512)
     let dst := rowsFrom b ((vdesc.rows * vdesc.len * elemBytes vdesc.ofmt + 511) / 512)
     adv.rowsFree 0 ([index, dst].filterMap List.head?) (index ++ adv.gatherRows 0 vdesc ++ dst) = true) ∧ vdesc.ifmt = vdesc.ofmt := by decide +kernel

/-- A TREEMASK whose parents form a tree: node 0 at the prefix's end, the rest on it. -/
theorem hyps_treemask :
    let s := placing (vecWord 0x28 hdr vop) (work.putRows 0 0 ((0xFF : Byte) :: zeros 511))
    let t := s.advanced hdr
    s.issues hdr (vecWord 0x28 hdr vop) (some .vector) = true ∧
    (match treemask vdesc.len ((List.range vdesc.len).map fun j => leAt (t.row 0 (t.opnd 0 row0)) j 1) with
      | .ok (m, _) => m.length == 16
      | .error _ => false) = true := by decide +kernel

/-- NOTIFY in a prologue, and at a pier that is no anchor. -/
theorem hyps_VectorNotify :
    let w := vecWord 0x40 hdr vop
    let s := placing w (up.modSeq 0 fun q => { q with state := .prologue })
    let u := placing w (work.modSpan 0 fun p => { p with anchor := 1 })
    (s.openStep 0 = none ∧ s.issues hdr w (some .vector) = true) ∧
    (u.openStep 0 = some (0, 1, 0) ∧ (u.span 0).anchor ≠ 0 ∧ u.issues hdr w (some .vector) = true) := by decide +kernel

theorem hyps_MoveInstructions :
    let a := adv.opnd 0 row0
    let b := adv.opnd 0 row1
    adv.rowsFree 0 [a, b] (rowsFrom a 1 ++ rowsFrom b 1) = true ∧ (0#12).toNat + 1 ≤ (b + 2 ^ 22 - a) % 2 ^ 22 ∧
    adv.rowsFree 0 [b] (rowsFrom b 1) = true ∧
    (∀ e : Fin 4, adv.rowsFree 0 [a, b] (rowsFrom a (1 * tileRows e) ++ rowsFrom b (1 * tileRows e)) = true) := by decide +kernel

theorem hyps_FetchInstructions :
    let a := towerAddr (adv.field 0).seq.idx 0 0
    let x : AheadFetch := ⟨0, 0, [], none⟩
    let t := adv.modSeq 0 fun q => { q with ahead := [x] }
    let q := (t.field 0).seq
    badBank (adv.opnd 0 row1) = false ∧ badBank (adv.opnd 0 ⟨0, 0x3F0000⟩) = true ∧ adv.rangeOk a 1 = true ∧ adv.rangeOk 1 1 = false ∧
    (((adv.field 0).seq.ahead.find? fun y => true && y.step == (adv.field 0).seq.reg 0 && y.nth == (adv.field 0).seq.fetchNth) = none) ∧
    ((q.ahead.find? fun y => true && y.step == q.reg 0 && y.nth == q.fetchNth) = some x) ∧
    ((q.runAhead.filter fun r => r.step == x.step && r.nth == x.nth).all fun r => r.rest.isEmpty) = true ∧ t.readsLeft 0 x.tags = 0 ∧
    adv.rowsFree 0 [adv.opnd 0 row0, adv.opnd 0 row1] [adv.opnd 0 row0] = true ∧
    ((listEntries (adv.row 0 (adv.opnd 0 row0)) 0).all fun e => adv.rangeOk e.1 e.2) = true ∧
    (let u := adv.putRows 0 0 ((1 : Byte) :: zeros 511)
     u.rowsFree 0 [u.opnd 0 row0, u.opnd 0 row1] [u.opnd 0 row0] = true ∧
     ((listEntries (u.row 0 (u.opnd 0 row0)) 0).all fun e => u.rangeOk e.1 e.2) = false) := by decide +kernel

theorem hyps_SendInstructions :
    let a := adv.opnd 0 row0
    let t := adv.setRegAt regGroup 0 16 (ofLe ([2, 0, 0, 0, 3] ++ zeros 27))
    adv.pierSpan 0 = 0 ∧ adv.rowsFree 0 [a, adv.opnd 0 row1] (rowsFrom a 1) = true ∧ adv.rowsFree 0 [a] (rowsFrom a 1) = true ∧
    badBank a = false ∧ ((adv.span 0).memberDst 1).isSome = true ∧ (adv.span 0).memberDst 9 = none ∧
    adv.rangeOk (towerAddr (adv.field 0).seq.idx 0 0) 1 = true ∧ adv.rangeOk (towerAddr (adv.field 0).seq.idx 0 1) 1 = false ∧
    (t.modSpan 0 fun p => { p with latched := t.regs }).groupOf 0 true 0 = some (0, [0, 1]) ∧ adv.groupOf 0 true 0 = none ∧
    (adv.span 0).mcasts = [] := by decide +kernel

theorem hyps_Collectives :
    let a := adv.opnd 0 row0
    let b := adv.opnd 0 row1
    adv.rankIn 0 0 0 = some (0, 0, [0, 1]) ∧ adv.rowsFree 0 [a, b] (rowsFrom a 1 ++ rowsFrom b 2) = true ∧
    adv.rowsFree 0 [a, b] (rowsFrom a 1 ++ rowsFrom b 1) = true ∧
    (let t := adv.modSpan 0 fun p => { p with anchor := 1 }
     t.rankIn 0 0 0 = some (0, 1, [0, 1]) ∧ t.rowsFree 0 [a, b] (rowsFrom a 1) = true ∧ t.rowsFree 0 [a, b] (rowsFrom b 1) = true) := by
  decide +kernel

theorem hyps_Barriers : adv.groupOf 0 false 0 = some (0, [0, 1]) ∧ adv.groupOf 0 false 1 = none := by decide +kernel

theorem hyps_PassAccumulates :
    let d := PassDesc.ofBytes (adv.descriptor 0 1)
    let w := d.weightRows (adv.opnd 0 passOp.wsrc)
    let a := d.actRows (adv.opnd 0 passOp.asrc)
    let q := (adv.field 0).seq
    let t := adv.modSpan 0 fun p => { p with latched := (adv.setReg regCheckProfile 0 2).regs }
    ([passOp, { passOp with drain := true }].all fun o =>
      t.rowsFree 0 ([adv.opnd 0 o.wsrc, adv.opnd 0 o.asrc] ++ (t.drainRows 0 o d).take 1) (w.flatten ++ a.flatten ++ t.drainRows 0 o d)) = true ∧
    passOp.drain = false ∧ d.diagonal = false ∧ passChecked (t.profileOf 0) q.passIndex (q.reg 0) q.forceCheck = false := by decide +kernel

/-! #### The commit protocol -/

/-- A state with the towers ONLINE. -/
def towersUp (s : State) : State := { s with channels := List.replicate 192 { Channel.reset with state := .online } }

/-- A packet of another step of span 0. -/
def laterPkt : Pkt := { somePkt with step := 2 }

theorem hyps_Reports :
    let aborting := (work.modSpan 0 fun p => { p with step := some .aborting }).modSeq 0 fun q => { q with state := .aborting, abortDue := true }
    let t := work.hauled somePkt 1
    let u := aborting.hauled somePkt 1
    (work.openStep 0 = some (0, 1, 0) ∧ ((work.modSeq 0 fun q => { q with state := .committing }).field 0).seq.readyDue = true) ∧
    (aborting.openStep 0 = some (0, 1, 0) ∧ (aborting.span 0).step = some .aborting ∧ (aborting.field 0).seq.abortDue = true ∧
      aborting.abortClear 0 0 = true ∧ (aborting.field 0).seq.prologueFailed = false) ∧
    (work.delivers somePkt = true ∧ t.stale somePkt = false ∧ (t.span 0).step ≠ none ∧ (t.span 0).step ≠ some .aborting ∧
      (t.span 0).isOpen somePkt.step.toNat somePkt.attempt.toNat = true ∧ (0#16).toNat % 256 = 0 ∧ (2#16).toNat % 256 ≠ 0) ∧
    (aborting.delivers somePkt = true ∧ u.stale somePkt = false ∧ (u.span 0).step = some .aborting ∧
      (u.span 0).isOpen somePkt.step.toNat somePkt.attempt.toNat = true) ∧
    (work.delivers laterPkt = true ∧ (work.hauled laterPkt 1).stale laterPkt = false ∧
      ((work.hauled laterPkt 1).span 0).isOpen laterPkt.step.toNat laterPkt.attempt.toNat = false) := by decide +kernel

theorem hyps_Keystones :
    let decided := (towersUp work).modSpan 0 fun p => { p with step := some .decided }
    let opened := work.modSpan 0 fun p => { p with step := none, committed := 1 }
    let t := opened.hauled somePkt 1
    let v := (work.modSpan 0 fun p => { p with step := some .closing }).modSeq 0 fun q => { q with state := .committing, reported := true }
    ((decided.span 0).state = .running ∧ (decided.span 0).step = some .decided ∧ decided.copiesReachable 0 = true) ∧
    (work.span 0).step ≠ some .decided ∧ (work.modSpan 0 fun p => { p with step := some .decided }).copiesReachable 0 = false ∧
    (up.span 0).state ≠ .running ∧
    (opened.delivers somePkt = true ∧ t.stale somePkt = false ∧ (t.span 0).state ≠ .unused ∧
      ((t.advanceAway 0 1).span 0).committed = somePkt.step.toNat ∧ ((t.advanceAway 0 1).span 0).here = [0, 1]) ∧
    (v.span 0).step = some .closing ∧
    (v.memberOf 0 = some 0 ∧ (v.field 0).seq.state = .committing ∧ (v.field 0).seq.reported = true) := by decide +kernel

theorem hyps_CommitMovesMarks : work.wf = true ∧ (1 : SpanId) ≠ 0 := by decide +kernel

theorem hyps_AbortAndOpen :
    let t := work.hauled somePkt 1
    let u := t.openAway 0 0
    let v := up.modSpan 0 fun _ => { workSpan with state := .paused }
    (work.delivers somePkt = true ∧ t.stale somePkt = false ∧ (t.span 0).state = .running ∧ (t.span 0).here.contains 0 = true ∧
      (t.span 0).committed + 1 = somePkt.step.toNat) ∧
    ((u.span 0).step = some .opened ∧ (u.span 0).isOpen somePkt.step.toNat somePkt.attempt.toNat = true) ∧
    (v.delivers somePkt = true ∧ (v.hauled somePkt 1).stale somePkt = false ∧ ((v.hauled somePkt 1).span 0).state ≠ .running) := by decide +kernel

theorem hyps_AbortDiscards : work.wf = true ∧ (work.span 0).step = some .opened ∧
    ((work.modSpan 0 fun p => { p with step := some .closing }).span 0).step = some .closing := by decide +kernel

/-- Span 0 as the verifier of the drafting span 1 (R219, R238), with a live sequence. -/
def pair : State :=
  let s := (work.modSpan 0 fun p => { p with step := none, seqs := [⟨7, 1, 1, 1, 1, [], 0, 0⟩] }).modSpan 1 fun _ => { workSpan with step := none }
  let t := ((s.setReg regSpecRole 0 1).setReg regPairSpan 0 1).setReg regVariantNodes 0 1
  t.modSpan 0 fun p => { p with latched := t.regs }

theorem hyps_SpanEvents :
    (let p := (work.modSpan 0 fun p => { p with state := .paused, epochDue := 2 }).span 0
     p.state = .paused ∧ p.epochDue ≠ 0 ∧ p.recovery = []) ∧
    ((work.modSpan 0 fun p => { p with state := .loading }).span 0).state = .loading ∧ (work.span 0).state ≠ .loading ∧
    ((work.modSpan 0 fun p => { p with state := .resetting }).span 0).state = .resetting ∧ (work.span 0).state ≠ .resetting ∧
    (let p := (work.modSpan 0 fun p => { p with unarrived := [3] }).span 0
     p.unarrived = [3] ∧ p.state = .running) ∧
    (let p := (work.modSpan 0 fun p => { p with state := .paused, unarrived := [3] }).span 0
     p.unarrived = [3] ∧ p.state ≠ .ready ∧ p.state ≠ .running) ∧
    ((pair.pairOf 0).map (·.2) = some 1 ∧ (pair.span 0).draftActed < (5#64).toNat ∧ (pair.span 0).noticeStep ≤ (5#64).toNat ∧
      (pair.span 0).draftGone = false ∧ ((pair.modSpan 0 fun p => { p with draftGone := true }).span 0).draftGone = true) ∧
    (pair.verifyNext 0 = true ∧ pair.turn 0 = false ∧ (pair.span 0).step = none) := by decide +kernel

/-! #### Programs, verdicts and spin -/

/-- A program image: STEP.NEXT as prologue at index 32, and a body of PHASE, COMMIT and NEXT at index 33 (R165, R166); its SHA3-256 and CRC-32 were
computed by other software. -/
def image : List Byte :=
  leBytes 4 0x5043594F ++ leBytes 2 1 ++ leBytes 2 0 ++ leBytes 4 4 ++ leBytes 4 32 ++ leBytes 4 33 ++ (List.replicate 7 (leBytes 4 0xFFFFFFFF)).flatten ++
  leBytes 4 7 ++ leBytes 32 0x8028918fdea61679f057aa377d83010ed5c704bb156d38396d5b3818acdfe937 ++ zeros 168 ++ leBytes 4 0xb8fe78e4 ++ zeros 256 ++
  ([12, 10, 11, 12].map fun c => leBytes 16 (c * 2 ^ 124)).flatten

/-- The module with its towers ONLINE. -/
def served : State := towersUp up
def withImage : State := served.poke 0x10000 image

theorem hyps_image_good : imageRefusal image = none := by decide +kernel
theorem hyps_image_bad : imageRefusal ((1 : Byte) :: image.drop 1) = some (1, 0) := by decide +kernel
theorem hyps_program_load : withImage.mayLoad 0 = true ∧ withImage.peek 0x10000 256 = some (image.take 256) ∧
    imageBytes (image.take 256) = 576 ∧ withImage.peek 0x10000 576 = some image := by decide +kernel

theorem hyps_Programs :
    let x : InFlight := ⟨.vector, 2, none, 1, 0, []⟩
    let y : InFlight := ⟨.turn, 3, none, 1, 0, []⟩
    let s := work.modSeq 0 fun q => { q with inFlight := [x, y] }
    (work.field 0).seq.image ≠ none ∧ ((work.modSeq 0 fun q => { q with damagedWord := true }).field 0).seq.damagedWord = true ∧
    (s.field 0).state ≠ .drawbridge ∧ s.wf = true ∧ s.completes 0 .vector = some x ∧ s.completes 0 .turn = some y ∧ s.completes 0 .fetch = none ∧
    ((work.modField 0 fun x => { x with state := .drawbridge }).field 0).state = .drawbridge ∧
    (work.modSeq 0 fun q => { q with inFlight := [⟨.fetch, 8, none, 1, 0, []⟩] }).completes 0 .fetch = some ⟨.fetch, 8, none, 1, 0, []⟩ ∧
    (work.modSeq 0 fun q => { q with inFlight := [⟨.mesh, 8, none, 1, 0, []⟩] }).completes 0 .mesh = some ⟨.mesh, 8, none, 1, 0, []⟩ ∧
    (let a : InFlight := ⟨.array, 1, none, 1, 0, []⟩
     let t := work.modSeq 0 fun q => { q with inFlight := [a, { a with serial := 2 }] }
     t.completes 0 .array = some a ∧ (t.field 0).array.spin ≠ .preRamp) := by decide +kernel

/-- `work` after a DIAGONAL pass of one beat in BF16 that carries checks. -/
def diag : PassOp := { passOp with desc := 0 }
def checked : State :=
  let s := (placing (passWord hdr diag) work).modSeq 0 fun q =>
    { q with forceCheck := true, image := q.image.map fun i => { i with descs := [[3, 0, 1, 1, 5, 5, 0, 0, 1, 0, 16] ++ zeros 21] } }
  match exec (.pass hdr diag) (s.putRows 0 0 (leBytes 512 0x40003F80)) with
  | .next t => t
  | _ => s

/-- A verdict of the array without and with a fault in a cell, and one of the vector unit without and with a fault in a lane. -/
theorem hyps_VerdictsAndSpin :
    let s := checked.modSeq 0 fun q => { q with verdicts := q.verdicts ++ [(true, 5)] }
    (s.field 0).state ≠ .drawbridge ∧ ((s.field 0).seq.verdicts.find? fun v => !v.1 && v.2 % 65536 == (0#16).toNat) = some (false, 0) ∧
    (((s.field 0).array.checks.find? fun c => c.pass == (false, 0).2).map fun c => (c.failing [], c.failing [.cell 0 0 0 1 0])) = some (0, 1) ∧
    ((s.field 0).seq.verdicts.find? fun v => v.1 && v.2 % 65536 == (5#16).toNat) = some (true, 5) ∧
    ([LaneFault.mk 0 80 1].any (LaneFault.seen ((s.field 0).seq.wholeChecks.contains 5) (laneGroup (s.profileOf 0) 5 ((s.field 0).seq.reg 0)))) = true ∧
    ([LaneFault.mk 0 10 1].any (LaneFault.seen ((s.field 0).seq.wholeChecks.contains 5) (laneGroup (s.profileOf 0) 5 ((s.field 0).seq.reg 0)))) = false ∧
    (work.field 0).array.spin = .rest ∧ ((work.modArray 0 fun a => { a with spin := .spinning }).field 0).array.spin = .spinning ∧
    ((work.modArray 0 fun a => { a with spin := .ramping }).field 0).array.spin = .ramping ∧
    ((work.modArray 0 fun a => { a with spin := .preRamp }).field 0).array.spin = .preRamp := by decide +kernel

/-! #### Scratchpad banks, digests, tests and recoveries -/

theorem hyps_BankAccesses :
    ((work.field 0).bank 3).state = .active ∧ ((work.field 0).bank 3).locked.contains 9 = false ∧ opReads (.write []) = false ∧
    opReads .read = true ∧ ((work.modBank 0 3 fun b => { b with locked := [9] }).field 0 |>.bank 3).locked.contains 9 = true ∧
    ([BankState.waking, .retain, .off, .draining].all fun x => (((work.modBank 0 3 fun b => { b with state := x }).field 0).bank 3).state == x) = true := by
  decide +kernel

theorem hyps_BankStores : work.wf = true ∧ ((work.field 0).bank 39).state = .active ∧
    ((work.field 0).bank 39).locked.contains (65535#16).toNat = false := by decide +kernel

/-- A region table with one RESIDENT region, banks 3 to 3, rows 0 to 9, from tower address 0x20000. -/
def oneRegion (s : State) : State :=
  s.modSeq 0 fun q => { q with image := some { img with
    regions := leBytes 1 3 ++ leBytes 1 3 ++ leBytes 2 0 ++ leBytes 2 9 ++ leBytes 1 1 ++ leBytes 1 0 ++ leBytes 8 0x20000 ++ zeros 240 } }

theorem hyps_BankStates :
    (let y := ((work.modBank 0 3 fun b => { b with state := .retain }).field 0).bank 3
     y.state = .retain ∧ work.reg regRetainScrub 0 ≠ 0) ∧ (work.setReg regRetainScrub 0 0).reg regRetainScrub 0 = 0 ∧
    ([(false, BankState.draining), (true, .draining), (false, .waking)].all fun x =>
      let y := ((work.modBank 0 3 fun b => { b with state := x.2, heat := x.1 }).field 0).bank 3
      y.state == x.2 && y.heat == x.1) = true ∧ ((work.field 0).bank 3).state ≠ .waking ∧
    (let s := (oneRegion served).modBank 0 3 fun b => { b with locked := [9] }
     ((s.field 0).bank 3).state = .active ∧ ((s.field 0).bank 3).locked.contains 9 = true ∧ s.refill 0 3 9 = some (zeros 512)) ∧
    ((oneRegion up).modBank 0 3 fun b => { b with locked := [9] }).refill 0 3 9 = none := by decide +kernel

theorem hyps_DigestsAndTests :
    (up.passMayEnd 0 = true ∧ residentBanks (up.regionTable 0) = []) ∧
    ((oneRegion up).modBank 0 3 fun b => { b with locked := [9] }).passMayEnd 0 = false ∧
    (let s := up.modBank 0 3 fun b => { b with rewriting := 2 }
     ((s.field 0).bank 3).rewriting ≠ 0 ∧ s.memberOf 0 = none) ∧
    (let s := work.modBank 0 3 fun b => { b with rewriting := 1 }
     ((s.field 0).bank 3).rewriting = 1) ∧
    (let s := work.modBank 0 3 fun b => { b with rewriting := 2 }
     ((s.field 0).bank 3).rewriting = 2 ∧ s.memberOf 0 = some (0 : SpanId).val) ∧ ((work.field 0).bank 3).rewriting = 0 ∧
    (let s := up.setReg regTestsEnable 0 1
     s.tests.segment = none ∧ s.tests.confirm = none ∧ s.reg regTestsEnable 0 ≠ 0 ∧ s.segmentAllowed 0 = true ∧ 1 < (2#8).toNat) ∧
    (up.setReg regTestsEnable 0 0).reg regTestsEnable 0 = 0 ∧
    ([none, some (0, 1, 1), some (0, 2, 1)].all fun c =>
      let s := up.modTests fun t => { t with segment := some (0, 2, 5), confirm := c }
      s.tests.segment == some (0, 2, 5) && s.tests.confirm == c) = true ∧ up.memberOf 0 = none := by decide +kernel

/-- Span 0 paused over a recovery. -/
def paused (r : Recovery) : State := work.modSpan 0 fun p => { p with state := .paused, recovery := [r], spare := some 5 }

theorem hyps_Recoveries :
    (let s := up.modFaults fun x => { x with located := [unitId 1 0 0] }
     s.faults.located.contains (BitVec.ofNat 32 (unitId 1 0 0)).toNat = true ∧ unitExists (BitVec.ofNat 32 (unitId 5 0 0)).toNat = true) ∧
    (let s := work.modSpan 0 fun p => { p with testing := [unitId 1 0 0] }
     s.faults.located.contains (BitVec.ofNat 32 (unitId 1 0 0)).toNat = false ∧
     ((List.range 8).filter fun k => (s.span k).testing.contains (BitVec.ofNat 32 (unitId 1 0 0)).toNat) = [0]) ∧
    (up.modFaults fun x => { x with probes := [4] }).faults.probes.contains 4 = true ∧
    ((paused (.spare 1)).supervised = true ∧ ((paused (.spare 1)).span 0).state = .paused ∧ ((paused (.spare 1)).span 0).recovery = [.spare 1] ∧
      ((paused (.spare 1)).span 0).spare = some 5) ∧
    (let s := (withImage.modSpan 0 fun _ => { workSpan with state := .paused, recovery := [.plan 1 0] }).setReg regNminus1Plans 0 (0x10000 * 2 ^ 64)
     let u := s.noteImage (leAt (s.plan 0 0) 8 8)
     s.supervised = true ∧ (s.span 0).state = .paused ∧ (s.span 0).recovery = [.plan 1 0] ∧ leAt (s.plan 0 0) 8 8 = 0x10000 ∧
     u.peek 0x10000 256 = some (image.take 256) ∧ imageBytes (image.take 256) ≤ 262144 ∧
     u.peek 0x10000 (imageBytes (image.take 256)) = some (image.take (imageBytes (image.take 256))) ∧
     imageRefusal (image.take (imageBytes (image.take 256))) = none) := by
  decide +kernel

/-! #### The mesh and the movers -/

/-- A packet of span 0's step 1, from the pier of field 1 and from a mover. -/
def pierPkt : Pkt := { somePkt with master := 0x101 }
def moverPkt : Pkt := { somePkt with master := 0x500 }
/-- The same packet under another epoch, damaged, and of routes no longer in force. -/
def stalePkt : Pkt := { somePkt with epoch := 1 }
def damagedPkt : Pkt := { somePkt with damage := some 2 }
def oldPkt : Pkt := { somePkt with gen := true }

theorem hyps_Arrivals :
    let s := work.hauled pierPkt (flitsFor 512)
    let c : CollHdr := ⟨0, 0, false, 0, 0, 0, false, false, 1⟩
    let good := { c with digest := BitVec.ofNat 64 (digestOf (s.digestR 0 1 0 0) 0 false (zeros 512)) }
    work.delivers pierPkt = true ∧ s.stale pierPkt = false ∧ flitsFor 512 = flitsFor (zeros 512).length ∧ s.resetting 0 = false ∧
    s.openStep 0 = some (0, pierPkt.step.toNat, pierPkt.attempt.toNat) ∧
    digestOf (s.digestR 0 1 0 0) good.row.toNat good.words (zeros 512) = good.digest.toNat ∧
    digestOf (s.digestR 0 1 0 0) good.row.toNat good.words (zeros 512) ≠ (good.digest + 1).toNat ∧
    s.accessCode pierPkt.master.toNat 0 .w (rowKey 0 0) 512 = 0 ∧ s.windowAsleep (rowKey 0 0) 512 = false ∧
    (let t := (work.modBank 0 0 fun b => { b with state := .waking }).hauled pierPkt (flitsFor 512)
     t.stale pierPkt = false ∧ t.accessCode pierPkt.master.toNat 0 .w (rowKey 0 0) 512 = 0 ∧ t.windowAsleep (rowKey 0 0) 512 = true) := by
  decide +kernel

theorem hyps_Arrivals_headers :
    let s := work.hauled pierPkt 1
    work.delivers pierPkt = true ∧ s.stale pierPkt = false ∧ s.resetting 0 = false ∧ (s.span 0).step ≠ none ∧
    (s.span 0).committed + 1 = pierPkt.step.toNat ∧ (s.span 0).attempt = pierPkt.attempt.toNat ∧
    1 < s.barrierSize 0 0xFF ∧ s.barrierSize 0 0xFF ≤ 2 ∧ s.groupOf 0 false 0 = some (0, [0, 1]) ∧
    s.openStep 0 = some (0, pierPkt.step.toNat, pierPkt.attempt.toNat) ∧
    (((work.modSeq 0 fun q => { q with waiting := [.sync 0xFF 0 none] }).hauled pierPkt 1).field 0).seq.waiting = [.sync 0xFF 0 none] ∧
    s.reachable 0 = true ∧ (s.field 0).power.state.nack = 0 ∧ s.openStep 5 ≠ some (0, pierPkt.step.toNat, pierPkt.attempt.toNat) ∧
    (s.field 5).power.state.nack = 0 ∧ s.reachable 5 = true := by decide +kernel

theorem hyps_StalePackets :
    (work.delivers stalePkt = true ∧ stalePkt.span.toNat < 8 ∧ stalePkt.epoch.toNat ≠ (work.span stalePkt.span.toNat).epoch) ∧
    addrRegion (0x800000000000#48).toNat = 8 ∧ addrRegion (0xC00000000000#48).toNat = 12 ∧ damagedPkt.damage = some 2 ∧
    oldPkt.damage = none ∧ oldPkt.gen ≠ work.mesh.routeGen := by decide +kernel

theorem hyps_MemoryRequests :
    let m := 0x500
    let k := somePkt.span.toNat
    let small := served.hauled moverPkt 1
    let s := served.hauled moverPkt (flitsFor 64)
    let pier := work.hauled pierPkt 1
    (served.delivers moverPkt = true ∧ addrRegion 0x10000 ≠ 12 ∧ addrRegion 0x10000 ≠ 8) ∧
    (small.accessCode m k .r 0x10000 64 = 0 ∧ small.windowAsleep 0x10000 64 = false) ∧
    (small.accessCode m k .a 0x10000 8 = 0 ∧ small.windowAsleep 0x10000 8 = false ∧ small.accessCode m k .w 0x10000 64 = 0) ∧
    (s.accessCode m k .w 0x10000 64 = 0 ∧ s.windowAsleep 0x10000 64 = false ∧ (zeros 64).length = 64) ∧
    (up.delivers moverPkt = true ∧ (up.hauled moverPkt 1).accessCode m k .r 0x10000 64 ≠ 0 ∧
      (up.hauled moverPkt (flitsFor 64)).accessCode m k .w 0x10000 64 ≠ 0) ∧
    (work.delivers pierPkt = true ∧ addrRegion 0x800000000000 = 8 ∧ pier.stale pierPkt = false ∧
      pier.accessCode pierPkt.master.toNat 0 .w 0x800000000000 64 = 0 ∧ pier.accessCode pierPkt.master.toNat 0 .r 0x800000000000 64 = 0) ∧
    (let t := (work.modBank 0 0 fun b => { b with state := .waking }).hauled pierPkt 1
     t.accessCode pierPkt.master.toNat 0 .r 0x800000000000 64 = 0 ∧ t.windowAsleep 0x800000000000 64 = true) := by decide +kernel

theorem hyps_WindowStores :
    let u := work.hauled pierPkt 1
    work.delivers pierPkt = true ∧ addrRegion (0x800000000000#48).toNat = 8 ∧ u.stale pierPkt = false ∧
    u.accessCode pierPkt.master.toNat pierPkt.span.toNat .w (0x800000000000#48).toNat 8 = 0 ∧
    u.windowAsleep (0x800000000000#48).toNat 8 = false := by decide +kernel

theorem hyps_Responses :
    let o : Outstanding := ⟨7, 0x300, 0, 0, none, some 5, 512, none, false, 1⟩
    let asks (o : Outstanding) : State := work.modMesh fun m => { m with requests := [o] }
    let m : Mcast := ⟨0, 0, 0, 4, 1, 1, 0, 0, [(1, 1, 0, 3)]⟩
    let s := work.modSpan 0 fun p => { p with mcasts := [m] }
    let long := flitsFor 512
    ([work, asks o, asks { o with write := true }, asks { o with ahead := some 2 }, s].all fun t =>
      t.delivers somePkt && !(t.hauled somePkt 1).stale somePkt && !(t.hauled somePkt long).stale somePkt) = true ∧
    (work.hauled somePkt 1).outstanding 0x300 7 = none ∧ (work.hauled somePkt long).outstanding 0x300 7 = none ∧
    ((asks o).hauled somePkt long).outstanding 0x300 7 = some o ∧ ((asks o).hauled somePkt 1).outstanding 0x300 7 = some o ∧ o.dest = some 5 ∧
    ((asks o).hauled somePkt long).rowsAsleep 0 [5] = false ∧
    (((asks o).modBank 0 0 fun b => { b with state := .waking }).hauled somePkt long).rowsAsleep 0 [5] = true ∧ o.serial ≠ 0 ∧
    ((asks { o with write := true }).hauled somePkt 1).outstanding 0x300 7 = some { o with write := true } ∧ o.master / 256 ≠ 5 ∧ o.ahead = none ∧
    ((asks { o with ahead := some 2 }).hauled somePkt 1).outstanding 0x300 7 = some { o with ahead := some 2 } ∧
    (work.hauled somePkt 1).mcastOf 0 0 1 = none ∧ (s.hauled somePkt 1).mcastOf 0 0 1 = some m ∧
    m.targets.find? (·.1 == 1) = some (1, 1, 0, 3) := by decide +kernel

/-- The smallest timetable image of R311: period 64, no section; the CRC-32 of no bytes is 0. -/
def timetable : List Byte := leBytes 4 0x5454594F ++ leBytes 2 64 ++ leBytes 2 0 ++ leBytes 4 16 ++ leBytes 4 0

theorem hyps_LinksAndTimetables :
    up.linkState 0 1 = .online ∧ up.linkState 0 0 ≠ .online ∧
    (((up.bump regReplays 0 1).modRouter 0 fun x => { x with replays := x.replays.set 1 1 }).router 0).marked up.opSeconds 1 = [] ∧
    (up.router 0).replays.getD 1 0 < 3 ∧
    (let s := up.setLinkState 0 1 .repairing
     s.linkState 0 1 = .repairing ∧ (s.router 0).marked s.opSeconds 1 = []) ∧ (up.modMesh fun m => { m with holding := true }).mesh.holding = true ∧
    ([SpanState.loading, .paused].all fun st =>
      let s := ((served.modSpan 0 fun _ => { workSpan with state := st }).setReg regTimetableAddr 0 0x30000).poke 0x30000 timetable
      (s.span 0).state == st && s.peek (s.reg regTimetableAddr 0) 16 == some timetable && leAt timetable 8 4 == 16 && s.timetableOk 0 timetable) = true ∧
    (let s := work.modSpan 0 fun p => { p with timetable := { p.timetable with window := some 5 } }
     (s.span 0).timetable.window ≠ none ∧ (s.span 0).timetable.opened = false) ∧
    (let s := work.modSpan 0 fun p => { p with timetable := { p.timetable with window := some 5, opened := true } }
     let t := s.hauled somePkt 1
     (s.field 0).state ≠ .drawbridge ∧ (s.span 0).timetable.opened = true ∧ (s.span 0).timetable.slipped = false ∧ s.openStep 0 = some (0, 1, 0) ∧
     s.delivers somePkt = true ∧ t.stale somePkt = false ∧ t.openStep 0 = some (0, 1, 0) ∧ (t.span 0).timetable.window ≠ none ∧
     (t.span 0).timetable.slipped = false) := by decide +kernel

/-- A register set that copies 64 bytes from tower address 0x10000 to tower address 0x20000. -/
def copySet : MoverSet := { MoverSet.reset with src := 0x10000, dst := 0x20000, length := 64 }
/-- `work` with its towers ONLINE and a shadow set in channel 3 of field 0. -/
def shadowed (x : MoverSet) (valid : Bool) : State := (towersUp work).modMover 0 3 fun m => { m with shadow := x, shadowValid := valid }

theorem hyps_MoverCommands :
    let t := (shadowed copySet false).hauled moverPkt 1
    let bad := (shadowed { MoverSet.reset with op := 15 } true).hauled moverPkt 1
    ([shadowed copySet false, shadowed { MoverSet.reset with op := 15 } true].all fun s =>
      let t := s.hauled moverPkt 1
      s.delivers moverPkt && !t.stale moverPkt && t.reachable 0 &&
        t.granted (targetMover 0) moverPkt.master.toNat moverPkt.span.toNat .c [3]) = true ∧
    t.moverSetOk 0 3 ((t.field 0).mover 3).shadow = true ∧ bad.moverSetOk 0 3 ((bad.field 0).mover 3).shadow = false ∧
    (moverSetWrite 0 3 false 0 (zeros 8) t).isSome = true ∧ (moverSetWrite 0 3 true 0 (zeros 8) bad).isNone = true ∧
    (work.delivers somePkt = true ∧ (work.hauled somePkt 1).stale somePkt = false ∧ (work.hauled somePkt 1).reachable 0 = true ∧
      (work.hauled somePkt 1).granted (targetMover 0) somePkt.master.toNat somePkt.span.toNat .c [3] = false) ∧
    (work.delivers stalePkt = true ∧ (work.hauled stalePkt 1).stale stalePkt = true) := by decide +kernel

theorem hyps_MoverStates :
    let inState (x : MoverState) : State := work.modMover 0 3 fun m => { m with state := x }
    let at' (x : MoverState) : Mover := ((inState x).field 0).mover 3
    (at' .armed).state = .armed ∧
    (let s := (work.modMover 0 3 fun m => { m with state := .armed, active := { MoverSet.reset with trigger := 1 } }).modClock 0 fun c => { c with errors := [5] }
     ((s.field 0).mover 3).state = .armed ∧ ((s.field 0).mover 3).active.trigger = 1 ∧ (s.field 0).clock.errors ≠ []) ∧
    ((at' .preempted).state = .preempted ∧ ((inState .preempted).field 0).movers.all (fun x =>
      !(x.state == .running || x.state == .preempted) || Nat.ble x.active.prio (at' .preempted).active.prio) = true) ∧
    (let s := (work.modMover 0 3 fun m => { m with state := .running, active := { copySet with dst := 0x800000000000 } })
     ((s.field 0).mover 3).state = .running ∧ s.moverAsleep ((s.field 0).mover 3).active = false ∧
     (let t := s.modBank 0 0 fun b => { b with state := .waking }
      ((t.field 0).mover 3).state = .running ∧ t.moverAsleep ((t.field 0).mover 3).active = true)) ∧
    (at' .completing).state = .completing ∧ (at' .completing).active.irq = false ∧ ({ MoverSet.reset with flags := 1 } : MoverSet).irq = true ∧
    (at' .stopping).state = .stopping ∧ (at' .stopping).stopFault = false ∧
    (at' .stopping).attempt = none ∧ ({ at' .stopping with attempt := some (1, 1) } : Mover).attempt ≠ none ∧
    ({ at' .stopping with stopFault := true } : Mover).stopFault = true ∧ (at' .error).state = .error ∧ (at' .idle).state = .idle ∧
    work.moverSetOk 0 3 { MoverSet.reset with op := 15 } = false ∧
    (moverSetWrite 0 3 false 0 (zeros 8) work).isSome = true ∧ ((shadowed copySet true).field 0 |>.mover 3).shadowValid = true := by decide +kernel

/-! #### Recorder, references and clocks -/

theorem hyps_RecorderEvents :
    let n : Notice := ⟨fieldUnit 0, pierMaster 0, 0x0302, []⟩
    let lost : Notice := ⟨fieldUnit 0, 0x020, 0x0B05, leBytes 4 3⟩
    let s := up.modRec fun r =>
      { r with notices := [n, lost], ceiling := some 65536, pendingN := 1, die := [⟨1, 0, 1, 0, 0x0001, zeros 8⟩], nextSeq := 2 }
    2 ≤ s.boot.step ∧ (s.field s.supervisorField).state ≠ .dark ∧ (s.field s.supervisorField).state ≠ .retired ∧
    s.recorder.notices.find? (·.source == (BitVec.ofNat 12 (pierMaster 0)).toNat) = some n ∧ n.code ≠ 0x0B05 ∧
    s.recorder.notices.find? (·.source == (0x020#12).toNat) = some lost ∧ lost.code = 0x0B05 ∧
    up.recorder.notices.find? (·.source == (0#12).toNat) = none ∧ s.recorder.pendingN ≠ 0 ∧ s.recorder.bucket ≠ 0 ∧ s.boot.powered = true ∧
    s.recorder.lostSince = 0 ∧ up.recorder.pendingN = 0 := by decide +kernel

theorem hyps_EventAccepted : (up.modRec fun r => { r with ceiling := some 65536 }).recorder.ceiling ≠ none ∧
    (up.modRec fun r => { r with ceiling := some 65536 }).recorder.die.length < 4096 := by decide +kernel

theorem hyps_References :
    let main : RefCopy := ⟨false, false⟩
    let spare : RefCopy := ⟨false, true⟩
    let loses (c : RefCopy) (s : State) : State := s.modClocks fun x => { x with good := x.good.set (copyPlace c) false }
    let onSpare := up.modClocks fun x => { x with strips := (true, false) }
    let none' := up.modClocks fun x => { x with good := [false, false, false, false] }
    let onlyB := up.modClocks fun x => { x with good := [false, true, false, true] }
    none'.clocks.good.getD (copyPlace main) false = false ∧ up.clocks.good.getD (copyPlace main) false = true ∧
    (onSpare.clocks.good.getD (copyPlace spare) false = true ∧ (loses spare onSpare).clocks.strip spare.b = spare.backup ∧
      (loses spare onSpare).clocks.good.getD (copyPlace ⟨spare.b, !spare.backup⟩) false = true ∧ spare.backup = true) ∧
    ((loses main up).clocks.strip main.b = main.backup ∧ (loses main up).clocks.good.getD (copyPlace ⟨main.b, !main.backup⟩) false = true ∧
      main.backup = false) ∧
    (up.clocks.good.getD (copyPlace spare) false = true ∧ (loses spare up).clocks.strip spare.b ≠ spare.backup) ∧
    (let s := up.modClocks fun x => { x with good := x.good.set (copyPlace spare) false }
     s.clocks.good.getD (copyPlace main) false = true ∧ (loses main s).clocks.good.getD (copyPlace ⟨main.b, !main.backup⟩) false = false) ∧
    (none'.clocks.refState = .locked false ∧ none'.clocks.refGood false = false ∧ none'.clocks.refGood true = false) ∧
    (onlyB.clocks.refState = .locked false ∧ onlyB.clocks.refGood false = false ∧ onlyB.clocks.refGood true = true) ∧
    (up.clocks.refState ≠ .holdover ∧ up.clocks.good.getD (copyPlace ⟨main.b, !main.backup⟩) false = true) ∧
    (up.modClocks fun x => { x with refState := .holdover }).clocks.refState = .holdover ∧
    (let t := (up.setReg regRefRevert 0 1).modClocks fun x => { x with refState := .locked true }
     t.reg regRefRevert 0 = 1 ∧ t.clocks.refState = .locked (!(t.reg regRefPreferred 0 == 1)) ∧
     t.clocks.refGood (t.reg regRefPreferred 0 == 1) = true) := by decide +kernel

theorem hyps_FieldClocks :
    let s := up.modPower 0 fun p => { p with drawTo := some 3 }
    ((s.field 0).state = .ready ∧ s.drawForced 0 = false ∧ (s.field 0).power.drawTo = some 3 ∧ s.drawAllowed 0 3 = true) ∧
    (let t := (work.modPower 0 fun p => { p with drawTo := some 3 }).modSpan 0 fun p => { p with timetable := { p.timetable with window := some 1, opened := true } }
     (t.field 0).state = .serving ∧ t.drawForced 0 = false ∧ (t.field 0).power.drawTo = some 3 ∧ t.drawAllowed 0 3 = false) ∧
    (let t := up.modField 0 fun x => { x with state := .waking }
     (t.field 0).state ≠ .ready ∧ (t.field 0).state ≠ .serving ∧ (t.field 0).state ≠ .drawbridge) ∧
    ([none, some 3].all fun p =>
      let t := (up.modField 0 fun x => { x with state := .drawbridge }).modClock 0 fun c => { c with toPoint := p }
      (t.field 0).state == .drawbridge && !(t.field 0).clock.forced && (t.field 0).clock.toPoint == p) = true ∧
    (let t := (up.modField 0 fun x => { x with state := .drawbridge }).modClock 0 fun c => { c with relocking := true }
     (t.field 0).state = .drawbridge ∧ (t.field 0).clock.relocking = true) ∧
    (up.field 0).power.state = .on ∧ ((up.modClock 0 fun c => { c with stretching := true }).field 0).clock.stretching = true ∧
    (let t := up.modClock 0 fun c => { c with errors := [5] }
     t.clocks.running = true ∧ t.reachable 0 = true ∧ (t.field 0).clock.errors ≠ [] ∧
     -100 < t.beaconError 0 (99#64).toInt ∧ t.beaconError 0 (99#64).toInt < 100 ∧ 100 ≤ t.beaconError 0 (100#64).toInt ∧
     t.beaconError 0 (-100 : BitVec 64).toInt ≤ -100) ∧ (up.field 0).clock.errors = [] ∧ up.clocks.running = true ∧ up.reachable 0 = true ∧
    (let t := (up.setReg regPtpEnable 0 1).modPorts fun p => { p with eth := List.replicate 8 ⟨.up, []⟩ }
     t.ptpOn = true ∧ t.clocks.ptpLost = false ∧
     (let u := t.modClocks fun c => { c with ptpOnce := true }
      u.ptpOn = true ∧ u.clocks.ptpLost = false ∧ u.clocks.ptpOnce = true ∧ ¬ (500#64).toInt < -(1000 * u.reg regPtpStepLimit 0 : Nat) ∧
      ¬ (-100 < (500#64).toInt ∧ (500#64).toInt < 100))) := by decide +kernel

/-! #### The dictionary -/

theorem hyps_serves : up.serves (opReq someReq 8) = true := by decide +kernel

theorem hyps_dictionary_reads :
    (let q := readReq someReq 0x2000 1 0 8
     findObj q.index q.sub = some (regPowerCap, 0, 0) ∧ regPowerCap.access ≠ .wo ∧ up.dictMay q .r = true ∧ regPowerCap.type ≠ .blob ∧
     regPowerCap.type ≠ .str) ∧
    (let q := { readReq someReq 0x1010 0 0 8 with op := 6 }
     (findObj q.index q.sub).any fun x => x.1.access != .wo && up.dictMay q .r && x.1.type == .blob && !x.1.same regWindow) ∧
    (let q := readReq someReq 0x9010 0 0 4032
     (findObj q.index q.sub).any fun x => x.1.access != .wo && up.dictMay q .r && x.1.type == .blob) ∧
    (let q := { opReq someReq 7 with index := 0x2000, sub := 1 }
     findObj q.index q.sub = some (regPowerCap, 0, 0) ∧ up.dictMay q .r = true ∧ regPowerCap.same regAccessEntry = false) := by decide +kernel

/-- A state with a transaction open for a master. -/
def inTx (s : State) (staged : List (Nat × List Byte)) : State := s.modCtl fun c => { c with txs := [⟨0x300, staged⟩] }

theorem hyps_dictionary_writes :
    let key := regThrottleTemp.key 0 0
    let s := inTx up []
    let t := inTx (up.setReg regPierOffTemp 0 100) [(key, leBytes 1 100)]
    regCapGain.acts = false ∧ up.accepts (writeReq someReq 0x2000 2 [50, 0]) regCapGain 0 0 = true ∧ up.txOf (opReq someReq 3) = none ∧
    s.txOf (opReq someReq 3) = some ⟨0x300, []⟩ ∧ s.stages (writeReq txReq 0x2000 2 [50, 0]) regCapGain 0 0 ⟨0x300, []⟩ = true ∧
    ((inTx up [(0x200002, [50, 0])]).endTx 0x300 |>.commitWrites 0x300 [(0x200002, [50, 0])]).2 = none ∧
    ((t.endTx 0x300).commitWrites 0x300 [(key, leBytes 1 100)]).2 = some (key, stValue) := by decide +kernel

theorem hyps_DirectWrites :
    let r := someReq
    (r.tx = false ∧ ofLe [1] ≠ 0) ∧ up.accepts (writeReq r 0x5000 2 [1]) regSupervisorSwap 0 0 = true ∧
    up.accepts (writeReq r 0x5100 0x20 [1]) regPredReset 0 0 = true ∧ up.accepts (writeReq r 0x3000 0x20 [1]) regSpinEnable 0 0 = true ∧
    up.accepts (writeReq r 0x6100 4 (leBytes 4 (unitId 7 0 0))) regRetireUnit 0 0 = true ∧
    up.accepts (writeReq r 0x9000 7 [1]) regClear 0 0 = true ∧ up.accepts (writeReq r 0x3000 0xC7 [1]) regVminClear 0 0 = true ∧
    up.accepts (writeReq r 0x2000 3 [1]) regGuardBand 0 0 = true ∧ up.accepts (writeReq r 0x2000 1 (leBytes 4 8000)) regPowerCap 0 0 = true ∧
    up.accepts (writeReq r 0x8100 2 [1]) regStageControl 0 0 = true ∧ up.accepts (writeReq r 0x8000 8 [1]) regLinkSavedClear 0 0 = true ∧
    up.accepts (writeReq r 0x1060 1 (zeros 48)) regMgmtKey 0 0 = true := by decide +kernel

theorem hyps_span_commands :
    work.accepts (writeReq someReq 0x5100 0x25 [2]) regSpanCommand 0 0 = true ∧
    (paused .test).accepts (writeReq someReq 0x5100 0x25 [3]) regSpanCommand 0 0 = true := by decide +kernel

theorem hyps_staging :
    let s := up.modBoot fun b => { b with update := .staging, target := 1 }
    s.accepts (writeReq someReq 0x8100 2 [2]) regStageControl 0 0 = true ∧ s.accepts (writeReq someReq 0x8100 2 [3]) regStageControl 0 0 = true ∧
    s.accepts (writeReq someReq 0x8100 4 (leBytes 4 0 ++ [7])) regStageChunk 0 0 = true := by decide +kernel

/-- Set 0 over channels 0 and 16, of towers at fields 0 and 1, and a placement of span 0 on field 0 that keeps its records there. -/
def toCreate : State :=
  (up.setReg regSetDesc 0 (ofLe (leBytes 8 0 ++ leBytes 8 (2 ^ 34) ++ leBytes 4 0 ++ leBytes 1 12 ++ leBytes 1 1 ++ leBytes 2 2 ++ leBytes 24 0x10001 ++
    zeros 16))).setReg regPlacement 0 (ofLe (leBytes 4 1 ++ [0, 0xFF, 0, 0] ++ leBytes 2 0 ++ leBytes 2 1 ++ leBytes 2 1 ++ leBytes 18 0 ++ [1, 0, 0, 0, 1] ++ zeros 27))
def createReq : DReq := writeReq someReq 0x5100 0x25 [1]

theorem keystone_places :
    let s := toCreate.placed createReq regSpanCommand
    let us := s.unitsOf (leAt (s.placement 0) 12 2)
    us.length = 2 ∧ ∀ x ∈ us, us.filter (fun y => s.addrFieldOf y.1 y.2 != s.addrFieldOf x.1 x.2) ≠ [] := by decide +kernel

/-- Whichever unit the free choice of R269 takes for copy A, there is one for copy B. -/
theorem keystone_found :
    ((toCreate.placed createReq regSpanCommand).keystoneAddrs ((toCreate.placed createReq regSpanCommand).placement 0)).isNone = false := by
  obtain ⟨h2, h⟩ := keystone_places
  unfold State.keystoneAddrs
  simp only
  have hi : choose 0 ((toCreate.placed createReq regSpanCommand).placement 0)
      ((toCreate.placed createReq regSpanCommand).unitsOf (leAt ((toCreate.placed createReq regSpanCommand).placement 0) 12 2)).length <
      ((toCreate.placed createReq regSpanCommand).unitsOf (leAt ((toCreate.placed createReq regSpanCommand).placement 0) 12 2)).length := by
    unfold choose; rw [h2]; exact Nat.mod_lt _ (by decide)
  rw [List.getD_eq_getElem?_getD, List.getElem?_eq_getElem hi, Option.getD_some]
  have hx := h _ (List.getElem_mem hi)
  split
  · exact absurd ‹_› hx
  · rfl

theorem hyps_create : toCreate.accepts createReq regSpanCommand 0 0 = true := by
  have h : (toCreate.placed createReq regSpanCommand).createRefusal 0 = 0 := by
    unfold State.createRefusal
    simp only [keystone_found]
    decide +kernel
  have h3 : ((toCreate.placed createReq regSpanCommand).command regSpanCommand 0 createReq.payload).2 = stOk := by
    have e : ofLe createReq.payload = 1 := by decide +kernel
    have e2 : regSpanCommand.same regSpanCommand = true := by decide +kernel
    have e3 : ((toCreate.placed createReq regSpanCommand).span 0).state = .unused := by decide +kernel
    simp [State.command, e, e2, State.spanCommand, e3, h]
  unfold State.accepts
  rw [h3]
  decide +kernel

/-- The transacted writes with their objects, each with a state in which it can be staged. -/
def transactions : List (State × DReq × Obj × Nat × Nat) :=
  let busy := up.modSpan 0 fun _ => workSpan
  [(busy, writeReq txReq 0x5100 0x0D [1], regPause, 0, 0), (busy, writeReq txReq 0x5100 0x0E [0], regStepVariant, 0, 0),
   (busy, writeReq txReq 0x5100 0x2A [1], regCheckProfile, 0, 0), (busy, writeReq txReq 0x3000 0x80 (leBytes 4 0xFFFFFFFF), regCoreSpan, 0, 0),
   (busy, writeReq txReq 0x5800 10 (zeros 16), regAccessEntry, 0, 9), (busy, writeReq txReq 0x4041 1 (zeros 64), regSetDesc, 1, 0),
   (up, writeReq txReq 0x3000 0x40 (zeros 40), regBankPower, 0, 0), (up, writeReq txReq 0x3000 0xC1 [1], regPierPowerRequest, 0, 0),
   (up, writeReq txReq 0x8100 8 (zeros 8), regActivateTime, 0, 0), (up, writeReq txReq 0x8200 4 (zeros 32), regAttestNonce, 0, 0),
   (up, writeReq txReq 0xA000 1 [1], regEthMode, 0, 0), (up, writeReq txReq 0xA400 2 (zeros 64), regStreamDesc, 0, 0),
   (up, writeReq txReq 0xA240 1 (zeros 32), regGroupDesc, 0, 0)]

theorem hyps_TransactedWrites : transactions.all (fun c =>
    let (s, q, o, i, j) := c
    (inTx s []).stages q o i j ⟨0x300, []⟩ && (inTx s [(q.key, q.payload)]).commits q o i j &&
    up.serves { q with tx := false } && findObj q.index q.sub == some (o, i, j)) = true := by decide +kernel

/-- A field that loses its rails takes its service strip with it (R405). -/
theorem test_stripLost :
    let s := (up.setReg regPcieLink 0 0x1005).setReg regT1sLink 1 1
    (s.stripLost 0).pcieUp = false ∧ (s.stripLost 0).control.standby = true ∧ (s.stripLost 29).pcieUp = true ∧
    (s.stripLost 29).reg regT1sLink 1 = 0 ∧ (s.stripLost 29).control.standby = false := by decide +kernel

theorem hyps_DictionaryPaths :
    let s := up.setReg regPcieLink 0 0x1005
    s.pcieUp = true ∧ s.reachable 0 = true ∧ (up.setReg regJtagDiag 0 1).reg regJtagDiag 0 = 1 ∧ malformed (zeros 16) = true ∧
    malformed (leBytes 2 0x4459 ++ [1, 8] ++ zeros 16) = false := by decide +kernel

theorem hyps_sessions :
    let s := (up.setReg regT1sLink 0 1).modCtl fun c => { c with keys := List.replicate 8 (List.replicate 48 1) }
    let hs := s.modSession 0 fun x => { x with hello := some ([], []) }
    let os := s.modSession 0 fun x => { x with opened := true }
    (s.boot.powered = true ∧ s.reg regT1sLink 0 ≠ 0 ∧ s.shakeStatus 0 = stOk ∧ s.freeSession 0 = some 0) ∧
    ((hs.session 0).hello = some ([], []) ∧ hs.reg regT1sLink (hs.session 0).port ≠ 0 ∧ hs.shakeStatus 0 = stOk) ∧
    (os.reaches (sessionMaster 0) = true ∧ os.dictReady = true ∧ os.boot.fuseFault = false ∧ os.control.expired.contains (sessionMaster 0) = false ∧
      (os.session 0).opened = true) ∧
    (up.modCtl fun c => { c with keyLocked := List.replicate 8 true }).control.keyLocked.getD 0 false = true := by decide +kernel

/-! #### Power, heat and bring-up -/

theorem hyps_SupplyEvents :
    up.boot.powered = true ∧ up.supply.undervolt = false ∧ up.supply.alert = false ∧ up.reg regLeak 0 = 0 ∧
    (up.modSupply fun p => { p with undervolt := true }).supply.undervolt = true ∧ (up.modSupply fun p => { p with alert := true }).supply.alert = true ∧
    (let s := up.modSupply fun p => { p with holding := true }
     s.supply.holding = true ∧ s.supply.alert = false ∧ s.supply.undervolt = false) ∧
    ((700#16).toNat / 5 * 5 < up.ceiling 0 ∧ (700#16).toNat / 5 * 5 < 760 ∧ 760 ≤ (800#16).toNat / 5 * 5 ∧ (800#16).toNat / 5 * 5 < up.ceiling 0) ∧
    ((up.modPower 0 fun p => { p with slewTo := some 700 }).field 0).power.slewTo = some 700 ∧
    (let s := up.modPower 0 fun p => { p with phaseHeld := true }
     (s.field 0).power.phaseHeld = true ∧ (s.field 0).power.state = .on) ∧
    (let s := up.setReg regVmin 0 (ofLe (leBytes 2 600 ++ zeros 46))
     leAt (leBytes 48 (s.reg regVmin 0)) (16 * railNo .p) 2 ≠ 0 ∧ leAt (leBytes 48 (s.reg regVmin 0)) (16 * railNo .p) 2 ≤ (601#16).toNat) ∧
    (leAt (leBytes 48 (up.reg regVmin 0)) (16 * railNo .p) 2 = 0 ∧ up.railMv 0 .p ≤ (2000#16).toNat) := by decide +kernel

theorem hyps_CellsAndHeat :
    (up.boot.powered = true ∧ (up.field 0).cellsOut.testBit 3 = false ∧ up.reachable 0 = true) ∧
    (let s := up.modField 0 fun x => { x with cellsOut := 8 }
     (s.field 0).cellsOut.testBit 3 = true ∧ s.isRetired (cellUnit 0 3) = false ∧ (s.field 0).state ≠ .dark ∧ (s.field 0).state ≠ .retired) ∧
    (let s := up.modSupply fun p => { p with calibrated := true }
     s.supply.calibrated = true ∧ (0#16).toInt < 10 * (s.reg regContactThreshold 0 : Int)) ∧ up.supply.calibrated = false ∧
    (let s := up.modPower 0 fun p => { p with state := .deferred }
     (s.field 0).power.state = .deferred ∧ (s.zoneMeasured 0 1000).admits 0 1000 = true ∧ (s.field 0).power.state ≠ .on) ∧
    (up.field 0).power.state ≠ .deferred ∧
    (let s := up.modPower 0 fun p => { p with state := .staging, stage := 3 }
     (s.field 0).power.state = .staging ∧ (s.field 0).power.drawTo = none ∧ 3 ≤ (s.field 0).power.stage) ∧
    (let s := up.modPower 0 fun p => { p with state := .staging }
     (s.field 0).power.state = .staging ∧ (s.field 0).power.drawTo = none ∧ (s.field 0).power.stage < 3) ∧
    ((up.field 0).state ≠ .retired ∧ 120000 ≤ (120000#32).toInt ∧ (50000#32).toInt < 120000 ∧
      (50000#32).toInt < (up.reg regThrottleTemp 0 : Int) * 1000 ∧ (50000#32).toInt < (up.reg regPierOffTemp 0 : Int) * 1000) ∧
    (let s := up.modPower 0 fun p => { p with state := .heatOff, junction := 60000 }
     (s.field 0).power.state = .heatOff ∧ (s.field 0).power.junction < 90000) ∧
    (let s := work.modSpan 0 fun p => { p with pauses := [.heat 0] }
     (s.span 0).state = .running ∧ (s.span 0).pauses.filterMap PauseReason.heatOf = [0]) ∧
    (let s := ((work.modSpan 0 fun p => { p with state := .paused, pauses := [.heat 0] }).setReg regHeatSwap 0 500).modPower 0 fun p => { p with state := .heatOff }
     s.memberOf 0 = some 0 ∧ s.reg regHeatSwap 0 ≠ 0 ∧ (s.span 0).state = .paused ∧ (s.span 0).pauses.contains (.heat 0) = true ∧
     (s.span 0).recovery.contains (.field 0) = false ∧ (s.field 0).power.state = .heatOff) ∧
    (let s := up.modField 0 fun x => { x with state := .dark, hot := true }
     (s.field 0).state = .dark ∧ (s.field 0).hot = true ∧ 0 < (s.field 0).cellsGood 14 2) := by decide +kernel

theorem hyps_BringupEvents :
    State.reset.boot.powered = false ∧ up.boot.powered = true ∧
    (let s := up.modBoot fun b => { b with fuseFault := true }
     s.boot.powered = true ∧ s.boot.fuseFault = true ∧ 5 ≤ s.boot.step) ∧
    (let s := up.modBoot fun b => { b with step := 1 }
     s.boot.powered = true ∧ s.boot.step = 1 ∧ s.boot.recovery = false ∧ s.control.standby = true ∧ s.control.activeB = false) ∧
    (up.modBoot fun b => { b with step := 3 }).boot.step = 3 ∧
    (let s := (up.modBoot fun b => { b with step := 4 }).modField 0 fun x => { x with state := .waking }
     (s.field 0).state = .waking ∧ (s.field 0).restarting = false ∧ s.boot.step < 5) ∧
    (let s := up.modField 0 fun x => { x with state := .waking, wakeTries := 1 }
     (s.field 0).state = .waking ∧ (s.field 0).restarting = false ∧ ((s.chargeOpen (fieldUnit 0)).field 0).state ≠ .retired ∧ (s.field 0).wakeTries ≠ 0) ∧
    (let s := up.modField 0 fun x => { x with state := .waking }
     (s.field 0).state = .waking ∧ ((s.chargeOpen (fieldUnit 0)).field 0).state ≠ .retired ∧ (s.field 0).wakeTries = 0) ∧
    (8 ≤ up.boot.step ∧ (up.link 0).state = .off ∧ (up.field (portField 0)).state = .ready ∧ up.control.standby = true ∧ up.boot.update = .idle) ∧
    ((work.span 0).state ≠ .unused ∧ (1 : Fin 4).val ≠ (work.span 0).device ∧ 1 < ((work.modSpan 0 fun p => { p with devices := 2 }).span 0).devices) := by
  decide +kernel

theorem hyps_Activation :
    (up.modBoot fun b => { b with update := .scheduled }).boot.update = .scheduled ∧
    (let s := up.modBoot fun b => { b with update := .activating }
     s.boot.inHand = none ∧ s.boot.update = .activating ∧ s.nextField = some 0) ∧
    (let s := work.modBoot fun b => { b with update := .activating, inHand := some 0 }
     s.boot.inHand ≠ none ∧ s.boot.inHand = some 0 ∧ s.memberOf 0 = some 0 ∧ (s.span 0).state = .running) ∧
    (let s := (up.modBoot fun b => { b with update := .activating, inHand := some 0 }).modField 0 fun x => { x with restarting := true }
     (s.field 0).restarting = true ∧ s.boot.inHand = some 0 ∧ s.boot.update = .activating) ∧
    (let s := (up.modBoot fun b => { b with update := .rollingBack, inHand := some 0 }).modField 0 fun x => { x with restarting := true, saved := .ready }
     (s.field 0).restarting = true ∧ s.boot.inHand = some 0 ∧ s.boot.update = .rollingBack ∧ s.spanOf 0 = none ∧ s.memberOf 0 = none ∧
     (s.field 0).saved = .ready) ∧
    (let s := (up.modBoot fun b => { b with update := .swapping }).modCtl fun c => { c with standby := false }
     s.boot.update = .swapping ∧ s.control.standby = false) ∧
    (let s := up.modBoot fun b => { b with update := .swapping }
     s.control.standby = true ∧ s.boot.onNew (!s.control.activeB) = false ∧ s.boot.onNew s.control.activeB = false) := by decide +kernel

/-! #### Towers, ports and JTAG -/

theorem hyps_TowerAccesses : (served.channel 3).state = .online ∧
    (let s0 := served.modChannel 3 fun x => { x with aged := false }
     (s0.channel 3).bad.contains 9 = false ∧ s0.decoded 3 [] ≠ .lost) ∧ (up.channel 3).state ≠ .online ∧
    up.boot.powered = true ∧ (89999#32).toInt < 90000 := by decide +kernel

theorem hyps_GranuleStores : served.wf = true ∧ served.mirrorOf 3 (64 * 9) = none := by decide +kernel

theorem hyps_TowerChannels :
    let at' (c : Channel) (step : Nat) : State := (served.modChannel 3 fun _ => c).modBoot fun b => { b with step := step }
    (served.channel 3).state = .online ∧ (served.channel 3).replays + 1 < 4 ∧ 4 ≤ ((served.modChannel 3 fun c => { c with replays := 3 }).channel 3).replays + 1 ∧
    ([1, 3].all fun n =>
      let s := at' { Channel.reset with state := .retraining, tries := n } 10
      (s.channel 3).state == .retraining && (s.channel 3).tries == n) = true ∧
    ([8, 9].all fun n =>
      let s := at' { Channel.reset with state := .training } n
      (s.channel 3).state == .training && s.boot.step == n) = true ∧
    (up.channel 3).state ≠ .online ∧ (up.channel 3).state ≠ .retraining ∧ (up.channel 3).state ≠ .training ∧
    ((served.modTower 3 fun t => { t with result := 3 }).tower 3).result = 3 ∧ (served.tower 3).result ≠ 3 ∧
    (let s := { served with sets := List.replicate 16 ⟨.degraded, []⟩ }
     (s.set 0).state = .degraded ∧ (s.setDesc 0).mirror = false) ∧ (served.set 0).state ≠ .degraded ∧
    (let s := ({ served with sets := List.replicate 16 ⟨.degraded, []⟩ } : State).setReg regSetDesc 1 (2 * 256 ^ 21)
     (s.set 1).state = .degraded ∧ (s.setDesc 1).mirror = true) := by decide +kernel

theorem hyps_Spanlinks :
    let at' (x : PortState) (n : Nat) : State := up.modLink 0 fun p => { p with state := x, replays := n }
    let s := (at' .up 0).modSpan 0 fun _ => { workSpan with devices := 2 }
    let t (k : Pkt) : State := s.hauled k 1
    ((at' .training 0).link 0).state = .training ∧ ((at' .retraining 0).link 0).state = .retraining ∧ ((at' .up 0).link 0).state = .up ∧
    ((at' .up 0).link 0).replays < 3 ∧ 3 ≤ ((at' .up 3).link 0).replays ∧ (up.link 0).state ≠ .up ∧ (s.link 0).state = .up ∧
    s.delivers somePkt = true ∧ s.delivers moverPkt = true ∧ ([tyReport, tyAck, tyRead].all fun ty => s.flitCount ty == 1) = true ∧
    s.crosses tyReport somePkt = true ∧ s.crosses tyRead somePkt = false ∧ (t somePkt).crosses tyRead somePkt = false ∧
    ((t somePkt).crosses tyAck somePkt = true ∧ isResponse tyAck = true) ∧
    ((t moverPkt).crosses tyReport moverPkt = true ∧ (t moverPkt).granted (targetLink 0) moverPkt.master.toNat moverPkt.span.toNat .w [] = true) ∧
    ((t somePkt).crosses tyReport somePkt = true ∧ isResponse tyReport = false ∧
      (t somePkt).granted (targetLink 0) somePkt.master.toNat somePkt.span.toNat .w [] = false) := by decide +kernel

/-- The module with its Ethernet ports UP and the host's address admitted at span 0, which is READY. -/
def online : State :=
  ((up.modPorts fun p => { p with eth := List.replicate 8 ⟨.up, []⟩ }).modSpan 0 fun _ => { workSpan with state := .ready, step := none }).setReg regAdmit 0
    (ofLe (zeros 15 ++ [9] ++ [128] ++ zeros 63))
/-- A START of span 0 with no tokens. -/
def startPayload : List Byte := leBytes 2 0x5251 ++ [1, 1, 0, 0] ++ leBytes 2 0 ++ leBytes 4 7 ++ zeros 20

theorem hyps_PortEvents :
    let d : Datagram := ⟨1, 9, 9, startPayload⟩
    ((up.modEth 0 fun x => { x with state := .training }).eth 0).state = .training ∧ online.ethUp 0 = true ∧
    (up.setReg regT1sLink 0 1).reg regT1sLink 0 ≠ 0 ∧ (up.setReg regT1sEnable 0 1).reg regT1sEnable 0 = 1 ∧ up.reachable 0 = true ∧ up.reachable 29 = true ∧
    online.ethUp d.port = true ∧ leAt d.payload 4 1 < 8 ∧ online.admitted 0 d.srcAddr.toNat = true ∧ requestBad d.payload = false ∧
    (online.span 0).state = .ready ∧ 1 + (leAt d.payload 6 2 - 224 + 255) / 256 ≤ (online.span 0).queueFree ∧ requestBad (zeros 32) = true := by
  decide +kernel

/-- Stream 5 of Ethernet port 1: received and sent, type 96, SSRC 9. -/
def stream5 : State :=
  let x := Stream.fresh 5 ([1, 3, 0, 96, 1, 0, 0, 0] ++ zeros 32 ++ leBytes 4 9 ++ zeros 20) 0
  { online with ports := { online.ports with streams := [x], silentTime := some 0 } }

theorem hyps_MediaEvents :
    up.stream 5 = none ∧ (stream5.stream 5).isSome = true ∧
    (stream5.stream 5).any (fun x => stream5.ethUp (leAt x.desc 4 1) && (leAt x.desc 1 1).testBit 0 && leAt x.desc 3 1 == 96 && leAt x.desc 40 4 == 9 &&
      !x.silent) = true ∧ stream5.ports.silentTime = some 0 ∧ stream5.now < 0 + 1000000000 ∧
    ((stream5.modStream 5 fun x => { x with silent := true }).stream 5).any (·.silent) = true ∧ leAt (up.groupDesc 0) 0 1 = 0 ∧
    (let s := up.setReg regGroupDesc 0 1
     leAt (s.groupDesc 0) 0 1 ≠ 0 ∧ s.groupStreams 0 = [] ∧ leAt (s.groupDesc 0) 8 8 = 0) ∧
    (let s := stream5.setReg regGroupDesc 0 (1 + 2 ^ 128)
     leAt (s.groupDesc 0) 0 1 ≠ 0 ∧ leAt (s.groupDesc 0) 16 8 ≠ 0 ∧ ((s.groupStreams 0).filter fun x => (leAt x.desc 1 1).testBit 1).length = 1) := by
  decide +kernel

theorem hyps_JtagInstructions : (State.reset.setReg regJtagDiag 0 1).reg regJtagDiag 0 = 1 ∧
    (∀ k : SpanId, ((State.reset.setReg regJtagDiag 0 1).span k).state = .unused) ∧ State.reset.reg regJtagDiag 0 ≠ 1 := by decide +kernel

/-! #### The queue and the whole machine -/

theorem hyps_StepRunsCommand : ({ up with pending := [.powerGood] } : State).pending = [.powerGood] ∧ up.pending = [] ∧
    (State.reset.clocks.running = false) ∧ up.clocks.running = true ∧ up.clocks.slew = 0 := by decide +kernel

theorem hyps_StepKeepsInvariant : up.wf = true ∧ (match step up with
    | .next t => decide (t.clocks.time = 10)
    | _ => false) = true := by decide +kernel

theorem hyps_UnitFrames :
    let w := moveWord 2 hdr 0 0 0 row0
    (Instr.moveFill hdr 0 row0).issued = some (hdr, w, some .turn) ∧ (placing w work).issues hdr w (some .turn) = true ∧
    ((placing w work).field 0).seq.state ≠ .prologue := by decide +kernel

theorem hyps_AbsentSets :
    let s := served.setReg regSetDesc 0 0
    s.delivers somePkt = true ∧ addrRegion 0x10000 = 0 ∧ (List.range 64).all (fun i => (s.setOf (0x10000 + i)).isNone) = true ∧
    (List.range 64).all (fun i => (s.setOf (0x10000 / 64 * 64 + i)).isNone) = true := by decide +kernel

/-! ### Worked examples of the spec -/

/-- The example after R254: address 0x0000_1234_5678 of the default set lies at position 69, row 388, channel 69 of field 4, local address 0x18_4678. -/
theorem test_address_map : (up.setDesc 0).posRow 0x12345678 = (69, 388) ∧ (up.setDesc 0).atPos 69 388 0x12345678 = (69, 0x184678) ∧
    channelField 69 = 4 := by decide +kernel

/-- The example of the two piers after R381, with r = 1,000. -/
theorem test_digest : digestSum 1000 1000 [20, digestP - 7] = 2305843009206713951 ∧ digestSum 1000 1000 [digestP - 840, 12] = 11160000 ∧
    residue ⟨320, -4, false, false, false⟩ = 20 := by decide +kernel

/-- The column of the example in number formats, split over two piers and joined, then drained to BF16 and FP8 E4M3 with scale 2^−4. -/
theorem test_split_column :
    combine ⟨20 * 2 ^ 64, -69, false, false, false⟩ ⟨-840 * 2 ^ 64, -73, false, false, false⟩ = (⟨-520 * 2 ^ 60, -69, false, false, false⟩, false) ∧
    drainCode 5 0 (exactOf ⟨-520 * 2 ^ 60, -69, false, false, false⟩ [0x3D80]) = (0xBD82, false) ∧
    drainCode 3 0 (exactOf ⟨-520 * 2 ^ 60, -69, false, false, false⟩ [0x3D80]) = (0x98, false) := by decide +kernel

/-- The first interval of the example after R471: e = 1.2/9 of the cap, so b = 2/15. -/
theorem test_bubble : nextBubble (0, 1) 100 10200000 9000 = (2, 15) := by decide +kernel

/-- The example of span 2: channel 5 of the mover block in field 13 is master 0x26A. -/
theorem test_mover_master : moverMaster 13 5 = 0x26A := by decide +kernel

/-- The example of the pier of field 12: its I_w at OP5 is 16.0 A. -/
theorem test_wake_current : (up.modPower 12 fun p => { p with phasePoint := 5 }).wakeCurrent 12 = 230 * 750 * 1000 := by decide +kernel

/-- Check value of the CRC-32 of IEEE 802.3 (R166): the digits 1 to 9. -/
theorem test_crc : crc32 ((List.range 9).map fun i => BitVec.ofNat 8 (49 + i)) = 0xCBF43926 := by decide +kernel

/-! ### Single steps -/

/-- The state that a step leads to. -/
def after (s : State) : State := match step s with
  | .next t => t
  | _ => s
def doing (c : Instr) (s : State) : State := after { s with pending := [c] }

/-- R482: power-good starts bring-up and counts a power cycle. -/
theorem test_power_good : (doing .powerGood State.reset).boot.step = 1 ∧ (doing .powerGood State.reset).reg regPowerCycles 0 = 1 := by decide +kernel

/-- R189: STEP.ADD of −1 to an index register at 0 wraps at 64 bits; register 0 keeps its value. -/
theorem test_step_add_wraps :
    ((doing (.stepAdd hdr 3 (-1)) (placing (addWord hdr 3 (-1)) work)).field 0).seq.reg 3 = 2 ^ 64 - 1 ∧
    ((doing (.stepAdd hdr 0 5) (placing (addWord hdr 0 5) work)).field 0).seq.reg 0 = 0 := by decide +kernel

/-- R283: FETCH_ADD answers the old value and leaves the sum. -/
theorem test_fetch_add :
    let p := { somePkt with master := 0x500 }
    let s := doing (.atomic p 0x10000 .fetchAdd 5 0) (doing (.smallWrite p 0x10000 (leBytes 8 37)) served)
    s.peek 0x10000 8 = some (leBytes 8 42) := by decide +kernel

/-- R138: a narrow write of a row stores its bytes at the offset and no others. -/
theorem test_narrow_write :
    let s := doing (.bankAccess 2 7 9 .unit (.narrow 510 [1, 2]) .clean) work
    s.row 2 (pierAddr 7 9) = zeros 510 ++ [1, 2] := by decide +kernel

/-- R40: an abort keeps the committed step. -/
theorem test_commit_timeout :
    let s := doing (.commitTimeout 0) (work.modSpan 0 fun p => { p with step := some .closing })
    (s.span 0).step = some .aborting ∧ (s.span 0).committed = 0 ∧ s.reg regLastAbortCause 0 = 0x80 := by decide +kernel

end Sys2Proof.Tests
end

section
/-! Packets on their way and stale packets: what the mesh does with a damaged packet and with one of an old generation of routes, and what
each receiver does with a packet of another epoch (R34, R51, R285, R304). -/

namespace Sys2Proof.Machine

variable {s : State} {p : Pkt}

/-! ### What the mesh drops (R285, R304) -/

theorem State.carried_damaged {r : RouterId} (h : p.damage = some r) (ty n : Nat) (act : State → State) :
    s.carried ty n p act = s.dropDamaged p r := by
  simp [State.carried, h]

theorem State.carried_oldRoutes (h : p.damage = none) (k : p.gen ≠ s.mesh.routeGen) (ty n : Nat) (act : State → State) :
    s.carried ty n p act = s := by
  simp [State.carried, h, k]

/-! ### The journey of a packet changes no span and no epoch -/

/-- Counting flits writes objects of the dictionary only. -/
theorem State.span_foldl_flitsOut (outs : List (Nat × Nat)) (n x : Nat) (s : State) :
    (outs.foldl (fun t o => t.flitsOut o n) s).span x = s.span x := by
  induction outs generalizing s with
  | nil => rfl
  | cons o outs ih => exact ih (s.flitsOut o n)

@[simp] theorem State.span_hauled (n x : Nat) : (s.hauled p n).span x = s.span x := by
  unfold State.hauled
  split
  · exact State.span_foldl_flitsOut _ n x s
  · rfl

theorem State.stale_iff : s.stale p = true ↔ p.span.toNat < 8 ∧ p.epoch.toNat ≠ (s.span p.span.toNat).epoch := by
  simp [State.stale]

@[simp] theorem State.stale_hauled (n : Nat) : (s.hauled p n).stale p = s.stale p := by
  simp [State.stale]

/-- A stale packet that comes to a receiver which drops stale packets leaves the flits of its journey and one more drop of its span. -/
theorem State.carried_stale (hd : s.delivers p = true) (hs : s.stale p = true) (ty n : Nat) {act : State → State}
    (drops : ∀ t : State, t.stale p = true → act t = t.dropStale p) : s.carried ty n p act = (s.hauled p n).dropStale p := by
  rw [State.carried_delivers hd, drops _ (by rwa [State.stale_hauled])]

/-! ### Receivers that drop every stale packet (R51) -/

theorem State.windowWrite_stale (h : s.stale p = true) (stream : Bool) (f c offset : Nat) (g : State → Option State) :
    s.windowWrite p stream f c offset g = s.dropStale p := if_pos h

theorem State.mailboxWrite_stale (h : s.stale p = true) (stream : Bool) (f off : Nat) (l : List Byte) :
    s.mailboxWrite p stream f off l = s.dropStale p := if_pos h

theorem State.atControl_stale (h : s.stale p = true) (a n : Nat) (act : ControlArea → State) : s.atControl p a n act = s.dropStale p := if_pos h

/-! ### Targets by device address: the scratchpad windows and the control window (R15, R51) -/

theorem State.atTarget_stale {a : Nat} (ha : addrRegion a = 8) (h : s.stale p = true) (c : Instr) (right : Right) (n : Nat) (act : State → State) :
    s.atTarget c p right a n act = s.dropStale p := if_pos ⟨ha, h⟩

/-- Every row of a pier lies in the scratchpad windows. -/
theorem addrRegion_rowKey (f : FieldId) (r : BitVec 22) : addrRegion (rowKey f r.toNat) = 8 := by
  have := f.isLt
  have := r.isLt
  simp only [addrRegion, bits, rowKey, scratchKey, addrBank, addrRow]
  omega

/-- The granule of an address lies in the address's region. -/
theorem addrRegion_granule (a : Nat) : addrRegion (a / 64 * 64) = addrRegion a := by
  simp only [addrRegion, bits]
  omega

theorem State.rowsArrive_stale (h : s.stale p = true) (c : Instr) (f : FieldId) (r : BitVec 22) (l : List Byte) (act : State → State) :
    s.rowsArrive c p f r.toNat l act = s.dropStale p := State.atTarget_stale (addrRegion_rowKey f r) h ..

section
variable {addr : BitVec 48} (h : s.stale p = true) (ha : addrRegion addr.toNat = 8 ∨ addrRegion addr.toNat = 12)
include h ha

theorem atRead_stale (len : BitVec 17) : atRead p addr len s = s.dropStale p := by
  rcases ha with ha | ha
  · simp [atRead, ha, State.atTarget_stale ha h]
  · simp [atRead, ha, State.atControl_stale h]

theorem atAtomic_stale (op : AtomicOp) (a b : Word64) : atAtomic p addr op a b s = s.dropStale p := by
  rcases ha with ha | ha
  · simp [atAtomic, ha, State.atTarget_stale ha h]
  · simp [atAtomic, ha, State.atControl_stale h]

theorem State.writeRequest_stale (stream : Bool) (l : List Byte) : s.writeRequest p stream addr l = s.dropStale p := by
  rcases ha with ha | ha
  · simp [State.writeRequest, ha, State.atTarget_stale ha h]
  · simp [State.writeRequest, ha, State.controlWrite, State.atControl_stale h]

theorem atReadback_stale : atReadback p addr s = s.dropStale p := by
  rw [← addrRegion_granule] at ha
  rcases ha with ha | ha
  · simp [atReadback, ha, State.atTarget_stale ha h]
  · simp [atReadback, ha, State.atControl_stale h]

end

end Sys2Proof.Machine

/-! ### The statement -/

section
open Sys2Proof Sys2Proof.Machine

/-- Settles O28: the header of what a span sends holds its epoch; every receiver's first question is `State.stale`, which the journey leaves
as it was; and `State.carried` ends the way of a damaged packet and of one of an old generation of routes before any receiver acts. -/
theorem stalePackets : Obligations.StalePackets := by
  unfold Obligations.StalePackets
  intro s
  refine ⟨fun m ty k n a d st data => ?sent, fun p f hd hk he => ?stale, fun p r h => ?damaged, fun p h k => ?oldRoutes⟩
  case sent => simp [State.send, State.sendNth]
  case stale =>
    have hs : s.stale p = true := State.stale_iff.2 ⟨hk, he⟩
    have dropped {n : Nat} (ty : Nat) {act : State → State} (drops : ∀ t : State, t.stale p = true → act t = t.dropStale p) :
        Host.Outcome.next (φ := Fault) (ρ := Refusal) (s.carried ty n p act) = .next ((s.hauled p n).bump regStaleDrops p.span.toNat 1) :=
      congrArg _ (State.carried_stale hd hs ty n drops)
    refine ⟨fun kind c st w => ?report, fun d w => ?advance, ?abort, fun w => ?openMsg, ?slip, fun c l => ?collData, fun g q n => ?arrive,
      fun g q => ?release, fun c => ?signal, fun c r l => ?rows, fun g c r l => ?mcastData, fun l => ?readData, fun w => ?ack, fun c => ?nack,
      fun g => ⟨?mcastAck, ?creditReset⟩, fun c => ?go, fun c => ?stop, fun c => ?clear, fun c => ?armShadow, fun c b o l => ?registerSetWrite,
      fun o l => ?mailboxWrite, fun a ha => ⟨fun n => ?read, fun op x y => ?atomic, fun l => ?smallWrite, fun l => ?write, ?readback⟩⟩
    case report | advance | abort | openMsg | slip | collData | arrive | release | signal | readData | ack | nack | mcastAck | creditReset =>
      exact dropped _ fun t h => if_pos h
    case rows | mcastData => exact dropped _ fun t h => State.rowsArrive_stale h ..
    case go | stop | clear | armShadow | registerSetWrite => exact dropped _ fun t h => State.windowWrite_stale h ..
    case mailboxWrite => exact dropped _ fun t h => State.mailboxWrite_stale h ..
    case read => exact dropped _ fun t h => atRead_stale h ha n
    case atomic => exact dropped _ fun t h => atAtomic_stale h ha op x y
    case smallWrite => exact dropped _ fun t h => State.writeRequest_stale h ha false l
    case write => exact dropped _ fun t h => State.writeRequest_stale h ha true l
    case readback => exact dropped _ fun t h => atReadback_stale h ha
  case damaged =>
    have dropped (ty n : Nat) (act : State → State) :
        Host.Outcome.next (φ := Fault) (ρ := Refusal) (s.carried ty n p act) = .next (s.dropDamaged p r) :=
      congrArg _ (State.carried_damaged h ty n act)
    exact ⟨fun _ _ _ _ => dropped .., fun _ _ => dropped .., fun _ _ => dropped .., fun _ _ _ _ => dropped .., fun _ => dropped ..⟩
  case oldRoutes =>
    have ignored (ty n : Nat) (act : State → State) :
        Host.Outcome.next (φ := Fault) (ρ := Refusal) (s.carried ty n p act) = .next s :=
      congrArg _ (State.carried_oldRoutes h k ty n act)
    exact ⟨fun _ _ _ _ => ignored .., fun _ _ => ignored .., fun _ _ => ignored ..⟩

end
end

section
/-! Where the elements of ML4 and ML6 rows lie: what a little-endian byte string holds at a byte and at a bit field, and what `elemAt` reads
there (R110 to R113). -/

namespace Sys2Proof.Machine

/-! ### Bytes of a slice -/

theorem slice_slice {off len a n : Nat} (l : List Byte) (h : a + n ≤ len) : slice a n (slice off len l) = slice (off + a) n l := by
  simp [slice, List.drop_take, List.take_take, Nat.min_eq_left (show n ≤ len - a by omega)]

theorem leAt_slice {off len a n : Nat} (l : List Byte) (h : a + n ≤ len) : leAt (slice off len l) a n = leAt l (off + a) n :=
  congrArg ofLe (slice_slice l h)

/-- A string of one byte is read as that byte. -/
theorem leAt_one (l : List Byte) (i : Nat) : leAt l i 1 = (l.getD i 0).toNat := by
  rw [leAt, slice, List.take_one, List.head?_drop, List.getD_eq_getElem?_getD]
  cases l[i]? <;> simp [ofLe]

/-! ### Bit fields of a little-endian number (R12) -/

theorem ofLe_div_byte (j : Nat) (l : List Byte) : ofLe l / 2 ^ (8 * j) = ofLe (l.drop j) := by
  induction j generalizing l with
  | zero => simp
  | succ j ih =>
    cases l with
    | nil => simp [ofLe]
    | cons b l =>
      have tail : ofLe (b :: l) / 256 = ofLe l := by
        have := b.isLt
        simp only [ofLe]
        omega
      calc ofLe (b :: l) / 2 ^ (8 * (j + 1))
          = ofLe (b :: l) / 256 / 2 ^ (8 * j) := by rw [Nat.div_div_eq_div_mul, Nat.mul_succ, Nat.add_comm, Nat.pow_add]
        _ = ofLe (l.drop j) := by rw [tail, ih]

theorem ofLe_drop_mod_byte (j : Nat) (l : List Byte) : ofLe (l.drop j) % 2 ^ 8 = leAt l j 1 := by
  unfold leAt slice
  cases l.drop j with
  | nil => rfl
  | cons b r =>
    have := b.isLt
    simp only [ofLe, List.take_succ_cons, List.take_zero]
    omega

/-- A bit field depends on the bits below its end only. -/
theorem bits_mod {lo n m : Nat} (v : Nat) (h : lo + n ≤ m) : bits (v % 2 ^ m) lo n = bits v lo n := by
  unfold bits
  rw [← Nat.mod_mul_right_div_self, ← Nat.mod_mul_right_div_self, ← Nat.pow_add, Nat.mod_mod_of_dvd v (Nat.pow_dvd_pow 2 h)]

/-- A bit field that lies within byte `j` of a little-endian number is that field of the byte. -/
theorem bits_ofLe_byte {j lo n : Nat} (l : List Byte) (h : lo + n ≤ 8) : bits (ofLe l) (8 * j + lo) n = bits (leAt l j 1) lo n :=
  calc bits (ofLe l) (8 * j + lo) n
      = bits (ofLe (l.drop j)) lo n := by rw [bits, Nat.pow_add, ← Nat.div_div_eq_div_mul, ofLe_div_byte, bits]
    _ = bits (ofLe (l.drop j) % 2 ^ 8) lo n := (bits_mod _ h).symm
    _ = bits (leAt l j 1) lo n := by rw [ofLe_drop_mod_byte]

/-- Nibble `k` of a little-endian number is the low or the high nibble of byte k/2. -/
theorem bits_ofLe_nibble (k : Nat) (l : List Byte) : bits (ofLe l) (4 * k) 4 = bits (leAt l (k / 2) 1) (4 * (k % 2)) 4 := by
  rw [← bits_ofLe_byte l (show 4 * (k % 2) + 4 ≤ 8 by omega)]
  congr 1
  omega

theorem ofNat_bits (v lo n : Nat) : BitVec.ofNat n (bits v lo n) = BitVec.ofNat n (v / 2 ^ lo) := by
  apply BitVec.eq_of_toNat_eq
  simp [bits]

/-! ### Elements of block formats (R108, R110 to R113) -/

/-- The model's two's complement reading is that of a bit vector. -/
theorem signed_eq_toInt {w : Nat} (h : 0 < w) (v : Nat) : signed w v = (BitVec.ofNat w v).toInt := by
  have double : 2 ^ w = 2 * 2 ^ (w - 1) := (mul_pow_sub_one h.ne' 2).symm
  rw [signed, BitVec.toInt_eq_toNat_cond, BitVec.toNat_ofNat]
  exact if_congr (by omega) rfl rfl

theorem elemMl_bits {w : Nat} (h : 0 < w) (v lo s : Nat) :
    elemMl w (bits v lo w) s = if s = 255 then .num 0 0 else .num (BitVec.ofNat w (v / 2 ^ lo)).toInt (s - 127) := by
  rw [elemMl, signed_eq_toInt h, ofNat_bits]

/-- Element `k` of element row `r` under the first scale row, in ML4. -/
theorem elemAt_ml4 (l : List Byte) {r k : Nat} (hr : r < 16) (hk : k < 1024) :
    elemAt 0 l (1024 * r + k) =
      elemMl 4 (bits (leAt l (512 * (r + 1) + k / 2) 1) (4 * (k % 2)) 4) (leAt l (32 * r + k / 32) 1) := by
  have row : (1024 * r + k) / 1024 = r := by omega
  have place : (1024 * r + k) % 1024 = k := by omega
  simp [elemAt, perRow, row, place, Nat.div_eq_of_lt hr, Nat.mod_eq_of_lt hr]

/-- Element `k` of element row `r` under the first scale row, in ML6. -/
theorem elemAt_ml6 (l : List Byte) {r k : Nat} (hr : r < 16) (hk : k < 640) :
    elemAt 1 l (640 * r + k) =
      elemMl 6 (bits (leAt l (512 * (r + 1) + 4 * (k / 5)) 4) (6 * (k % 5)) 6) (leAt l (20 * r + k / 32) 1) := by
  have row : (640 * r + k) / 640 = r := by omega
  have place : (640 * r + k) % 640 = k := by omega
  simp [elemAt, perRow, row, place, Nat.div_eq_of_lt hr, Nat.mod_eq_of_lt hr]

end Sys2Proof.Machine

/-! ### The statement -/

section
open Sys2Proof Sys2Proof.Machine

/-- Settles O60: `elemAt` reads an element's bits from the byte or the word that holds them; a nibble of the whole row's little-endian value is
the nibble of its byte (`bits_ofLe_nibble`), and the words of the row are words of the stream (`leAt_slice`). -/
theorem elementRows : Obligations.ElementRows := by
  unfold Obligations.ElementRows
  intro l r row
  refine ⟨fun k => ?ml4, fun w k => ?ml6⟩
  case ml4 =>
    have nibble : bits (ofLe row) (4 * k) 4 = bits (leAt row (k / 2) 1) (4 * (k % 2)) 4 := bits_ofLe_nibble k row
    refine ⟨?reading, fun even => ?low⟩
    case reading =>
      have byte : leAt row (k / 2) 1 = leAt l (512 * (r + 1) + k / 2) 1 := leAt_slice l (by omega)
      rw [elemAt_ml4 l r.isLt k.isLt, ← byte, ← nibble, elemMl_bits (by decide), leAt_one]
    case low =>
      rw [← ofNat_bits, nibble, even, ofNat_bits, leAt_one, Nat.mul_zero, Nat.pow_zero, Nat.div_one]
  case ml6 =>
    have word : leAt row (4 * w) 4 = leAt l (512 * (r + 1) + 4 * w) 4 := leAt_slice l (by omega)
    have wordOf : (5 * w.val + k) / 5 = w := by omega
    have placeOf : (5 * w.val + k) % 5 = k := by omega
    dsimp only
    rw [elemAt_ml6 l r.isLt (show 5 * w.val + k < 640 by omega), wordOf, placeOf, ← word, elemMl_bits (by decide), leAt_one]

end
end

section
/-! Accesses to tower addresses of no VALID set: the journey of a packet leaves the set descriptors as they are, and a target refuses an access
whose first byte no VALID set has (R256). -/

namespace Sys2Proof.Machine

variable {s : State} {p : Pkt} {a n : Nat}

/-! ### The journey of a packet changes no set descriptor -/

/-- Objects of different subindex have different keys, whatever their entries. -/
theorem Obj.key_ne_of_sub_ne {o q : Obj} (ho : o.sub < 256) (hq : q.sub < 256) (h : q.sub ≠ o.sub) (i x : Nat) : q.key x 0 ≠ o.key i 0 := by
  simp only [Obj.key]
  omega

/-- Counting flits changes no object but those of the subindex of FLITS_OUT. -/
theorem State.reg_flitsOut {q : Obj} (hq : q.sub < 256) (h : q.sub ≠ regFlitsOut.sub) (o : Nat × Nat) (n x : Nat) (s : State) :
    (s.flitsOut o n).reg q x = s.reg q x :=
  State.reg_setReg_other _ _ _ _ _ _ (Obj.key_ne_of_sub_ne (by decide) hq h o.1 x)

theorem State.reg_hauled {q : Obj} (hq : q.sub < 256) (h : q.sub ≠ regFlitsOut.sub) (n x : Nat) : (s.hauled p n).reg q x = s.reg q x := by
  have counted (outs : List (Nat × Nat)) (t : State) : (outs.foldl (fun t o => t.flitsOut o n) t).reg q x = t.reg q x := by
    induction outs generalizing t with
    | nil => rfl
    | cons o outs ih => exact (ih (t.flitsOut o n)).trans (State.reg_flitsOut hq h o n x t)
  unfold State.hauled
  split
  · exact counted _ s
  · rfl

@[simp] theorem State.setDesc_hauled (n k : Nat) : (s.hauled p n).setDesc k = s.setDesc k := by
  have desc (k : Nat) : (s.hauled p n).reg regSetDesc k = s.reg regSetDesc k := State.reg_hauled (by decide) (by decide) n k
  have fuses : (s.hauled p n).reg regFuseMap 0 = s.reg regFuseMap 0 := State.reg_hauled (by decide) (by decide) n 0
  simp only [State.setDesc, State.setBytes, State.defaultSet, desc, fuses]

@[simp] theorem State.setOf_hauled (n a : Nat) : (s.hauled p n).setOf a = s.setOf a := by
  simp only [State.setOf, State.setDesc_hauled]

/-! ### An access that begins outside every VALID set -/

/-- The first granule part of an access begins at its address. -/
theorem partsOf_pos (hn : 0 < n) (a : Nat) : ∃ m rest, partsOf a n = (a, m) :: rest :=
  ⟨min n (64 - a % 64), _, by rw [partsOf, granuleParts, if_neg hn.ne']⟩

theorem State.granuleCode_absent (h : s.setOf a = none) (master span : Nat) (right : Right) (whole : Bool) :
    s.granuleCode master span right whole a = nackAbsent := by
  simp [State.granuleCode, h]

section
variable (ha : addrRegion a = 0) (hn : 0 < n) (h : s.setOf a = none)
include ha hn h

theorem State.accessCode_absent (master span : Nat) (right : Right) : s.accessCode master span right a n = nackAbsent := by
  obtain ⟨m, rest, parts⟩ := partsOf_pos hn a
  have first : firstCode ((partsOf a n).map fun p => s.granuleCode master span right (p.2 == 64) p.1) = nackAbsent := by
    simp [parts, State.granuleCode_absent h, firstCode, nackAbsent]
  simp [State.accessCode, ha, first]

theorem State.outsideSets_absent : s.outsideSets a n = true := by
  obtain ⟨m, rest, parts⟩ := partsOf_pos hn a
  simp [State.outsideSets, ha, parts, h]

/-- A refusal as ABSENT in the tower region records event 0x0813 and nothing else. -/
theorem State.refused_absent (master span : Nat) (right : Right) :
    s.refused master span right a n nackAbsent = s.supEvent 0x0813 [] := by
  simp [State.refused, State.noteRefusal, nackAbsent, nackAccess, nackUncorr, ha, State.noteOutside, State.outsideSets_absent ha hn h]

theorem State.atTarget_absent (c : Instr) (right : Right) (act : State → State) :
    s.atTarget c p right a n act = (s.supEvent 0x0813 []).answer p tyNack nackAbsent [] := by
  have performedNot : nackAbsent ≠ 0 := by decide
  simp [State.atTarget, ha, State.accessCode_absent ha hn h, performedNot, State.refused_absent ha hn h]

end

/-! ### The requests by device address (R283) -/

section
variable {addr : BitVec 48} (ha : addrRegion addr.toNat = 0)
include ha

theorem atRead_absent {len : BitVec 17} (hn : 0 < len.toNat) (h : s.setOf addr.toNat = none) :
    atRead p addr len s = (s.supEvent 0x0813 []).answer p tyNack nackAbsent [] := by
  simp only [atRead, ha, State.atTarget_absent ha hn h, OfNat.zero_ne_ofNat, if_false]

theorem State.writeRequest_absent (stream : Bool) {l : List Byte} (hn : 0 < l.length) (h : s.setOf addr.toNat = none) :
    s.writeRequest p stream addr l = (s.supEvent 0x0813 []).answer p tyNack nackAbsent [] := by
  simp only [State.writeRequest, ha, State.atTarget_absent ha hn h, OfNat.zero_ne_ofNat, if_false]

theorem atAtomic_absent (op : AtomicOp) (x y : Word64) (h : s.setOf addr.toNat = none) :
    atAtomic p addr op x y s = (s.supEvent 0x0813 []).answer p tyNack nackAbsent [] := by
  simp only [atAtomic, ha, State.atTarget_absent ha (by decide : 0 < 8) h, OfNat.zero_ne_ofNat, if_false]

/-- READBACK asks for the whole granule of its address. -/
theorem atReadback_absent (h : s.setOf (addr.toNat / 64 * 64) = none) :
    atReadback p addr s = (s.supEvent 0x0813 []).answer p tyNack nackAbsent [] := by
  rw [← addrRegion_granule] at ha
  simp only [atReadback, ha, State.atTarget_absent ha (by decide : 0 < 64) h, OfNat.zero_ne_ofNat, if_false]

end

end Sys2Proof.Machine

/-! ### The statement -/

section
open Sys2Proof Sys2Proof.Machine

/-- Settles O59: a delivered request acts on the state after its journey, which has the same set descriptors, and the first byte of the access,
which lies in no VALID set, decides: every request takes `State.atTarget` there, which refuses it as ABSENT (`State.atTarget_absent`). -/
theorem absentSets : Obligations.AbsentSets := by
  unfold Obligations.AbsentSets
  intro s p addr delivered
  dsimp only
  have first {n : Nat} (hn : 0 < n) {a : Nat} (outside : ∀ i < n, s.setOf (a + i) = none) (flits : Nat) : (s.hauled p flits).setOf a = none :=
    (State.setOf_hauled flits a).trans (outside 0 hn)
  have arrives (ty n : Nat) {act : State → State} {t : State} (acts : act (s.hauled p n) = t) :
      Host.Outcome.next (φ := Fault) (ρ := Refusal) (s.carried ty n p act) = .next t :=
    congrArg _ ((State.carried_delivers delivered ty n act).trans acts)
  refine ⟨fun len ⟨hn, ha, absent⟩ => ?read, fun l ⟨hn, ha, absent⟩ => ⟨?smallWrite, ?write⟩, fun op x y ⟨hn, ha, absent⟩ => ?atomic,
    fun ha absent => ?readback⟩
  case read => exact arrives _ _ (atRead_absent ha hn (first hn absent _))
  case smallWrite => exact arrives _ _ (State.writeRequest_absent ha false hn (first hn absent _))
  case write => exact arrives _ _ (State.writeRequest_absent ha true hn (first hn absent _))
  case atomic => exact arrives _ _ (atAtomic_absent ha op x y (first hn absent _))
  case readback => exact arrives _ _ (atReadback_absent ha (first (by decide) absent _))

end
end

section
/-! Every command and every step: what each of them keeps, from what the `Follows` lemmas say of each command's meaning (R9, R47, R423). -/

namespace Sys2Proof.Machine

/-- Every command, in any state, answers a next state that comes about by operations of the model. -/
theorem exec_follows (c : Instr) (s : State) : FollowsNext s (exec c s) := by
  have start := follows_refl s
  cases c with
  | pass h o => exact follows_execPass start h o
  | vecConvert h o => exact follows_execVecConvert start h o
  | vecAdd h o => exact follows_execVecAdd start h o
  | vecMul h o => exact follows_execVecMul start h o
  | vecRmsnorm h o => exact follows_execVecRmsnorm start h o
  | vecAddnorm h o => exact follows_execVecAddnorm start h o
  | vecLayernorm h o => exact follows_execVecLayernorm start h o
  | vecSoftmax h o => exact follows_execVecSoftmax start h o
  | vecSwiglu h o => exact follows_execVecSwiglu start h o
  | vecGelu h o => exact follows_execVecGelu start h o
  | vecRotary h o => exact follows_execVecRotary start h o
  | vecTreemask h o => exact follows_execVecTreemask start h o
  | vecTopk h o => exact follows_execVecTopk start h o
  | vecSample h o => exact follows_execVecSample start h o
  | vecGather h o => exact follows_execVecGather start h o
  | vecNotify h o sampled => exact follows_execVecNotify start h o sampled
  | moveCopy h count src dst => exact follows_execMoveCopy start h count src dst
  | moveTurn h count esize src dst faults => exact follows_execMoveTurn start h count esize src dst faults
  | moveFill h count dst => exact follows_execMoveFill start h count dst
  | fetchLinear h ra t dst => exact follows_execFetchLinear start h ra t dst
  | fetchList h ra count list dst => exact follows_execFetchList start h ra count list dst
  | sendRows h o => exact follows_execSendRows start h o
  | sendSignal h target chan => exact follows_execSendSignal start h target chan
  | sendStore h t src => exact follows_execSendStore start h t src
  | sendMcast h o => exact follows_execSendMcast start h o
  | recvRows h chan count => exact follows_execRecvRows start h chan count
  | recvSignal h chan count => exact follows_execRecvSignal start h chan count
  | collReduce h o => exact follows_execCollReduce start h o
  | collAllreduce h o => exact follows_execCollAllreduce start h o
  | collAllgather h o => exact follows_execCollAllgather start h o
  | collBroadcast h o => exact follows_execCollBroadcast start h o
  | syncSpan h => exact follows_execSyncSpan start h
  | syncGroup h group => exact follows_execSyncGroup start h group
  | syncLocal h => exact follows_execSyncLocal start h
  | checkWait h => exact follows_execCheckWait start h
  | checkForce h => exact follows_execCheckForce start h
  | checkWindow h ireg => exact follows_execCheckWindow start h ireg
  | phase h code => exact follows_execPhase start h code
  | commit h outTail reqHead more => exact follows_execCommit start h outTail reqHead more
  | stepNext h => exact follows_execStepNext start h
  | stepBase h ireg modulus base stride => exact follows_execStepBase start h ireg modulus base stride
  | stepAdd h ireg imm => exact follows_execStepAdd start h ireg imm
  | stepLoop h lc iter => exact follows_execStepLoop start h lc iter
  | stepEndloop h lc target => exact follows_execStepEndloop start h lc target
  | stepJump h target => exact follows_execStepJump start h target
  | stepLdx h ireg src word => exact follows_execStepLdx start h ireg src word
  | unitCompletion f done => exact follows_execUnitCompletion start f done
  | progmemScrub f found => exact follows_execProgmemScrub start f found
  | progmemRewriteDone f => exact follows_execProgmemRewriteDone start f
  | programLoad f image => exact follows_execProgramLoad start f image
  | checksumVerdict f pass faults => exact follows_execChecksumVerdict start f pass faults
  | vectorVerdict f q faults => exact follows_execVectorVerdict start f q faults
  | readyReport f => exact follows_execReadyReport start f
  | keystoneReadbackDone sp => exact follows_execKeystoneReadbackDone start sp
  | commitTimeout sp => exact follows_execCommitTimeout start sp
  | pierCommitTimeout f => exact follows_execPierCommitTimeout start f
  | abortDone f => exact follows_execAbortDone start f
  | epochWaitEnd sp => exact follows_execEpochWaitEnd start sp
  | spanDrained sp => exact follows_execSpanDrained start sp
  | weightLoadDone sp result => exact follows_execWeightLoadDone start sp result
  | requestArrival sp => exact follows_execRequestArrival start sp
  | spinThresholdExpiry f => exact follows_execSpinThresholdExpiry start f
  | spinRampEnd f => exact follows_execSpinRampEnd start f
  | preRampDone f => exact follows_execPreRampDone start f
  | bankAccess f b row m op ecc => exact follows_execBankAccess start f b row m op ecc
  | accessAged f b => exact follows_execAccessAged start f b
  | scrubRead f b ecc => exact follows_execScrubRead start f b ecc
  | retainScrubDue f b => exact follows_execRetainScrubDue start f b
  | rowRepair f b row rowGood => exact follows_execRowRepair start f b row rowGood
  | bankDrained f b => exact follows_execBankDrained start f b
  | bankWakeDone f b => exact follows_execBankWakeDone start f b
  | read p addr len => exact follows_execRead start p addr len
  | atomic p addr op a b => exact follows_execAtomic start p addr op a b
  | smallWrite p addr bytes => exact follows_execSmallWrite start p addr bytes
  | signal p f chan => exact follows_execSignal start p f chan
  | arrive p group seq count => exact follows_execArrive start p group seq count
  | report p kind count status window => exact follows_execReport start p kind count status window
  | release p f group seq => exact follows_execRelease start p f group seq
  | advance p dest windowStart => exact follows_execAdvance start p dest windowStart
  | abort p f => exact follows_execAbort start p f
  | openMsg p f windowStart => exact follows_execOpenMsg start p f windowStart
  | slip p f => exact follows_execSlip start p f
  | creditReset p group target => exact follows_execCreditReset start p group target
  | readData p bytes => exact follows_execReadData start p bytes
  | ack p old => exact follows_execAck start p old
  | nack p code => exact follows_execNack start p code
  | mcastAck p group target => exact follows_execMcastAck start p group target
  | write p addr bytes => exact follows_execWrite start p addr bytes
  | rows p f chan rdst bytes => exact follows_execRows start p f chan rdst bytes
  | readback p addr => exact follows_execReadback start p addr
  | mcastData p f group chan rdst bytes => exact follows_execMcastData start p f group chan rdst bytes
  | collData p f c bytes => exact follows_execCollData start p f c bytes
  | eventNotice src => exact follows_execEventNotice start src
  | pairingNotice dst src step => exact follows_execPairingNotice start dst src step
  | proposalTimeout sp => exact follows_execProposalTimeout start sp
  | linkReplay r d wires failed => exact follows_execLinkReplay start r d wires failed
  | linkRepairDone r d ok => exact follows_execLinkRepairDone start r d ok
  | responseTimeout p => exact follows_execResponseTimeout start p
  | mcastTargetTimeout sp group target => exact follows_execMcastTargetTimeout start sp group target
  | timetableLoad sp => exact follows_execTimetableLoad start sp
  | timetableWindowStart sp => exact follows_execTimetableWindowStart start sp
  | timetableSlot f ready => exact follows_execTimetableSlot start f ready
  | timetableWindowEnd sp => exact follows_execTimetableWindowEnd start sp
  | go p f ch => exact follows_execGo start p f ch
  | armShadow p f ch => exact follows_execArmShadow start p f ch
  | stop p f ch => exact follows_execStop start p f ch
  | clear p f ch => exact follows_execClear start p f ch
  | registerSetWrite p f ch shadow offset bytes => exact follows_execRegisterSetWrite start p f ch shadow offset bytes
  | moverTimer f ch => exact follows_execMoverTimer start f ch
  | moverResume f ch => exact follows_execMoverResume start f ch
  | moverLastWrite f ch => exact follows_execMoverLastWrite start f ch
  | moverComplete f ch => exact follows_execMoverComplete start f ch
  | moverStopped f ch => exact follows_execMoverStopped start f ch
  | mailboxWrite p f offset bytes => exact follows_execMailboxWrite start p f offset bytes
  | supervisorSwap r value => exact follows_execSupervisorSwap start r value
  | create r sp => exact follows_execCreate start r sp
  | spanReset r sp => exact follows_execSpanReset start r sp
  | spanDelete r sp => exact follows_execSpanDelete start r sp
  | pause r sp value => exact follows_execPause start r sp value
  | stepVariant r sp value => exact follows_execStepVariant start r sp value
  | coreSpan r f value => exact follows_execCoreSpan start r f value
  | accessEntry r target e value => exact follows_execAccessEntry start r target e value
  | setDesc r k value => exact follows_execSetDesc start r k value
  | checkProfile r sp value => exact follows_execCheckProfile start r sp value
  | predReset r sp value => exact follows_execPredReset start r sp value
  | spinEnable r f value => exact follows_execSpinEnable start r f value
  | bankPower r f value => exact follows_execBankPower start r f value
  | retireUnit r value => exact follows_execRetireUnit start r value
  | digestPassEnd f => exact follows_execDigestPassEnd start f
  | weightRewriteDone f b result => exact follows_execWeightRewriteDone start f b result
  | segmentStart f unit pattern => exact follows_execSegmentStart start f unit pattern
  | segmentEnd f passed charged => exact follows_execSegmentEnd start f passed charged
  | coverageOverdue f => exact follows_execCoverageOverdue start f
  | diagnosticTestDone unit found => exact follows_execDiagnosticTestDone start unit found
  | probeTimeout f => exact follows_execProbeTimeout start f
  | spareReloadDone sp result => exact follows_execSpareReloadDone start sp result
  | planReloadDone sp result => exact follows_execPlanReloadDone start sp result
  | windowRead r => exact follows_execWindowRead start r
  | historyClear r value => exact follows_execHistoryClear start r value
  | refCopyBad c => exact follows_execRefCopyBad start c
  | refCopyGood c => exact follows_execRefCopyGood start c
  | drawbridgeStart f => exact follows_execDrawbridgeStart start f
  | drawbridgeEnd f ns => exact follows_execDrawbridgeEnd start f ns
  | pllLockTimeout f => exact follows_execPllLockTimeout start f
  | droopDetect f => exact follows_execDroopDetect start f
  | stretchEnd f periods overQuarter => exact follows_execStretchEnd start f periods overQuarter
  | beacon f error => exact follows_execBeacon start f error
  | beaconNotice f value => exact follows_execBeaconNotice start f value
  | ptpSync offset => exact follows_execPtpSync start offset
  | ptpDelayResponse delay => exact follows_execPtpDelayResponse start delay
  | ptpAnnounce identity => exact follows_execPtpAnnounce start identity
  | inputUndervoltage millivolts => exact follows_execInputUndervoltage start millivolts
  | inputOvervoltage millivolts => exact follows_execInputOvervoltage start millivolts
  | regCellTrip f cell => exact follows_execRegCellTrip start f cell
  | regCellRestart f cell => exact follows_execRegCellRestart start f cell
  | contactCheck f g departure => exact follows_execContactCheck start f g departure
  | contactCalibration models => exact follows_execContactCalibration start models
  | vminSample f rail millivolts => exact follows_execVminSample start f rail millivolts
  | vminClear r f value => exact follows_execVminClear start r f value
  | ageingCheck f mhz => exact follows_execAgeingCheck start f mhz
  | voltageSlewDone f => exact follows_execVoltageSlewDone start f
  | phaseHoldExpiry f => exact follows_execPhaseHoldExpiry start f
  | guardBand r value => exact follows_execGuardBand start r value
  | powerCap r value => exact follows_execPowerCap start r value
  | capControlInterval milliwatts pierMilliamps => exact follows_execCapControlInterval start milliwatts pierMilliamps
  | pierPowerRequest r f value => exact follows_execPierPowerRequest start r f value
  | admissionCheck f zoneMilliamps => exact follows_execAdmissionCheck start f zoneMilliamps
  | admissionTimeout f => exact follows_execAdmissionTimeout start f
  | pierStageDone f => exact follows_execPierStageDone start f
  | junctionSample f millidegrees => exact follows_execJunctionSample start f millidegrees
  | thermalRelease f => exact follows_execThermalRelease start f
  | heatKeystoneTimeout sp => exact follows_execHeatKeystoneTimeout start sp
  | heatSwapExpiry f => exact follows_execHeatSwapExpiry start f
  | fieldHeatRelease f => exact follows_execFieldHeatRelease start f
  | fieldUp f => exact follows_execFieldUp start f
  | fieldWakeTimeout f => exact follows_execFieldWakeTimeout start f
  | bringupStepDone report => exact follows_execBringupStepDone start report
  | spanlinkRetry p => exact follows_execSpanlinkRetry start p
  | stageOpen r => exact follows_execStageOpen start r
  | stageVerify r => exact follows_execStageVerify start r
  | stageAbort r => exact follows_execStageAbort start r
  | stageChunk r value => exact follows_execStageChunk start r value
  | stagingWindowWrite offset bytes => exact follows_execStagingWindowWrite start offset bytes
  | activateTime r value => exact follows_execActivateTime start r value
  | fieldRestart f => exact follows_execFieldRestart start f
  | fieldRestartDone f => exact follows_execFieldRestartDone start f
  | fieldRestartTimeout f => exact follows_execFieldRestartTimeout start f
  | attestNonce r value => exact follows_execAttestNonce start r value
  | linkSavedClear r value => exact follows_execLinkSavedClear start r value
  | dictRead r index sub offset length => exact follows_execDictRead start r index sub offset length
  | dictWrite r index sub value => exact follows_execDictWrite start r index sub value
  | txBegin r => exact follows_execTxBegin start r
  | txCommit r => exact follows_execTxCommit start r
  | txAbort r => exact follows_execTxAbort start r
  | summary r length => exact follows_execSummary start r length
  | describe r index sub => exact follows_execDescribe start r index sub
  | nop r => exact follows_execNop start r
  | hello port slot clientNonce deviceNonce => exact follows_execHello start port slot clientNonce deviceNonce
  | auth session tag => exact follows_execAuth start session tag
  | close session => exact follows_execClose start session
  | txTimeout master => exact follows_execTxTimeout start master
  | sessionIdleTimeout session => exact follows_execSessionIdleTimeout start session
  | keySlotUnlock slot => exact follows_execKeySlotUnlock start slot
  | frozenCopyExpiry master => exact follows_execFrozenCopyExpiry start master
  | mgmtKey r slot value => exact follows_execMgmtKey start r slot value
  | submit slot master request => exact follows_execSubmit start slot master request
  | irqStatusClear mask => exact follows_execIrqStatusClear start mask
  | ethMode r e value => exact follows_execEthMode start r e value
  | ethLinkUp e => exact follows_execEthLinkUp start e
  | ethLinkDown e retiredLane => exact follows_execEthLinkDown start e retiredLane
  | start d => exact follows_execStart start d
  | append d => exact follows_execAppend start d
  | endSeq d => exact follows_execEndSeq start d
  | cancel d => exact follows_execCancel start d
  | rtpPacket st p => exact follows_execRtpPacket start st p
  | rtcpPacket st roundTrip => exact follows_execRtcpPacket start st roundTrip
  | rtcpIntervalTimer engine => exact follows_execRtcpIntervalTimer start engine
  | streamTimeout st => exact follows_execStreamTimeout start st
  | mediaTick g => exact follows_execMediaTick start g
  | txSendPoint g => exact follows_execTxSendPoint start g
  | streamDesc r value => exact follows_execStreamDesc start r value
  | groupDesc r g value => exact follows_execGroupDesc start r g value
  | spanlinkTrainingDone p answered goodLanes serial peerPort crossNs => exact follows_execSpanlinkTrainingDone start p answered goodLanes serial peerPort crossNs
  | spanlinkFlitReplay p failed => exact follows_execSpanlinkFlitReplay start p failed
  | spanlinkFault p => exact follows_execSpanlinkFault start p
  | spanlinkRetrainTimeout p => exact follows_execSpanlinkRetrainTimeout start p
  | spanlinkPacket p inbound type k addr => exact follows_execSpanlinkPacket start p inbound type k addr
  | towerAccess c granule op errs => exact follows_execTowerAccess start c granule op errs
  | towerAccessAged c => exact follows_execTowerAccessAged start c
  | edcReplay c failed => exact follows_execEdcReplay start c failed
  | patrolScrub c errs => exact follows_execPatrolScrub start c errs
  | channelTrainingDone c passed => exact follows_execChannelTrainingDone start c passed
  | towerTestDone t passed => exact follows_execTowerTestDone start t passed
  | retrainDone c micros => exact follows_execRetrainDone start c micros
  | retrainTryTimeout c => exact follows_execRetrainTryTimeout start c
  | remapFill k => exact follows_execRemapFill start k
  | reserveRefill k => exact follows_execReserveRefill start k
  | coolantSample inlet outlet flow => exact follows_execCoolantSample start inlet outlet flow
  | samplePreload preload => exact follows_execSamplePreload start preload
  | diag request => exact follows_execDiag start request
  | towerDieTemperatureSample t millidegrees => exact follows_execTowerDieTemperatureSample start t millidegrees
  | admissionRecheck f zoneMilliamps => exact follows_execAdmissionRecheck start f zoneMilliamps
  | frameReceived port kind => exact follows_execFrameReceived start port kind
  | t1sLinkChange p up plca => exact follows_execT1sLinkChange start p up plca
  | pcieLinkTrained rate width => exact follows_execPcieLinkTrained start rate width
  | spanlinkPeerNotice p retired => exact follows_execSpanlinkPeerNotice start p retired
  | restartKeystoneTimeout sp => exact follows_execRestartKeystoneTimeout start sp
  | supervisorControlPacket sp device c => exact follows_execSupervisorControlPacket start sp device c
  | bridgedTakeoverTimeout sp device => exact follows_execBridgedTakeoverTimeout start sp device
  | routeHoldEnd => exact follows_execRouteHoldEnd start
  | heartbeat => exact follows_execHeartbeat start
  | heartbeatTimeout => exact follows_execHeartbeatTimeout start
  | flashPageWrite => exact follows_execFlashPageWrite start
  | pageBucketRefill => exact follows_execPageBucketRefill start
  | refRevert => exact follows_execRefRevert start
  | ptpAnnounceTimeout => exact follows_execPtpAnnounceTimeout start
  | undervoltageRelease => exact follows_execUndervoltageRelease start
  | powerLoss => exact follows_execPowerLoss start
  | alertAssert => exact follows_execAlertAssert start
  | alertRelease => exact follows_execAlertRelease start
  | alertHoldExpiry => exact follows_execAlertHoldExpiry start
  | persistCounts => exact follows_execPersistCounts start
  | powerGood => exact follows_execPowerGood start
  | activationStart => exact follows_execActivationStart start
  | attestTokenRefill => exact follows_execAttestTokenRefill start
  | summaryCmd => exact follows_execSummaryCmd start
  | pcieFunctionReset => exact follows_execPcieFunctionReset start
  | modResetN => exact follows_execModResetN start
  | leakDetect => exact follows_execLeakDetect start
  | bypass => exact follows_execBypass start
  | idcode => exact follows_execIdcode start
  | extest => exact follows_execExtest start
  | clamp => exact follows_execClamp start
  | supervisorRestartDone => exact follows_execSupervisorRestartDone start
  | supervisorStartTimeout => exact follows_execSupervisorStartTimeout start
  | reservedPacketType => exact follows_execReservedPacketType start

theorem tick_follows (s : State) : Follows s (tick s) :=
  follows_when (follows_when (follows_refl s) _ _ fun _ h => follows_modSupply h _) _ _ fun _ h => follows_modClocks h _

/-- Every step answers a next state, and a well-kept state stays well kept. -/
theorem step_wf {s t : State} (h : s.wf = true) (k : step s = .next t) : t.wf = true := by
  cases queue : s.pending with
  | nil =>
    obtain rfl : tick s = t := by simpa [step_nil s queue] using k
    obtain ⟨-, -, -, keeps⟩ := tick_follows s
    exact (keeps h).1
  | cons c rest =>
    obtain ⟨u, next, -, -, -, keeps⟩ := exec_follows c { s with pending := rest }
    obtain rfl : u = t := by simpa [step_cons s c rest queue, next] using k
    exact (keeps h).1

end Sys2Proof.Machine

/-! ### The statements -/

section
open Sys2Proof Sys2Proof.Machine

/-- Settles O56: a step is a command or a tick, and both keep a well-kept state (`exec_follows`, `tick_follows`). -/
theorem stepKeepsInvariant : Obligations.StepKeepsInvariant := fun _ _ h k => step_wf h k

/-- Settles O57: it is what `Follows` says of the state after a command. -/
theorem commandsComplete : Obligations.CommandsComplete := by
  intro c s
  obtain ⟨t, next, queue, sent, free, keeps⟩ := exec_follows c s
  exact ⟨t, next, queue, sent, free, fun h => (keeps h).2⟩

end
end

section
/-! The queue and the tick, and the module right after reset. -/

namespace Sys2Proof.Machine

/-- A tick passes on the operating time of a module that has power (R419, R479). -/
theorem tick_opNanos (s : State) : (tick s).supply.opNanos = s.supply.opNanos + (if s.boot.powered then 10 else 0) := by
  unfold tick State.when
  cases s.boot.powered <;> cases s.clocks.running <;> rfl

/-- A tick passes on the device timebase where that runs (R447). -/
theorem tick_clocks (s : State) : (tick s).clocks = if s.clocks.running then s.clocks.pass else s.clocks := by
  unfold tick State.when
  cases s.boot.powered <;> cases s.clocks.running <;> rfl

/-- What does not see time pass. -/
theorem tick_rest (s : State) : (tick s).fields = s.fields ∧ (tick s).spans = s.spans ∧ (tick s).mem = s.mem ∧ (tick s).regs = s.regs ∧
    (tick s).outbox = s.outbox ∧ (tick s).recorder = s.recorder := by
  unfold tick State.when
  cases s.boot.powered <;> cases s.clocks.running <;> exact ⟨rfl, rfl, rfl, rfl, rfl, rfl⟩

/-- 10 ns of a timebase that has nothing to slew: whole nanoseconds leave the fraction. -/
theorem Clocks.pass_steady (c : Clocks) (h : c.slew = 0) :
    c.pass = { c with time := c.time + 10 + c.frac / 1000, frac := c.frac % 1000 } := by
  have total : ((c.frac : Int) + 10000 + max (-5) (min 5 c.slew)).toNat = c.frac + 10 * 1000 := by omega
  have rest : c.slew - max (-5) (min 5 c.slew) = c.slew := by omega
  have whole : c.time + (c.frac / 1000 + 10) = c.time + 10 + c.frac / 1000 := by omega
  simp only [Clocks.pass, total, rest, Nat.add_mul_div_right, Nat.add_mul_mod_self_right, Nat.succ_pos, whole]

theorem getD_replicate {α : Type} (n i : Nat) (x : α) : (List.replicate n x).getD i x = x := by
  rw [List.getD_eq_getElem?_getD, List.getElem?_replicate]
  split <;> rfl

theorem State.span_reset (k : Nat) : State.reset.span k = .reset := getD_replicate 8 k _
theorem State.field_reset (f : Nat) : State.reset.field f = .reset := getD_replicate 30 f _
theorem State.channel_reset (c : Nat) : State.reset.channel c = .reset := getD_replicate 192 c _
theorem State.set_reset (k : Nat) : State.reset.set k = .reset := getD_replicate 16 k _
theorem Field.bank_reset (b : Nat) : Field.reset.bank b = .reset := getD_replicate 40 b _
theorem Field.mover_reset (c : Nat) : Field.reset.mover c = .reset := getD_replicate 16 c _

theorem State.regAt_reset (o : Obj) (i j : Nat) : State.reset.regAt o i j = o.dfltAt i j := rfl

theorem State.wf_reset : State.reset.wf = true :=
  (State.wf_iff _).2 ⟨rfl, rfl, (State.sized_iff _).2 ⟨List.length_replicate, List.length_replicate, List.length_replicate,
    List.length_replicate, List.length_replicate⟩, by decide⟩

/-- A register set at its reset values is 64 bytes 0 (R323). -/
theorem MoverSet.toBytes_reset : MoverSet.reset.toBytes = zeros 64 := by decide

end Sys2Proof.Machine

/-! ### The statements -/

section
open Sys2Proof Sys2Proof.Machine

/-- Settles O54: the two cases of a step, and what a tick passes on. -/
theorem stepRunsCommand : Obligations.StepRunsCommand := by
  intro s
  refine ⟨fun c rest queue => step_cons s c rest queue, fun queue => ⟨tick s, step_nil s queue, tick_opNanos s, ?stands, ?steady, tick_rest s⟩⟩
  case stands => intro stopped; simp [tick_clocks, stopped]
  case steady => intro running still; simp [tick_clocks, running, Clocks.pass_steady _ still]

/-- Settles O55: right after reset every unit is the reset unit of its kind. -/
theorem resetState : Obligations.ResetState := by
  refine ⟨State.wf_reset, rfl, rfl, rfl, rfl, rfl, rfl, State.regAt_reset, fun k => ?span, fun f => ?field, fun c => ?channel, fun k => ?set⟩
  case span => rw [State.span_reset]; exact ⟨rfl, rfl⟩
  case field =>
    rw [State.field_reset]
    refine ⟨rfl, rfl, rfl, fun b => ?bank, fun c => ?mover⟩
    case bank => rw [Field.bank_reset]; rfl
    case mover => rw [Field.mover_reset]; exact ⟨rfl, MoverSet.toBytes_reset, MoverSet.toBytes_reset⟩
  case channel => rw [State.channel_reset]; rfl
  case set => rw [State.set_reset]; rfl

end
end

section
/-! What a commit moves, what an abort discards, and the record that an accepted event adds (R20, R32, R36, R40, R43, R423). -/

namespace Sys2Proof.Machine

variable {s : State}

/-! ### The numbers of units -/

theorem State.spans_length (h : s.wf = true) : s.spans.length = 8 := ((State.sized_iff s).1 ((State.wf_iff s).1 h).2.2.1).2.1

theorem State.spanLt (h : s.wf = true) (k : SpanId) : k.val < s.spans.length := by rw [State.spans_length h]; exact k.isLt

/-! ### Messages and reads that only leave a note -/

/-- A message to members is sent, and nothing else. -/
theorem State.toMembers_outbox (s : State) (master ty k step attempt : Nat) (ms : List (Nat × Nat)) (data : List Nat) :
    ∃ sent, s.toMembers master ty k step attempt ms data = { s with outbox := sent } := by
  have sends (l : List (Nat × Nat)) (g : Nat × Nat → Dest) (t : State) :
      ∃ sent, l.foldl (fun t m => t.send master ty k step attempt (g m) 0 data) t = { t with outbox := sent } := by
    induction l generalizing t with
    | nil => exact ⟨t.outbox, rfl⟩
    | cons m r ih =>
      obtain ⟨sent, rest⟩ := ih (t.send master ty k step attempt (g m) 0 data)
      exact ⟨sent, rest⟩
  exact sends _ _ s

/-- Reads made one after another leave notes, and nothing else. -/
theorem State.noteReads_lateReads {α : Type} (l : List α) (a n : α → Nat) (s : State) :
    ∃ late, l.foldl (fun t i => t.noteRead (a i) (n i)) s = { s with lateReads := late } := by
  induction l generalizing s with
  | nil => exact ⟨s.lateReads, rfl⟩
  | cons i r ih =>
    obtain ⟨late, rest⟩ := ih (s.noteRead (a i) (n i))
    exact ⟨late, rest⟩

/-! ### The commit of a step -/

/-- What the commit does with a span: every provisional mark becomes the committed one (R20, R36). -/
def Span.committing (p : Span) (seqs : List SeqEntry) (differs : Bool) : Span :=
  { p with committed := p.committed + 1, step := none, select := !p.select, outTail := p.provOutTail, reqHead := p.provReqHead
           keyTime := p.writeTime, seqs := seqs, working := seqs, pred := p.predWork, shape := p.shapeWork, shapeSeen := p.shapeSeen || differs, failPauses := 0
           draftActed := max p.draftActed p.noticeOpen, verifyAt := if p.verified.isEmpty then p.verifyAt else p.committed + 1
           trees := [], verified := [], timetable := { p.timetable with window := none, opened := false } }

/-- The commit of a step changes one span, and neither memory nor a field. -/
theorem State.closeStep_frame (s : State) (k : Nat) : ∃ seqs differs,
    (∀ j, (s.closeStep k).span j = (s.modSpan k fun p => p.committing seqs differs).span j) ∧
    (s.closeStep k).mem = s.mem ∧ (s.closeStep k).fields = s.fields := by
  unfold State.closeStep
  obtain ⟨late, noted⟩ : ∃ late, (if s.anchorAway k then s else
      (List.range (min (((s.span k).provReqHead + 2 ^ 32 - (s.span k).reqHead) % 2 ^ 32) 4096)).foldl (fun t i =>
        t.noteRead ((s.span k).reqQueue + 512 + 256 * (((s.span k).reqHead + i) % 4096)) 256) s) = { s with lateReads := late } := by
    split
    · exact ⟨s.lateReads, rfl⟩
    · exact State.noteReads_lateReads _ _ _ s
  dsimp only
  rw [noted]
  generalize State.requestsFrom _ _ _ _ _ = reqs
  generalize reqs.foldl _ _ = seqs
  generalize (_ && _ && _ : Bool) = differs
  refine ⟨seqs, differs, ?_⟩
  split
  all_goals
    exact ⟨fun j => by simp -implicitDefEqProofs [State.span, State.modSpan, Span.committing], by simp -implicitDefEqProofs,
      by simp -implicitDefEqProofs⟩

/-! ### The abort of an attempt -/

/-- What the broadcast of an abort does with its span (R32, R40). -/
def Span.aborted (p : Span) (cause : Nat) : Span :=
  { p with step := some .aborting, status := p.status ||| cause, doneCount := 0
           timetable := { p.timetable with window := none, opened := false } }

/-- The abort of an open attempt changes its span, counts, keeps its cause, and sends (R32, R40, R43). -/
theorem State.abortSpan_opened {k : Nat} (h : (s.span k).step = some .opened ∨ (s.span k).step = some .closing) (cause : Nat) :
    ∃ sent, s.abortSpan k cause =
      { ((((s.modSpan k fun p => { p.aborted cause with status := (s.span k).status ||| cause }).bump regAbortCount k 1).setReg regLastAbortCause k
          ((s.span k).status ||| cause)).event (pierMaster (s.span k).anchor) 0x0A02
          (leBytes 4 ((s.span k).committed + 1) ++ leBytes 2 ((s.span k).status ||| cause))) with outbox := sent } := by
  unfold State.abortSpan
  rw [if_pos h]
  exact State.toMembers_outbox _ _ _ _ _ _ _ _

/-! ### The record of an accepted event -/

/-- The ring, the pages and the next SEQ after a record has entered (R423, R425). -/
theorem Recorder.push_keeps (r : Recorder) (e : EventRec) : (r.push e).nextSeq = r.nextSeq + 1 ∧ (r.push e).flash = r.flash ∧
    (r.push e).die = (if r.die.length == 4096 then r.die.drop 1 else r.die) ++ [e] := by
  unfold Recorder.push Recorder.reserve
  cases r.ceiling with
  | none => exact ⟨rfl, rfl, rfl⟩
  | some c => dsimp only; split <;> exact ⟨rfl, rfl, rfl⟩

/-- Acceptance of an event leaves the recorder with its record pushed, and memory, fields and spans alone (R422). -/
theorem State.record_accepts (h : s.recorder.ceiling ≠ none) (source code : Nat) (data : List Byte) :
    (s.record source code data).recorder =
      s.recorder.push ⟨s.recorder.nextSeq, s.opSeconds, s.reg regPowerCycles 0, source, code, padTo 8 data⟩ ∧
    (s.record source code data).mem = s.mem ∧ (s.record source code data).fields = s.fields ∧ (s.record source code data).spans = s.spans := by
  have started : s.recorder.ceiling.isNone = false := Option.isNone_eq_false_iff.2 (Option.isSome_iff_ne_none.2 h)
  unfold State.record
  rw [started]
  have vector (t : State) (v : Nat) : (t.vector v).recorder = t.recorder ∧ (t.vector v).mem = t.mem ∧ (t.vector v).fields = t.fields ∧
      (t.vector v).spans = t.spans := by
    unfold State.vector
    generalize (v == 0 || _ : Bool) = due
    cases due <;> exact ⟨rfl, rfl, rfl, rfl⟩
  dsimp only
  simp only [Bool.false_eq_true, if_false]
  split <;> split <;> first | exact vector _ 2 | exact ⟨rfl, rfl, rfl, rfl⟩

end Sys2Proof.Machine

/-! ### The statements -/

section
open Sys2Proof Sys2Proof.Machine

/-- Settles O16. -/
theorem commitMovesMarks : Obligations.CommitMovesMarks := by
  intro s k h
  obtain ⟨seqs, differs, spans, mem, fields⟩ := s.closeStep_frame k
  have own : (s.closeStep k).span k = (s.span k).committing seqs differs := by
    rw [spans, State.span_modSpan_same s k _ (State.spanLt h k)]
  have others (j : SpanId) (other : j ≠ k) : (s.closeStep k).span j = s.span j := by
    rw [spans, State.span_modSpan_other s k j _ fun e => other (Fin.ext e.symm)]
  dsimp only
  rw [own]
  exact ⟨rfl, rfl, rfl, rfl, rfl, rfl, rfl, rfl, rfl, rfl, rfl, rfl, others, mem, fields⟩

/-- Settles O18: the abort of an open attempt changes its span, two objects and what is sent. -/
theorem abortDiscards : Obligations.AbortDiscards := by
  intro s k cause h opened
  obtain ⟨sent, e⟩ := State.abortSpan_opened opened cause
  have lt := State.spanLt h k
  dsimp only
  have own : (s.abortSpan k cause).span k = (s.span k).aborted cause := by
    rw [e]; exact State.span_modSpan_same s k _ lt
  have kept : ((s.abortSpan k cause).modSpan k Span.unmarked).span k = ((s.span k).aborted cause).unmarked := by
    rw [State.span_modSpan_same _ k _ (by rw [e]; simpa using lt), own]
  have count : (s.abortSpan k cause).reg regLastAbortCause k = ((s.span k).status ||| cause) % 256 ^ regLastAbortCause.size := by
    rw [e]; exact State.reg_setReg_same _ _ _ _
  have mem : (s.abortSpan k cause).mem = s.mem := by rw [e]; rfl
  have fields : (s.abortSpan k cause).fields = s.fields := by rw [e]; rfl
  rw [own, kept]
  exact ⟨rfl, rfl, rfl, rfl, rfl, rfl, rfl, count, mem, fields, rfl, rfl, rfl, rfl, rfl, rfl, rfl⟩

/-- Settles O36: the record is pushed into the ring, which drops its oldest record only when it is full. -/
theorem eventAccepted : Obligations.EventAccepted := by
  intro s source code data h
  obtain ⟨pushed, mem, fields, spans⟩ := State.record_accepts h source code data
  obtain ⟨seq, flash, die⟩ := s.recorder.push_keeps ⟨s.recorder.nextSeq, s.opSeconds, s.reg regPowerCycles 0, source, code, padTo 8 data⟩
  dsimp only
  rw [pushed, seq, flash, die]
  refine ⟨rfl, rfl, List.getLast?_concat .., fun room => ?_, mem, fields, spans⟩
  have notFull : (s.recorder.die.length == 4096) = false := by simpa using room.ne
  rw [notFull]
  exact List.dropLast_concat

end
end

section
/-! What writes leave in memory: a permitted write of a scratchpad window (R15, R140) and the write of a tower granule (R246, R250). -/

namespace Sys2Proof.Machine

variable {s : State} {p : Pkt}

/-! ### What leaves memory alone -/

theorem foldl_keeps {α β : Type} (part : State → β) (g : State → α → State) (h : ∀ t x, part (g t x) = part t) (l : List α) (s : State) :
    part (l.foldl g s) = part s := by
  induction l generalizing s with
  | nil => rfl
  | cons x r ih => exact (ih (g s x)).trans (h s x)

@[simp] theorem State.mem_hauled (n : Nat) : (s.hauled p n).mem = s.mem := by
  unfold State.hauled
  split
  · exact foldl_keeps State.mem (fun t o => t.flitsOut o n) (fun _ _ => rfl) _ s
  · rfl

/-- What a delivered packet does at its destination is what its command does. -/
theorem State.carried_acts (delivered : s.delivers p = true) {n : Nat} {act : State → State} {t : State} (acts : act (s.hauled p n) = t) (ty : Nat) :
    Host.Outcome.next (φ := Fault) (ρ := Refusal) (s.carried ty n p act) = .next t :=
  congrArg _ ((State.carried_delivers delivered ty n act).trans acts)

/-- A row written has effects on run-ahead and on the scales of its pier only. -/
@[simp] theorem State.mem_rowWritten (s : State) (f r : Nat) : (s.rowWritten f r).mem = s.mem := by
  unfold State.rowWritten
  dsimp only
  split <;> split <;> rfl

/-! ### A write of a scratchpad window -/

/-- A granted write of a scratchpad window leaves its bytes in memory. -/
theorem State.mem_writeAt_window {a : Nat} (ha : addrRegion a = 8) (l : List Byte) :
    (s.writeAt a l).mem = s.mem.write (a % 2 ^ 48) l := by
  have poked : (s.pokeAny a l).mem = s.mem.write (a % 2 ^ 48) l := by
    simp only [State.pokeAny, ha, if_true]
    exact foldl_keeps State.mem _ (fun t r => State.mem_rowWritten t (addrField a) r) _ _
  unfold State.writeAt
  dsimp only
  split
  · exact poked
  · exact poked

theorem State.mem_performed (s : State) (p : Pkt) (stream : Bool) : (s.performed p stream).mem = s.mem := by
  unfold State.performed
  split <;> rfl

/-- A target performs what it grants, where no bank sleeps (R158, R364). -/
theorem State.atTarget_grants {a n : Nat} {right : Right} (current : addrRegion a = 8 → s.stale p = false)
    (granted : s.accessCode p.master.toNat p.span.toNat right a n = 0) (awake : s.windowAsleep a n = false) (c : Instr) (act : State → State) :
    s.atTarget c p right a n act = act s := by
  have fresh : ¬ (addrRegion a = 8 ∧ s.stale p = true) := fun h => by simp [current h.1] at h
  simp [State.atTarget, fresh, granted, awake]

/-- A permitted write of memory is performed (R283). -/
theorem State.writeRequest_granted {addr : BitVec 48} {l : List Byte} (window : addrRegion addr.toNat ≠ 12)
    (current : addrRegion addr.toNat = 8 → s.stale p = false)
    (granted : s.accessCode p.master.toNat p.span.toNat .w addr.toNat l.length = 0) (awake : s.windowAsleep addr.toNat l.length = false) (stream : Bool) :
    s.writeRequest p stream addr l = (s.writeAt addr.toNat l).performed p stream := by
  simp only [State.writeRequest, window, if_false, State.atTarget_grants current granted awake]

/-! ### A write of a granule -/

theorem padTo_length (n : Nat) (l : List Byte) : (padTo n l).length = n := by
  simp only [padTo, zeros, List.length_append, List.length_take, List.length_replicate]
  omega

theorem padTo_getElem (n : Nat) (l : List Byte) (i : Nat) (h : i < (padTo n l).length) : (padTo n l)[i] = l.getD i 0 := by
  have hi : i < n := by rwa [padTo_length] at h
  rw [← List.getD_eq_getElem _ 0 h, List.getD_eq_getElem?_getD, List.getD_eq_getElem?_getD]
  by_cases inside : i < l.length
  · simp [padTo, zeros, List.getElem?_append, inside, hi]
  · simp [padTo, zeros, List.getElem?_append, inside, List.getElem?_replicate]
    split <;> rfl

/-- Where no set mirrors a granule, its write stores the one copy. -/
theorem State.granuleWrite_unmirrored {c g : Nat} (h : s.mirrorOf c (64 * g) = none) (l : List Byte) :
    s.granuleWrite c g l = s.granuleStore c g l := by
  simp [State.granuleWrite, h]

theorem State.channelLt (h : s.wf = true) (c : ChannelId) : c.val < s.channels.length := by
  obtain ⟨-, -, -, count, -⟩ := (State.sized_iff s).1 ((State.wf_iff s).1 h).2.2.1
  rw [count]
  exact c.isLt

/-- The granule stored is no longer uncorrectable (R250). -/
theorem State.granuleStore_good (h : s.wf = true) (c : ChannelId) (g : Nat) (l : List Byte) :
    ((s.granuleStore c g l).channel c).bad.contains g = false := by
  have lt : c.val < (s.write (towerKey (c, 64 * g)) (padTo 64 l)).channels.length := State.channelLt h c
  rw [State.granuleStore, State.channel_modChannel_same _ _ _ lt]
  simp

end Sys2Proof.Machine

/-! ### The statements -/

section
open Sys2Proof Sys2Proof.Machine

/-- Settles O30: the write acts on the state after the packet's journey, which has the same memory, and stores its bytes in it. -/
theorem windowStores : Obligations.WindowStores := by
  intro s p addr l delivered
  dsimp only
  intro window fresh granted awake
  have memory : addrRegion addr.toNat ≠ 12 := by rw [window]; decide
  have stored : (((s.hauled p 1).writeAt addr.toNat l).performed p false).mem = s.mem.write (addr.toNat % 2 ^ 48) l := by
    rw [State.mem_performed, State.mem_writeAt_window window, State.mem_hauled]
  refine ⟨_, State.carried_acts delivered (State.writeRequest_granted memory (fun _ => fresh) granted awake false) _, ?inside, ?outside⟩
  case inside => intro i h; rw [stored]; exact Memory.byte_write_in _ _ _ _ h
  case outside => intro x h; rw [stored]; exact Memory.byte_write_out _ _ _ _ h

/-- Settles O48: one copy of 64 bytes is stored at the granule. -/
theorem granuleStores : Obligations.GranuleStores := by
  intro s c g l h unmirrored
  dsimp only
  rw [State.granuleWrite_unmirrored unmirrored]
  refine ⟨fun i hi => ?inside, fun x hx => Memory.byte_write_out _ _ _ _ ?outside, State.granuleStore_good h c g.toNat l, rfl, rfl⟩
  case inside =>
    have inPad : i < (padTo 64 l).length := by rwa [padTo_length]
    exact (Memory.byte_write_in s.mem _ _ i inPad).trans (padTo_getElem 64 l i inPad)
  case outside => rwa [padTo_length]

end
end

section
/-! Instructions of a pier program: what holds them back, and what those of the sequencer itself do (R88, R169 to R174, R184 to R190, R195 to R198). -/

namespace Sys2Proof.Machine

variable {s : State} {h : Hdr} {w : Nat} {u : Option PierUnit}

/-! ### Issue -/

theorem State.vecIssue_issue (s : State) (op : Nat) (h : Hdr) (o : VecOp) (check : VecCheck) (plan : State → VecDesc → VecPlan)
    (run : VecDesc → State → State) : ∃ act, s.vecIssue op h o check plan run = s.issue h (vecWord op h o) (some .vector) act := ⟨_, rfl⟩

/-- Every instruction of a pier program tries to issue by its own header, word and unit. -/
theorem exec_issued {i : Instr} (issued : i.issued = some (h, w, u)) (s : State) : ∃ act, exec i s = .next (s.issue h w u act) := by
  cases i
  case vecConvert | vecAdd | vecMul | vecRmsnorm | vecLayernorm | vecSwiglu | vecGelu | vecRotary | vecAddnorm | vecSoftmax | vecTopk | vecSample |
      vecGather =>
    cases issued
    obtain ⟨act, run⟩ := State.vecIssue_issue s _ _ _ _ _ _
    exact ⟨act, congrArg _ run⟩
  case pass | vecTreemask | vecNotify | moveCopy | moveTurn | moveFill | fetchLinear | fetchList | sendRows | sendSignal | sendStore | sendMcast |
      recvRows | recvSignal | collReduce | collAllreduce | collAllgather | collBroadcast | syncSpan | syncGroup | syncLocal | checkWait | checkForce |
      checkWindow | phase | stepBase | stepAdd | stepLoop | stepEndloop | stepJump | stepLdx =>
    cases issued
    exact ⟨_, rfl⟩
  all_goals cases issued

theorem State.issue_drawbridge (k : (s.field h.field).state = .drawbridge) (act : State → State) : s.issue h w u act = s := if_pos k

section
variable (k : (s.field h.field).state ≠ .drawbridge)
include k

theorem State.issue_twin {b : BitVec 16} (twin : h.fault = .twin b) (loaded : (s.field h.field).seq.state ≠ .empty) (act : State → State) :
    s.issue h w u act = s.twinFault h.field b.toNat := by
  simp [State.issue, State.issueIf, k, twin, loaded]

theorem State.issue_cannot (sound : ∀ b, h.fault ≠ .twin b)
    (cannot : (s.field h.field).seq.issuing = false ∨ (s.field h.field).seq.nextIs w = false) (act : State → State) : s.issue h w u act = s := by
  have blocked : ((s.field h.field).seq.issuing && (s.field h.field).seq.nextIs w) = false := by
    rcases cannot with cannot | cannot <;> simp [cannot]
  unfold State.issue State.issueIf
  dsimp only
  rw [if_neg k, blocked]
  split
  case _ twin => exact absurd twin (sound _)
  case _ => rfl

section
variable (can : (s.field h.field).seq.issuing = true) (next : (s.field h.field).seq.nextIs w = true)
include can next

theorem State.issue_uncorrectable (bad : h.fault = .uncorrectable) (act : State → State) : s.issue h w u act = s.wordFault h.field := by
  simp [State.issue, State.issueIf, k, can, next, bad]

theorem State.issue_waits (clean : h.fault = .clean) (held : (s.field h.field).seq.mayIssue h u = false) (act : State → State) :
    s.issue h w u act = s.bump regIssueWaits h.field 1 := by
  simp [State.issue, State.issueIf, k, can, next, clean, held]

end

end

/-! ### The sequencer of the pier that issues -/

/-- A change of a sequencer depends on the sequencer it finds only. -/
theorem State.modSeq_congr {f : Nat} {g k : Sequencer → Sequencer} (e : g (s.field f).seq = k (s.field f).seq) : s.modSeq f g = s.modSeq f k := by
  unfold State.modSeq State.modField
  congr 1
  apply List.ext_getElem?
  intro i
  simp only [List.getElem?_modify]
  by_cases here : f = i
  · subst here
    cases found : s.fields[f]? with
    | none => rfl
    | some x =>
      have own : s.field f = x := by simp [State.field, List.getD_eq_getElem?_getD, found]
      rw [own] at e
      simp [e]
  · simp [here]

theorem State.modSeq_id (s : State) (f : Nat) : (s.modSeq f fun q => q) = s := by
  show ({ s with fields := s.fields.modify f id } : State) = s
  rw [List.modify_id]

/-- The sequencer once its instruction index has moved past an instruction. -/
theorem State.seq_advanced (wf : s.wf = true) (h : Hdr) :
    ((s.advanced h).field h.field).seq = { (s.field h.field).seq with pc := (s.field h.field).seq.pc + 1 } := by
  rw [State.advanced, State.field_modSeq _ _ (State.fieldLt wf _)]

/-- An instruction that issues and changes its sequencer, written with what the sequencer held when it issued. -/
theorem State.issue_modSeq (wf : s.wf = true) (k : s.issues h w u = true) {g x : Sequencer → Sequencer}
    (e : ∀ q : Sequencer, q = { (s.field h.field).seq with pc := (s.field h.field).seq.pc + 1 } → g q = x q) :
    s.issue h w u (fun t => t.modSeq h.field g) = (s.advanced h).modSeq h.field x := by
  rw [State.issue_runs k]
  exact State.modSeq_congr (e _ (State.seq_advanced wf h))

theorem toTwos_mod (n : Nat) (i : Int) : toTwos n i % 2 ^ n = toTwos n i := by
  have pos : (0 : Int) < (2 ^ n : Nat) := by exact_mod_cast Nat.two_pow_pos n
  exact Nat.mod_eq_of_lt ((Int.toNat_lt (Int.emod_nonneg i pos.ne')).2 (Int.emod_lt_of_pos i pos))

theorem putIdx_toTwos (idx : List Nat) (r : Idx16) (i : Int) :
    putIdx idx r (toTwos 64 i) = if r = 0 then idx else idx.set r ((i % 2 ^ 64).toNat) := by
  unfold putIdx
  rw [toTwos_mod]
  exact if_congr Fin.val_eq_zero_iff rfl rfl

/-! ### Instructions that wait in the sequencer -/

/-- The sequencer `q` past an instruction that waits for `w`, once the waiting instructions have been looked at. -/
def Sequencer.waits (q : Sequencer) (still : Bool) (h : Hdr) (w : Waiting) : Sequencer :=
  let r := ({ q with pc := q.pc + 1, waiting := q.waiting ++ [w] }).setToken (hdrToken h) true
  Sequencer.drainWaiting still (r.waiting.length + 1) r

/-- An instruction that waits changes its sequencer only. -/
theorem State.await_wakes (wf : s.wf = true) (k : s.issues h w u = true) (x : Waiting) {act : State → State}
    (acts : act (s.advanced h) = ((s.advanced h).await h x).wakeWaiting h.field) : ∃ t, s.issue h w u act = t ∧ s.onlySeq t h.field ∧
      (t.field h.field).seq = (s.field h.field).seq.waits (s.fetchSlots h.field == 0) h x := by
  refine ⟨_, State.issue_runs k act, ?_⟩
  rw [acts, State.await, State.wakeWaiting, State.advanced, State.modSeq_modSeq, State.modSeq_modSeq]
  refine ⟨State.onlySeq_modSeq _ _, ?_⟩
  rw [State.field_modSeq _ _ (State.fieldLt wf _)]
  rfl

end Sys2Proof.Machine

/-! ### The statements -/

section
open Sys2Proof Sys2Proof.Machine

/-- Settles O1: every instruction issues through `State.issue`, whose cases these are. -/
theorem issueHoldsBack : Obligations.IssueHoldsBack := by
  intro i h w u s issued
  obtain ⟨act, run⟩ := exec_issued issued s
  dsimp only
  rw [run]
  refine ⟨fun k => ?drawbridge, fun k => ⟨fun b twin loaded => ?twin, fun sound cannot => ?cannot, fun bad can next => ?bad,
    fun clean can next held => ?held⟩⟩
  case drawbridge => rw [State.issue_drawbridge k]
  case twin => rw [State.issue_twin k twin loaded]
  case cannot => rw [State.issue_cannot k sound cannot]
  case bad => rw [State.issue_uncorrectable k can next bad]
  case held => rw [State.issue_waits k can next clean held]; rfl

/-- Settles O2: each changes its sequencer as it finds it, past the instruction. -/
theorem sequencerRegisters : Obligations.SequencerRegisters := by
  intro h s
  refine ⟨fun k => ?force, fun r k wf => ?window, fun r m b d k wf => ?base, fun r imm k wf => ?add, fun c n k wf => ?loop, fun c a k wf => ?endloop,
    fun a k => ?jump⟩
  case force => rw [exec_checkForce, execCheckForce, State.issue_runs k]
  case window =>
    refine congrArg _ (State.issue_modSeq wf k fun q e => ?_)
    simp [Sequencer.setIdx, putIdx, e]
  case base =>
    rw [exec_stepBase, execStepBase]
    by_cases zero : r = 0
    · rw [if_pos zero, State.issue_runs k]
      simp only [zero, if_true, State.modSeq_id]
    · rw [if_neg zero]
      refine congrArg _ (State.issue_modSeq wf k fun q e => ?_)
      have stride : signed 32 d.toNat = d.toInt := by rw [signed_eq_toInt (by decide), BitVec.ofNat_toNat, BitVec.setWidth_eq]
      simp only [if_neg zero, Sequencer.setIdx, BaseRec.at, putIdx_toTwos, e, stride]
      rfl
  case add =>
    refine congrArg _ (State.issue_modSeq wf k fun q e => ?_)
    have value : signed 48 imm.toNat = imm.toInt := by rw [signed_eq_toInt (by decide), BitVec.ofNat_toNat, BitVec.setWidth_eq]
    simp only [Sequencer.setIdx, putIdx_toTwos, e, value]
    rfl
  case loop => exact congrArg _ (State.issue_modSeq wf k fun q e => by rw [e])
  case endloop => exact congrArg _ (State.issue_modSeq wf k fun q e => by rw [e])
  case jump => rw [exec_stepJump, execStepJump, State.issue_runs k]

/-- Settles O3. -/
theorem waitingInstructions : Obligations.WaitingInstructions := by
  intro h s wf
  have waits {w : Nat} {u : Option PierUnit} (k : s.issues h w u = true) {x y : Waiting} (same : x = y) :
      ∃ t, Host.Outcome.next (φ := Fault) (ρ := Refusal) (s.issue h w u fun t => (t.await h x).wakeWaiting h.field) = .next t ∧
        s.onlySeq t h.field ∧ (t.field h.field).seq = (s.field h.field).seq.waits (s.fetchSlots h.field == 0) h y := by
    subst same
    obtain ⟨t, run, only, seq⟩ := State.await_wakes wf k x (act := fun t => (t.await h x).wakeWaiting h.field) rfl
    exact ⟨t, congrArg _ run, only, seq⟩
  refine ⟨fun k => ?verdicts, fun k => waits k rfl, fun c n => ⟨fun k => waits k rfl, fun k => waits k rfl⟩⟩
  case verdicts =>
    obtain ⟨t, run, only, seq⟩ := State.await_wakes wf k (.verdicts (s.field h.field).seq.passIndex (hdrToken h))
      (act := fun t => (t.await h (.verdicts (t.field h.field).seq.passIndex (hdrToken h))).wakeWaiting h.field) (by rw [State.seq_advanced wf])
    exact ⟨t, congrArg _ run, only, seq⟩

end
end

section
/-! PHASE, COMMIT, STEP.NEXT and STEP.LDX (R188 to R190, R198). -/

namespace Sys2Proof.Machine

variable {s : State} {h : Hdr} {w : Nat} {u : Option PierUnit}

/-! ### The spans under changes of a pier -/

/-- A change of a span depends on the span it finds only. -/
theorem State.modSpan_congr {k : Nat} {g x : Span → Span} (e : g (s.span k) = x (s.span k)) : s.modSpan k g = s.modSpan k x := by
  unfold State.modSpan
  congr 1
  apply List.ext_getElem?
  intro i
  simp only [List.getElem?_modify]
  by_cases here : k = i
  · subst here
    cases found : s.spans[k]? with
    | none => rfl
    | some p =>
      have own : s.span k = p := by simp [State.span, List.getD_eq_getElem?_getD, found]
      rw [own] at e
      simp [e]
  · simp [here]

theorem State.memberOf_modSeq (s : State) (f e : Nat) (g : Sequencer → Sequencer) : (s.modSeq f g).memberOf e = s.memberOf e := rfl

/-- The open step of a pier is a matter of its span. -/
theorem State.openStep_congr {s t : State} (same : t.spans = s.spans) (f : Nat) : t.openStep f = s.openStep f := by
  simp [State.openStep, State.memberOf, State.span, same]

theorem State.pointMove_spans (s : State) (f p : Nat) : (s.pointMove f p).spans = s.spans := by
  simp only [State.pointMove, State.pointReached]
  split_ifs <;> rfl

theorem State.powerUpdate_spans (s : State) (f : Nat) : (s.powerUpdate f).spans = s.spans := by
  simp only [State.powerUpdate]
  split_ifs
  · rfl
  · rfl
  · exact State.pointMove_spans _ f _

theorem State.declarePhase_spans (s : State) (f code : Nat) : (s.declarePhase f code).spans = s.spans := by
  simp only [State.declarePhase]
  split_ifs
  · rfl
  · exact State.powerUpdate_spans _ f

theorem State.arrayIdle_spans (s : State) (f : Nat) : (s.arrayIdle f).spans = s.spans := by
  simp only [State.arrayIdle]
  split_ifs <;> rfl

theorem State.passesDropped_spans (s : State) (f : Nat) : (s.passesDropped f).spans = s.spans := by
  simp only [State.passesDropped]
  split_ifs
  · exact State.arrayIdle_spans _ f
  · rfl

theorem State.seqWait_spans (s : State) (f : Nat) : (s.seqWait f).spans = s.spans :=
  (State.declarePhase_spans _ f 4).trans (State.passesDropped_spans s f)

end Sys2Proof.Machine

/-! ### The statement -/

section
open Sys2Proof Sys2Proof.Machine

/-- Settles O4: COMMIT goes to its anchor only in an open step, and NEXT starts an attempt only where one is open. -/
theorem sequencerControl : Obligations.SequencerControl := by
  intro h s wf
  dsimp only
  have advanced : ((s.advanced h).field h.field).seq = { (s.field h.field).seq with pc := (s.field h.field).seq.pc + 1 } := State.seq_advanced wf h
  refine ⟨fun code k small => ?phase, fun o r m k running => ⟨fun member => ?commit, fun p member anchor opened verified => ?anchor⟩,
    fun k => ⟨fun prologue closed => ?prologue, fun running => ?running⟩, fun awake waiting sound next clean may => ?waiting,
    fun r src w k index free => ?load⟩
  case phase =>
    rw [exec_phase, execPhase, State.issue_runs k, if_pos small]
    rfl
  case commit =>
    have fixed : (s.field h.field).seq.state ≠ .prologue := by simp [running]
    refine ⟨s.modSeq h.field fun q => { q with pc := q.pc + 1, state := .committing, issuedCommit := true }.setToken (hdrToken h) true, ?_,
      State.onlySeq_modSeq _ _, by rw [State.field_modSeq _ _ (State.fieldLt wf _)]⟩
    rw [exec_commit, execCommit]
    dsimp only
    rw [if_neg fixed, State.issue_runs k, State.memberOf_modSeq, State.advanced, State.memberOf_modSeq, State.modSeq_modSeq]
    cases own : s.memberOf h.field with
    | none => rfl
    | some p => exact congrArg _ (if_neg (member p own))
  case anchor =>
    have fixed : (s.field h.field).seq.state ≠ .prologue := by simp [running]
    rw [exec_commit, execCommit]
    dsimp only
    rw [if_neg fixed, State.issue_runs k, State.memberOf_modSeq, State.advanced, State.memberOf_modSeq, member]
    dsimp only
    rw [State.span_modSeq, State.span_modSeq, if_pos anchor, State.anchorCommits, State.span_modSeq, State.span_modSeq, if_pos opened]
    refine congrArg Host.Outcome.next (congrArg (State.decide · p) (State.modSpan_congr ?_))
    simp only [State.span_modSeq, verified, List.isEmpty_nil, if_true]
  case prologue =>
    rw [exec_stepNext, execStepNext]
    dsimp only
    rw [prologue]
    dsimp only
    rw [State.issue_runs k]
    have none : (((s.advanced h).modSeq h.field fun q => { q with prologueFailed := false }).seqWait h.field).openStep h.field = none :=
      (State.openStep_congr (State.seqWait_spans _ _) _).trans closed
    rw [none]
  case running =>
    rw [exec_stepNext, execStepNext]
    dsimp only
    rw [running]
    dsimp only
    rw [State.issue_runs k]
  case waiting =>
    rw [exec_stepNext, execStepNext]
    dsimp only
    rw [waiting]
    simp [State.issueIf, awake, sound, next, clean, may, State.advanced]
  case load =>
    rw [exec_stepLdx, execStepLdx]
    dsimp only
    rw [State.issue_runs k, State.withRows_free free]
    have other : r.val ≠ 0 := fun zero => index (Fin.val_eq_zero_iff.1 zero)
    simp only [Sequencer.setIdx, putIdx, if_neg other]

end
end

section
/-! The operations of the vector unit (R200, R203, R207 to R216). -/

namespace Sys2Proof.Machine

variable {s : State} {h : Hdr} {o : VecOp}

/-- An operation of the vector unit whose rows are free is performed, stalls by them, and enters the unit. -/
theorem State.vecIssue_runs {op : Nat} {check : VecCheck} {plan : State → VecDesc → VecPlan} {act : VecDesc → State → State} {t : State}
    {d : VecDesc} {p : VecPlan} (k : s.issues h (vecWord op h o) (some .vector) = true) (at' : s.advanced h = t)
    (desc : VecDesc.ofBytes (t.descriptor h.field o.vdesc.toNat) = d) (planned : plan t d = p)
    (free : t.rowsFree h.field p.operands (p.reads ++ p.writes) = true) :
    s.vecIssue op h o check plan act = ((act d t).vecStalls h.field (p.reads ++ p.writes)).vecLaunch h check := by
  subst at' desc planned
  rw [State.vecIssue, State.issue_runs k]
  exact State.withRows_free free _

theorem vecMap_maps {i : Instr} {op : Nat} {outLen : VecDesc → Nat} {extra : State → VecDesc → List (List Nat)}
    {g : State → VecDesc → Nat → List FV → List FV} (run : ∀ s, exec i s = .next (s.vecMap op h o outLen extra g)) :
    i.mapsVectors op h o outLen extra (fun _ _ => true) g := by
  intro s k f t d p free _ src
  rw [run, State.vecMap, State.vecIssue_runs k rfl rfl rfl free]

/-- What a SOFTMAX writes that starts: it looks at the mask row only where it is masked. -/
theorem State.softmaxRun_writes (t : State) (f n dst : Nat) (source : VecSource) (desc mask : List Byte) {d : VecDesc}
    (described : VecDesc.ofBytes desc = d) :
    t.softmaxRun f ⟨n, desc, source, if d.masked then mask else [], dst⟩ =
      (t.putVectors f dst d.ofmt d.outScale (nanTails false (desc ++ source.bytes)) ((source.vectors d).1.zipIdx.map fun v =>
        softmax (f32.value (d.p32 0)) (fun k => !d.masked || keyAllowed (t.keyPrefix f d) (leAt mask (8 * (v.2 % d.p8 8)) 8) k) v.1)).vecCount f 0
          (source.vectors d).2 := by
  subst described
  cases masked : (VecDesc.ofBytes desc).masked with
  | true => simp only [State.softmaxRun, masked, if_true]
  | false => simp only [State.softmaxRun, masked, Bool.not_false, Bool.true_or]

end Sys2Proof.Machine

/-! ### The statements -/

section
open Sys2Proof Sys2Proof.Machine

/-- Settles O5: all but SOFTMAX are `State.vecMap`. -/
theorem vectorMaps : Obligations.VectorMaps := by
  intro h o always
  refine ⟨vecMap_maps fun _ => rfl, vecMap_maps fun _ => rfl, vecMap_maps fun _ => rfl, vecMap_maps fun _ => rfl, vecMap_maps fun _ => rfl, ?softmax,
    ?held, vecMap_maps fun _ => rfl, vecMap_maps fun _ => rfl, vecMap_maps fun _ => rfl⟩
  case softmax =>
    intro s k f t d p free starts src
    have now : (d.masked && d.prefixReg && t.vectorBusy h.field) ≠ true := fun later => by simp [later] at starts
    rw [exec_vecSoftmax, execVecSoftmax, State.vecIssue_runs k rfl rfl rfl free]
    dsimp only
    rw [if_neg now, State.softmaxRun_writes t h.field _ _ _ _ _ rfl]
    rfl
  case held =>
    intro s k t d p free masked register busy
    have later : (d.masked && d.prefixReg && t.vectorBusy h.field) = true := by simp [masked, register, busy]
    rw [exec_vecSoftmax, execVecSoftmax, State.vecIssue_runs k rfl rfl rfl free]
    dsimp only
    rw [if_pos later, if_pos masked]

/-- Settles O6. -/
theorem vectorOthers : Obligations.VectorOthers := by
  intro h o s f t d src issues
  refine ⟨fun k => ?addnorm, fun k m ds => ?treemask, fun k => ?topk, fun k => ?sample, fun k => ?gather⟩
  case addnorm =>
    intro p key sums free
    rw [exec_vecAddnorm, execVecAddnorm, State.vecIssue_runs k rfl rfl rfl free]
  case treemask =>
    intro rows free tree
    let rest := leBytes 1024 (Config.treeRest (t.descriptor f o.vdesc.toNat ++ t.row f (t.opnd f o.src1))).toNat
    refine ⟨rest, rest.drop 512, ?_⟩
    rw [exec_vecTreemask, execVecTreemask, State.issue_runs k]
    dsimp only
    rw [State.withRows_free free, tree]
  case topk =>
    intro from1 dst res free
    rw [exec_vecTopk, execVecTopk, State.vecIssue_runs k rfl rfl rfl free]
  case sample =>
    intro n from1 span seed draw r free
    rw [exec_vecSample, execVecSample, State.vecIssue_runs (p := ⟨[from1, [t.opnd f o.dst]].filterMap List.head?, from1, [t.opnd f o.dst]⟩) k rfl rfl rfl free]

  case gather =>
    intro index dst bytes values free same
    rw [exec_vecGather, execVecGather, State.vecIssue_runs k rfl rfl rfl free]
    dsimp only
    rw [if_pos same]

/-- Settles O7: the accept handler takes a NOTIFY only at the anchor of an open step. -/
theorem vectorNotify : Obligations.VectorNotify := by
  intro h o l s k f t code at' plain
  have elsewhere : ¬ ((t.span at'.1).anchor = f ∧ (t.openStep f).isSome = true) := by
    rintro ⟨anchor, opened⟩
    rcases plain with closed | other
    · simp [closed] at opened
    · exact other anchor
  rw [exec_vecNotify, execVecNotify, State.issue_runs k]
  dsimp only
  rw [if_neg elsewhere]

end
end

section
/-! The turn unit (R153, R179, R374), the fetch engine (R175, R180 to R182, R191 to R193) and SEND (R183, R296, R297, R306). -/

namespace Sys2Proof.Machine

variable {s : State} {h : Hdr}

/-! ### Bits of byte strings -/

/-- A byte string is the little-endian form of its number. -/
theorem leBytes_ofLe (l : List Byte) : leBytes l.length (ofLe l) = l := by
  induction l with
  | nil => rfl
  | cons b l ih =>
    have byte : b.toNat < 256 := b.isLt
    have low : BitVec.ofNat 8 (b.toNat + 256 * ofLe l) = b := by
      apply BitVec.eq_of_toNat_eq
      rw [BitVec.toNat_ofNat]
      omega
    have high : (b.toNat + 256 * ofLe l) / 256 = ofLe l := by omega
    rw [List.length_cons, leBytes, ofLe, low, high, ih]

/-- Bit `r` of byte `q` of a byte string is bit 8q + r of its number. -/
theorem testBit_leAt_one (l : List Byte) (q : Nat) {r : Nat} (small : r < 8) : (leAt l q 1).testBit r = (ofLe l).testBit (8 * q + r) := by
  rw [← ofLe_drop_mod_byte, Nat.testBit_mod_two_pow, decide_eq_true small, Bool.true_and, ← ofLe_div_byte, Nat.testBit_div_two_pow, Nat.add_comm]

/-- A bit of an element, in the number of the byte string (R110). -/
theorem elemBit_ofLe (l : List Byte) (b i k : Nat) : elemBit l b i k = (ofLe l).testBit (i * b + k) :=
  calc elemBit l b i k = (ofLe l).testBit (8 * ((i * b + k) / 8) + (i * b + k) % 8) := testBit_leAt_one l _ (Nat.mod_lt _ (by decide))
    _ = (ofLe l).testBit (i * b + k) := by rw [Nat.div_add_mod]

theorem packBools_testBit (l : List Bool) (i : Nat) : (packBools l).testBit i = l.getD i false := by
  induction l generalizing i with
  | nil => simp [packBools]
  | cons b l ih =>
    have low : boolNat b < 2 := by cases b <;> decide
    cases i with
    | zero => cases b <;> simp [packBools, boolNat, Nat.testBit_zero]
    | succ i =>
      have rest : packBools (b :: l) / 2 = packBools l := by
        simp only [packBools]
        omega
      rw [Nat.testBit_succ, rest, ih, List.getD_cons_succ]

/-- Eight bits fit in a byte. -/
theorem packBools_lt (l : List Bool) : packBools l < 2 ^ l.length := by
  induction l with
  | nil => decide
  | cons b l ih =>
    have low : boolNat b < 2 := by cases b <;> decide
    rw [packBools, List.length_cons, Nat.pow_succ]
    omega

theorem bytesOfBits_length (n : Nat) (g : Nat → Bool) : (bytesOfBits n g).length = n := by simp [bytesOfBits]

theorem ofLe_bytesOfBits (n : Nat) (g : Nat → Bool) {j : Nat} (inside : j < 8 * n) : (ofLe (bytesOfBits n g)).testBit j = g j := by
  have place : 8 * (j / 8) + j % 8 = j := Nat.div_add_mod j 8
  have row : j / 8 < n := by omega
  have col : j % 8 < 8 := Nat.mod_lt _ (by decide)
  have bits : packBools ((List.range 8).map fun i => g (8 * (j / 8) + i)) < 2 ^ 8 := packBools_lt _
  have byte : (bytesOfBits n g).getD (j / 8) 0 = BitVec.ofNat 8 (packBools ((List.range 8).map fun i => g (8 * (j / 8) + i))) := by
    simp [bytesOfBits, row, List.getD_eq_getElem?_getD]
  rw [← place, ← testBit_leAt_one _ _ col, leAt_one, byte, BitVec.toNat_ofNat, Nat.mod_eq_of_lt bits, packBools_testBit]
  simp [col, List.getD_eq_getElem?_getD]

/-! ### The transpose of a tile -/

theorem transposeTile_length (b : Nat) (l : List Byte) : (transposeTile b l).length = 128 * b := bytesOfBits_length _ _

/-- Element (j, i) of the transpose is element (i, j) of the tile. -/
theorem tileElem_transpose (b : Nat) (l : List Byte) {i j : Nat} (row : i < 32) (col : j < 32) :
    tileElem b (transposeTile b l) (32 * j + i) = tileElem b l (32 * i + j) := by
  apply Nat.eq_of_testBit_eq
  intro k
  simp only [tileElem, Nat.testBit_mod_two_pow, Nat.testBit_div_two_pow]
  by_cases small : k < b
  · have inside : b * (32 * j + i) + k < 8 * (128 * b) := by nlinarith
    have element : (b * (32 * j + i) + k) / b = 32 * j + i := by rw [Nat.mul_add_div (by omega), Nat.div_eq_of_lt small, Nat.add_zero]
    have bit : (b * (32 * j + i) + k) % b = k := by rw [Nat.mul_add_mod, Nat.mod_eq_of_lt small]
    have source : 32 * ((32 * j + i) % 32) + (32 * j + i) / 32 = 32 * i + j := by omega
    rw [transposeTile, Nat.add_comm k, Nat.add_comm k, ofLe_bytesOfBits _ _ inside]
    dsimp only
    rw [element, bit, source, elemBit_ofLe, Nat.mul_comm b]
  · simp [small]

/-- The turn check finds nothing in a transpose (R374). -/
theorem turnGood_transpose (b : Nat) (l : List Byte) : turnGood b l (transposeTile b l) = true := by
  simp only [turnGood, List.all_eq_true, List.mem_range, beq_iff_eq, tileRowXor, tileColXor]
  intro i row
  apply List.foldl_ext
  intro x j col
  rw [tileElem_transpose b l row (List.mem_range.1 col)]

/-- A turn unit without a fault writes the transpose. -/
theorem turnTile_sound (b i : Nat) (l : List Byte) : turnTile b i [] l = transposeTile b l := by
  have length := transposeTile_length b l
  rw [turnTile, List.filter_nil, List.foldl_nil, ← length, leBytes_ofLe]

/-- The transposes of `n` tiles of `k` rows, one after another. -/
def State.transposed (s : State) (f a b n k w : Nat) : State :=
  (List.range n).foldl (fun v i => v.putRows f (rowAfter b (i * k))
    (padTo (512 * k) (transposeTile w ((v.rows f (rowsFrom (rowAfter a (i * k)) k)).take (128 * w))))) s

/-- A turn unit without a fault writes the transposes, and its check finds nothing. -/
theorem State.turn_sound (s : State) (f a b n k w : Nat) :
    (List.range n).foldl (fun (v : State × List Nat) i =>
      let old := v.1.rows f (rowsFrom (rowAfter a (i * k)) k)
      let new := turnTile w i [] (old.take (128 * w))
      (v.1.putRows f (rowAfter b (i * k)) (padTo (512 * k) new), if turnGood w (old.take (128 * w)) new then v.2 else v.2 ++ [i])) (s, []) =
      (s.transposed f a b n k w, []) := by
  unfold State.transposed
  induction List.range n generalizing s with
  | nil => rfl
  | cons i l ih =>
    simp only [List.foldl_cons, turnTile_sound, turnGood_transpose, if_true] at ih ⊢
    exact ih _

/-! ### Copies -/

/-- A copy whose destination does not lie ahead inside its source. -/
theorem State.copyRows_apart {t : State} {f a b n : Nat} (apart : (b + 2 ^ 22 - a) % 2 ^ 22 = 0 ∨ n ≤ (b + 2 ^ 22 - a) % 2 ^ 22) :
    t.copyRows f a b n = (List.range n).foldl (fun v i => v.tagRows f [rowAfter b i] (t.scalesAt f (rowAfter a i)))
      (t.putRows f b ((List.range n).map fun i => t.row f (rowAfter a i)).flatten) := by
  unfold State.copyRows
  dsimp only
  generalize (b + 2 ^ 22 - a) % 2 ^ 22 = d at apart ⊢
  have none : (d != 0 && Decidable.decide (d < n)) = false := by
    rcases apart with same | past
    · simp [same]
    · simp [Nat.not_lt.2 past]
  simp only [none, Bool.false_and, Bool.false_eq_true, if_false, Nat.add_zero]

/-! ### Reads of the fetch engine -/

/-- A FETCH whose reads the run-ahead cursor has not made. -/
theorem State.fetch_new {t : State} {ra : Bool} {reads : List (Nat × Nat × Nat)}
    (new : ((t.field h.field).seq.ahead.find? fun a => ra && a.step == (t.field h.field).seq.reg 0 && a.nth == (t.field h.field).seq.fetchNth) = none) :
    t.fetch h ra reads = (((if ra then t.modSeq h.field fun x => { x with fetchNth := x.fetchNth + 1 } else t).launch h .fetch 4 reads.length
      []).fetchIssue h.field (t.pierSpan h.field) (t.field h.field).seq.serial reads) := by
  simp only [State.fetch, new]

/-- A FETCH all of whose reads the run-ahead cursor has made and whose data has come. -/
theorem State.fetch_served {t u v : State} {ra : Bool} {reads : List (Nat × Nat × Nat)} {x : AheadFetch}
    (here : ((t.field h.field).seq.ahead.find? fun a => ra && a.step == (t.field h.field).seq.reg 0 && a.nth == (t.field h.field).seq.fetchNth) = some x)
    (made : (((t.field h.field).seq.runAhead.filter fun r => r.step == x.step && r.nth == x.nth).all fun r => r.rest.isEmpty) = true)
    (counted : u = if ra then t.modSeq h.field fun x => { x with fetchNth := x.fetchNth + 1 } else t)
    (dropped : v = u.modSeq h.field fun y =>
      { y with ahead := y.ahead.filter fun z => !(z.step == x.step && z.nth == x.nth), runAhead := y.runAhead.map (·.without [x]) })
    (come : v.readsLeft h.field x.tags = 0) : t.fetch h ra reads = v := by
  have none : ((t.field h.field).seq.runAhead.filter fun r => r.step == x.step && r.nth == x.nth).elim [] (·.rest) = [] := by
    cases found : (t.field h.field).seq.runAhead.filter fun r => r.step == x.step && r.nth == x.nth with
    | none => rfl
    | some r => rw [found] at made; simpa using made
  subst counted dropped
  simp only [State.fetch, here, none, come, List.length_nil, Nat.add_zero, if_true]

end Sys2Proof.Machine

/-! ### The statements -/

section
open Sys2Proof Sys2Proof.Machine

/-- Settles O8: without a fault the turn unit writes the transposes, in which its check finds nothing. -/
theorem moveInstructions : Obligations.MoveInstructions := by
  intro h n src dst s f t a b
  refine ⟨fun k free apart => ?copy, fun k free => ?fill, fun e => ?turn⟩
  case copy =>
    rw [exec_moveCopy, execMoveCopy]
    dsimp only
    rw [State.issue_runs k, State.withRows_free free, State.copyRows_apart apart]
  case fill =>
    rw [exec_moveFill, execMoveFill]
    dsimp only
    rw [State.issue_runs k, State.withRows_free free]
  case turn =>
    intro w k free
    rw [exec_moveTurn, execMoveTurn]
    dsimp only
    rw [State.issue_runs k, State.withRows_free free]
    rw [State.turn_sound]
    rfl

/-- Settles O9. -/
theorem fetchInstructions : Obligations.FetchInstructions := by
  intro h ra s f t q here u reads
  refine ⟨fun o dst k => ?linear, fun n list dst k free => ?list⟩
  case linear =>
    intro a
    rw [exec_fetchLinear, execFetchLinear]
    dsimp only
    rw [State.issue_runs k]
    refine ⟨fun bad => ?bad, fun good => ⟨fun admitted new => ?new, fun x admitted found made come => ?served, fun refused => ?refused⟩⟩
    case bad => rw [if_pos bad]
    case new => rw [if_neg (ne_true_of_eq_false good), if_neg (mt (Bool.not_eq_true' _).mp (ne_false_of_eq_true admitted)), State.fetch_new new]
    case served => rw [if_neg (ne_true_of_eq_false good), if_neg (mt (Bool.not_eq_true' _).mp (ne_false_of_eq_true admitted)), State.fetch_served found made rfl rfl come]
    case refused => rw [if_neg (ne_true_of_eq_false good), if_pos ((Bool.not_eq_true' _).mpr refused), State.rangeFault]
  case list =>
    intro es
    rw [exec_fetchList, execFetchList]
    dsimp only
    rw [State.issue_runs k, State.withRows_free free]
    refine ⟨fun admitted new => ?new, fun refused => ?refused⟩
    case new => rw [if_pos admitted, State.fetch_new new]
    case refused => rw [if_neg (ne_true_of_eq_false refused), State.rangeFault]

/-- Settles O10. -/
theorem sendInstructions : Obligations.SendInstructions := by
  intro h s f t k serial at'
  refine ⟨fun o => ?rows, fun m c i => ?signal, fun o src => ?store, fun o => ?mcast⟩
  case rows =>
    intro a r n i free
    rw [exec_sendRows, execSendRows]
    dsimp only
    rw [State.issue_runs i, State.withRows_free free]
    refine ⟨fun d member => ?sent, fun stranger => ?refused⟩
    case sent => rw [show (State.span (s.advanced h) _).memberDst _ = some d from member]
    case refused => rw [show (State.span (s.advanced h) _).memberDst _ = none from stranger]
  case signal =>
    rw [exec_sendSignal, execSendSignal]
    dsimp only
    rw [State.issue_runs i]
    refine ⟨fun d member => ?sent, fun stranger => ?refused⟩
    case sent => rw [show (State.span (s.advanced h) _).memberDst _ = some d from member]; rfl
    case refused => rw [show (State.span (s.advanced h) _).memberDst _ = none from stranger]
  case store =>
    intro a b n l i bank
    rw [exec_sendStore, execSendStore]
    dsimp only
    rw [State.issue_runs i, if_neg (ne_true_of_eq_false bank)]
    refine ⟨fun free admitted => ?sent, fun refused => ?refused⟩
    case sent => rw [if_neg (mt (Bool.not_eq_true' _).mp (ne_false_of_eq_true admitted)), State.withRows_free free]
    case refused => rw [if_pos ((Bool.not_eq_true' _).mpr refused), State.rangeFault]
  case mcast =>
    intro a r n i free
    rw [exec_sendMcast, execSendMcast]
    dsimp only
    rw [State.issue_runs i, State.withRows_free free]
    refine ⟨fun root members group => ?sent, fun missing => ?refused⟩
    case sent => rw [show State.groupOf (s.advanced h) _ true _ = some (root, members) from group]
    case refused => rw [show State.groupOf (s.advanced h) _ true _ = none from missing]

end
end

section
/-! Collectives, barriers and passes (R67 to R72, R77, R89, R96, R118 to R123, R185, R186, R290, R378). -/

namespace Sys2Proof.Machine

/-- A COLL of kind `sub` at a member of its group. -/
theorem coll_collective {h : Hdr} {o : CollOp} {i : Instr} {sub : Nat} {sends lands : Nat → Nat → Bool} {dsts : Nat → List Nat → List Nat}
    {rowsOut : Nat → Nat → Nat} (run : ∀ s, exec i s = .next (s.coll h sub o)) (out : ∀ me root, (sub != 3 || me == root) = sends me root)
    (into : ∀ root ms, (if sub = 0 then [root] else ms) = dsts root ms) (rows : ∀ n m, (if sub = 2 then n * m else n) = rowsOut n m)
    (here : ∀ me root, (sub != 0 || me == root) = lands me root) : i.collective h o sub sends dsts rowsOut lands := by
  intro s rank root ms k f t span a b n g me member free
  simp only [run, State.coll, State.issue_runs k, out, into, rows, here]
  rw [member]
  dsimp only
  rw [State.withRows_free free]

/-- ARRIVE of a SYNC in slot `slot` goes to member `root` under barrier `id`, and the instruction waits for its release. -/
def State.arrives (t : State) (h : Hdr) (slot id root : Nat) : State :=
  let o := t.stepOf h.field (t.pierSpan h.field)
  let seq := (t.field h.field).seq.syncSeq.getD slot 0
  ((t.send (pierMaster h.field) tyArrive (t.pierSpan h.field) o.2.1 o.2.2 (((t.span (t.pierSpan h.field)).memberDst root).getD (.pier h.field)) 1
    [id, seq]).modSeq h.field fun q => { q with syncSeq := q.syncSeq.set slot (seq + 1) }).await h (.sync id seq (hdrToken h))

section
variable {s : State} {h : Hdr} {group : Option Nat} (k : s.issues h (syncWord (if group.isSome then 1 else 0) h (group.getD 0)) none = true)
include k

theorem State.sync_arrives {root : Nat} {ms : List Nat}
    (found : (s.advanced h).groupOf ((s.advanced h).pierSpan h.field) false (group.getD 0) = some (root, ms)) :
    s.sync h group = (s.advanced h).arrives h (group.getD 16) (group.getD 0xFF) root := by
  rw [State.sync]
  dsimp only
  rw [State.issue_runs k, found]
  rfl

theorem State.sync_missing (missing : (s.advanced h).groupOf ((s.advanced h).pierSpan h.field) false (group.getD 0) = none) :
    s.sync h group = (s.advanced h).failed h.field 0x40 := by
  rw [State.sync]
  dsimp only
  rw [State.issue_runs k, missing]

end

end Sys2Proof.Machine

/-! ### The statements -/

section
open Sys2Proof Sys2Proof.Machine

/-- Settles O11. -/
theorem collectives : Obligations.Collectives := by
  intro h o
  refine ⟨coll_collective (fun _ => rfl) ?_ ?_ ?_ ?_, coll_collective (fun _ => rfl) ?_ ?_ ?_ ?_, coll_collective (fun _ => rfl) ?_ ?_ ?_ ?_,
    coll_collective (fun _ => rfl) ?_ ?_ ?_ ?_⟩
  all_goals intros; rfl

/-- Settles O12. -/
theorem barriers : Obligations.Barriers := by
  intro h s f t k at' arrives
  refine ⟨fun i root ms group => ?span, fun g i => ⟨fun root ms group => ?group, fun missing => ?missing⟩⟩
  case span => exact congrArg _ (State.sync_arrives (group := none) i group)
  case group => exact congrArg _ (State.sync_arrives (group := some g.toNat) i group)
  case missing => exact congrArg _ (State.sync_missing (group := some g.toNat) i missing)

/-- Settles O13. -/
theorem passAccumulates : Obligations.PassAccumulates := by
  intro h o s k f t d w a dst q free
  have run : exec (.pass h o) s = .next (t.runPass f h o d w a) := by
    rw [exec_pass, execPass]
    dsimp only
    rw [State.issue_runs k, State.withRows_free free]
  refine ⟨run, fun quiet unchecked => ?_⟩
  rw [run]
  rw [State.runPass]
  dsimp only
  rw [quiet, show passChecked _ _ _ _ = false from unchecked]
  rfl

end
end

section
/-! The commands of the commit protocol: reports, keystones, timeouts, aborts, openings, epochs, loads and the notices of paired spans (R25 to R56,
R219 to R222, R238, R312). -/

namespace Sys2Proof.Machine

variable {s t : State} {p : Pkt}

/-! ### Reports -/

theorem State.reportFailed_aborting {k : Nat} (aborting : (t.span k).step = some .aborting) (n : Nat) :
    t.reportFailed k n = (t.modSpan k fun x => { x with status := (t.span k).status ||| n }).setReg regLastAbortCause k ((t.span k).status ||| n) := by
  rw [State.reportFailed, if_pos aborting]

theorem State.reportFailed_open {k : Nat} (live : (t.span k).step ≠ some .aborting) (n : Nat) : t.reportFailed k n = t.abortSpan k n := by
  rw [State.reportFailed, if_neg live]

/-- What the anchor of an open step does with a report of its attempt. -/
def State.reported (t : State) (k : Nat) (kind : ReportKind) (count status window : Nat) : State :=
  match kind with
  | .ready => t.reportReady k count status window
  | .failed => t.reportFailed k status
  | .abortDone => t.reportAbortDone k count

section
variable (delivered : s.delivers p = true) (fresh : (s.hauled p 1).stale p = false) (started : ((s.hauled p 1).span p.span.toNat).step ≠ none)
include delivered fresh started

theorem State.report_own (own : ((s.hauled p 1).span p.span.toNat).isOpen p.step.toNat p.attempt.toNat = true) (kind : ReportKind)
    (count status : BitVec 16) (w : BitVec 32) :
    exec (.report p kind count status w) s = .next ((s.hauled p 1).reported p.span.toNat kind count.toNat status.toNat w.toNat) := by
  refine State.carried_acts delivered ?_ _
  rw [if_neg (ne_true_of_eq_false fresh), if_neg (mt Option.isNone_iff_eq_none.mp started), own]
  rfl

theorem State.report_other (other : ((s.hauled p 1).span p.span.toNat).isOpen p.step.toNat p.attempt.toNat = false) (kind : ReportKind)
    (count status : BitVec 16) (w : BitVec 32) :
    exec (.report p kind count status w) s = .next ((s.hauled p 1).reportFailed p.span.toNat 1) := by
  refine State.carried_acts delivered ?_ _
  rw [if_neg (ne_true_of_eq_false fresh), if_neg (mt Option.isNone_iff_eq_none.mp started), other]
  rfl

end

/-! ### Abort-done -/

/-- What a change of sequencers keeps of every sequencer. -/
theorem State.seq_modSeq_keeps {α : Type} (π : Sequencer → α) {g : Sequencer → Sequencer} (keeps : ∀ q, π (g q) = π q) (s : State) (f e : Nat) :
    π ((s.modSeq f g).field e).seq = π (s.field e).seq := by
  show π ((s.fields.modify f fun x => { x with seq := g x.seq }).getD e _).seq = π (s.fields.getD e _).seq
  rw [List.getD_eq_getElem?_getD, List.getD_eq_getElem?_getD, List.getElem?_modify]
  cases s.fields[e]? with
  | none => rfl
  | some x =>
    by_cases here : f = e
    · simp [here, keeps]
    · simp [here]

theorem State.field_send (s : State) (master ty span step attempt : Nat) (dst : Dest) (status : Nat) (data : List Nat) (f : Nat) :
    (s.send master ty span step attempt dst status data).field f = s.field f := by
  simp [State.send, State.sendNth]

/-- A prologue that has not failed does not start again. -/
theorem State.prologueAgain_sound {f : Nat} (sound : (t.field f).seq.prologueFailed = false) : t.prologueAgain f = t := by
  rw [State.prologueAgain]
  split
  · rw [if_neg (by simp [sound])]
  · rfl

end Sys2Proof.Machine

/-! ### The statements -/

section
open Sys2Proof Sys2Proof.Machine

/-- Settles O14. -/
theorem reports : Obligations.Reports := by
  intro s
  dsimp only
  refine ⟨fun f k n a opened due => ?ready, fun f k n a opened aborting due clear => ?abortDone,
    fun p count status w delivered fresh started => ⟨fun own => ⟨fun aborting => ?aborting, fun live => ?live⟩,
      fun other kind => ?other⟩⟩
  case ready =>
    rw [exec_readyReport, execReadyReport, opened]
    exact congrArg _ (if_pos due)
  case abortDone =>
    have clears : exec (.abortDone f) s = .next ((((s.modSpan k Span.unmarked).modSeq f fun q =>
        { q with abortDue := false, window := 0, failedBits := 0, reported := false }).send (pierMaster f) tyReport k n a (s.anchorDst k) 0
          [2, 1, 0]).prologueAgain f) := by
      rw [exec_abortDone, execAbortDone, opened]
      exact congrArg (fun t : State => Host.Outcome.next (t.prologueAgain f)) (if_pos ⟨aborting, due, clear⟩)
    refine ⟨clears, fun sound => clears.trans (congrArg _ (State.prologueAgain_sound ?_))⟩
    rw [State.field_send, State.seq_modSeq_keeps Sequencer.prologueFailed]
    · exact sound
    · exact fun _ => rfl
  case aborting =>
    have own := State.report_own delivered fresh started own
    refine ⟨?_, ?_, ?_⟩
    · rw [own, State.reported, State.reportReady, if_pos (.inr aborting), State.reportFailed_aborting aborting]
    · rw [own, State.reported, State.reportFailed_aborting aborting]
    · rw [own, State.reported, State.reportAbortDone, if_pos aborting]
  case live =>
    have own := State.report_own delivered fresh started own
    refine ⟨fun clean => ?_, fun failing => ?_, ?_⟩
    · rw [own, State.reported, State.reportReady, if_neg (not_or.2 ⟨not_not.2 clean, live⟩)]
    · rw [own, State.reported, State.reportReady, if_pos (.inl failing), State.reportFailed_open live]
    · rw [own, State.reported, State.reportFailed_open live]
  case other =>
    rw [State.report_other delivered fresh started other, State.reportFailed]

/-- Settles O15. -/
theorem keystones : Obligations.Keystones := by
  intro s
  dsimp only
  refine ⟨fun k running decided reachable => ?done, fun k running waits => ?waits, fun k rest => ?ignored,
    fun p w delivered fresh used same => ⟨fun f => ?pier, ?engine, ?supervisor⟩, fun k => rfl, fun f k member committing reported => ?lost⟩
  case done =>
    rw [exec_keystoneReadbackDone, execKeystoneReadbackDone, if_neg (not_not.2 running), if_pos ⟨decided, reachable⟩]
    rfl
  case waits =>
    have none : ¬ ((s.span k).step = some .decided ∧ s.copiesReachable k = true) := by
      rintro ⟨decided, reachable⟩
      rcases waits with other | away
      · exact other decided
      · simp [reachable] at away
    rw [exec_keystoneReadbackDone, execKeystoneReadbackDone, if_neg (not_not.2 running), if_neg none]
  case ignored => rw [exec_keystoneReadbackDone, execKeystoneReadbackDone, if_pos rest, State.ignored]
  case pier =>
    refine State.carried_acts delivered ?_ _
    rw [if_neg (ne_true_of_eq_false fresh), if_neg (not_not.2 same), if_neg used]
  case engine =>
    refine State.carried_acts delivered ?_ _
    rw [if_neg (ne_true_of_eq_false fresh), if_neg (not_not.2 same), if_neg used]
  case supervisor =>
    refine State.carried_acts delivered ?_ _
    rw [if_neg (ne_true_of_eq_false fresh), if_neg (not_not.2 same), if_neg used]
  case lost =>
    rw [exec_pierCommitTimeout, execPierCommitTimeout, member]
    exact congrArg _ (if_pos ⟨committing, reported⟩)

/-- Settles O17. -/
theorem abortAndOpen : Obligations.AbortAndOpen := by
  intro s p f delivered
  dsimp only
  refine fun fresh => ⟨fun rest => ?ignored, fun running member current => ?abort, fun w member opened own => ?opened⟩
  case ignored =>
    refine State.carried_acts delivered ?_ _
    rw [if_neg (ne_true_of_eq_false fresh), if_pos rest, State.ignored]
  case abort =>
    refine State.carried_acts delivered ?_ _
    rw [if_neg (ne_true_of_eq_false fresh), if_neg (not_not.2 running), if_pos ⟨member, current⟩]
  case opened =>
    refine State.carried_acts delivered ?_ _
    rw [if_neg (ne_true_of_eq_false fresh), if_pos ⟨member, opened, own⟩]

/-- Settles O19. -/
theorem spanEvents : Obligations.SpanEvents := by
  intro s k
  dsimp only
  refine ⟨fun paused due done => ?epoch, fun loading => ?loaded, fun loading => ?mismatch, fun other => ⟨?late, ?lateMismatch⟩,
    fun resetting => ?drained, fun other => ?notDraining, fun n r queue => ⟨fun ready => ?arrival, fun notReady notRunning => ?noArrival⟩,
    fun src n paired fresh newer => ⟨fun here => ?notice, fun gone => ?returned⟩, fun verify turn closed => ?timeout⟩
  case epoch =>
    rw [exec_epochWaitEnd, execEpochWaitEnd, if_pos ⟨paused, due, by rw [done]; rfl⟩, State.newEpoch]
    rfl
  case loaded => rw [exec_weightLoadDone, execWeightLoadDone, if_neg (not_not.2 loading)]
  case mismatch =>
    refine ⟨0x0A00 + (s.free 8).toNat, ?_⟩
    rw [exec_weightLoadDone, execWeightLoadDone, if_neg (not_not.2 loading)]
    rfl
  case late => rw [exec_weightLoadDone, execWeightLoadDone, if_pos other, State.ignored]
  case lateMismatch => rw [exec_weightLoadDone, execWeightLoadDone, if_pos other, State.ignored]
  case drained =>
    rw [exec_spanDrained, execSpanDrained]
    exact congrArg _ (if_pos resetting)
  case notDraining =>
    rw [exec_spanDrained, execSpanDrained]
    exact congrArg _ (if_neg other)
  case arrival =>
    rw [exec_requestArrival, execRequestArrival, queue]
    exact congrArg _ (if_pos ready)
  case noArrival =>
    rw [exec_requestArrival, execRequestArrival, queue]
    exact congrArg _ (if_neg (not_or.2 ⟨notReady, notRunning⟩))
  case notice =>
    rw [exec_pairingNotice, execPairingNotice, if_pos ⟨paired, fresh, newer⟩]
    dsimp only
    rw [if_neg (ne_true_of_eq_false here)]
  case returned =>
    rw [exec_pairingNotice, execPairingNotice, if_pos ⟨paired, fresh, newer⟩]
    dsimp only
    rw [if_pos gone]
  case timeout =>
    rw [exec_proposalTimeout, execProposalTimeout, if_pos ⟨verify, by rw [turn]; rfl, by rw [closed]; rfl⟩]

end
end

section
/-! Programs, the completion of instructions, verdicts and spin, and the banks of a scratchpad (R88 to R105, R138 to R160, R167, R168, R173,
R373, R375). -/

namespace Sys2Proof.Machine

variable {s : State}

/-! ### The completion of an instruction (R173) -/

/-- What the completion of waiting instructions leaves of a sequencer. -/
def Sequencer.sameProgram (q r : Sequencer) : Prop := r.inFlight = q.inFlight ∧ r.pc = q.pc ∧ r.idx = q.idx ∧ r.image = q.image

theorem Sequencer.sameProgram_setToken (q : Sequencer) (t : Option Nat) (b : Bool) : q.sameProgram (q.setToken t b) := by
  cases t <;> exact ⟨rfl, rfl, rfl, rfl⟩

theorem Sequencer.sameProgram_trans {q r x : Sequencer} (h : q.sameProgram r) (k : r.sameProgram x) : q.sameProgram x := by
  obtain ⟨flight, pc, idx, image⟩ := h
  obtain ⟨flight', pc', idx', image'⟩ := k
  exact ⟨flight'.trans flight, pc'.trans pc, idx'.trans idx, image'.trans image⟩

theorem Sequencer.sameProgram_complete (q : Sequencer) (w : Waiting) : q.sameProgram (q.complete w) := by
  have freed := Sequencer.sameProgram_setToken { q with waiting := q.waiting.erase w } w.token false
  unfold Sequencer.complete
  split <;> exact freed

theorem Sequencer.sameProgram_drainWaiting (still : Bool) (n : Nat) (q : Sequencer) : q.sameProgram (Sequencer.drainWaiting still n q) := by
  induction n generalizing q with
  | zero => exact ⟨rfl, rfl, rfl, rfl⟩
  | succ n ih =>
    unfold Sequencer.drainWaiting
    split
    · exact ⟨rfl, rfl, rfl, rfl⟩
    · exact Sequencer.sameProgram_trans (Sequencer.sameProgram_complete q _) (ih _)

/-- The sequencer of a pier when an instruction in flight has completed. -/
def Sequencer.finished (q : Sequencer) (still : Bool) (x : InFlight) : Sequencer :=
  let r := ({ q with inFlight := q.inFlight.erase x }).setToken x.token false
  Sequencer.drainWaiting still (r.waiting.length + 1) r

theorem Sequencer.finished_program (q : Sequencer) (still : Bool) (x : InFlight) :
    ({ q with inFlight := q.inFlight.erase x } : Sequencer).sameProgram (q.finished still x) :=
  Sequencer.sameProgram_trans (Sequencer.sameProgram_setToken _ _ _) (Sequencer.sameProgram_drainWaiting _ _ _)

theorem State.finish_modSeq (s : State) (f : Nat) (x : InFlight) :
    s.finish f x = s.modSeq f fun q => q.finished (s.fetchSlots f == 0) x := by
  rw [State.finish, State.wakeWaiting, State.modSeq_modSeq]
  rfl

/-- UNIT_COMPLETION of a unit that has an instruction to complete. -/
def State.unitDone (s : State) (f : Nat) (done : Completion) (x : InFlight) : State :=
  match done.unit with
  | .array =>
    if (s.field f).array.spin = .preRamp then s
    else
      let t := ((s.finish f x).modArray f ArrayS.nextTile).bump regPasses f 1
      if t.arrayBusy f then t else t.arrayIdle f
  | .vector => ((s.finish f x).bump regVecOps f 1).vectorNext f
  | .mesh => s.collDone f done.faults x
  | .turn | .fetch => s.finish f x

theorem State.unitCompletion_done {f : FieldId} {done : Completion} {x : InFlight} (awake : (s.field f).state ≠ .drawbridge)
    (oldest : s.completes f done.unit = some x) : exec (.unitCompletion f done) s = .next (s.unitDone f done x) := by
  rw [exec_unitCompletion, execUnitCompletion, oldest]
  exact congrArg _ (if_neg awake)

end Sys2Proof.Machine

/-! ### The statements -/

section
open Sys2Proof Sys2Proof.Machine

/-- Settles O20. -/
theorem programs : Obligations.Programs := by
  intro s f
  dsimp only
  refine ⟨fun image head l may found size bytes => ⟨fun good => ?load, fun n pc bad => ?refuse⟩, fun loaded => ⟨?clean, ?corrected, ?uncorrectable⟩,
    fun damaged => ?rewrite, fun awake l => ⟨fun x oldest => ?vector, fun x oldest => ?turn, fun x oldest => ?fetch, fun x oldest => ?mesh,
      fun x oldest level => ?array⟩, fun u l idle => ?idle, fun x l wf awake oldest => ?kept⟩
  case load =>
    rw [exec_programLoad, execProgramLoad, found]
    dsimp only
    rw [Option.getD_some, if_pos size, if_pos size, bytes, Option.getD_some, good, may]
    rfl
  case refuse =>
    rw [exec_programLoad, execProgramLoad, found]
    dsimp only
    rw [Option.getD_some, if_pos size, if_pos size, bytes, Option.getD_some, bad, may]
    rfl
  case clean => rw [exec_progmemScrub, execProgmemScrub, if_neg (mt Option.isNone_iff_eq_none.mp loaded)]
  case corrected => rw [exec_progmemScrub, execProgmemScrub, if_neg (mt Option.isNone_iff_eq_none.mp loaded)]
  case uncorrectable => rw [exec_progmemScrub, execProgmemScrub, if_neg (mt Option.isNone_iff_eq_none.mp loaded)]
  case rewrite => rw [exec_progmemRewriteDone, execProgmemRewriteDone, if_pos damaged]
  case vector => exact State.unitCompletion_done awake oldest
  case turn => exact State.unitCompletion_done awake oldest
  case fetch => exact State.unitCompletion_done awake oldest
  case mesh => exact State.unitCompletion_done awake oldest
  case array => exact (State.unitCompletion_done awake oldest).trans (congrArg _ (if_neg level))
  case idle =>
    rw [exec_unitCompletion, execUnitCompletion]
    dsimp only
    rcases idle with none | asleep
    · rw [none]
    · cases s.completes f u with
      | none => rfl
      | some x => exact congrArg _ (if_pos asleep)
  case kept =>
    obtain ⟨flight, pc, idx, image⟩ := Sequencer.finished_program (s.field f).seq (s.fetchSlots f == 0) x
    refine ⟨_, (State.unitCompletion_done awake oldest).trans (congrArg _ (State.finish_modSeq s f x)), State.onlySeq_modSeq _ _, ?_⟩
    rw [State.field_modSeq _ _ (State.fieldLt wf f)]
    exact ⟨flight, pc, idx, image⟩

/-- Settles O21. -/
theorem verdictsAndSpin : Obligations.VerdictsAndSpin := by
  intro s f
  dsimp only
  refine ⟨fun pass l v c awake due held => ⟨fun clean => ?clean, fun failing => ?failing⟩, fun q l v due => ⟨fun clean => ?lanes, fun seen => ?seen⟩,
    fun spinning => ?threshold, fun ramping => ?ramped, fun rising => ?risen, fun rest => ⟨?_, ?_, ?_⟩⟩
  case clean =>
    rw [exec_checksumVerdict, execChecksumVerdict]
    dsimp only
    rw [due]
    dsimp only
    rw [if_neg awake, held, Option.getD_some, if_pos clean]
  case failing =>
    rw [exec_checksumVerdict, execChecksumVerdict]
    dsimp only
    rw [due]
    dsimp only
    rw [if_neg awake, held, Option.getD_some, if_neg failing]
  case lanes =>
    rw [exec_vectorVerdict, execVectorVerdict]
    dsimp only
    rw [due]
    dsimp only
    rw [if_neg (ne_true_of_eq_false clean)]
  case seen =>
    rw [exec_vectorVerdict, execVectorVerdict]
    dsimp only
    rw [due]
    dsimp only
    rw [if_pos seen]
  case threshold => rw [exec_spinThresholdExpiry, execSpinThresholdExpiry, if_pos spinning]
  case ramped => rw [exec_spinRampEnd, execSpinRampEnd, if_pos ramping]
  case risen => rw [exec_preRampDone, execPreRampDone, if_pos rising]
  · rw [exec_spinThresholdExpiry, execSpinThresholdExpiry, if_neg (by simp [rest])]
  · rw [exec_spinRampEnd, execSpinRampEnd, if_neg (by simp [rest])]
  · rw [exec_preRampDone, execPreRampDone, if_neg (by simp [rest])]

/-- Settles O22: an ACTIVE bank looks at the lock of the row, then at its check bits if the access reads. -/
theorem bankAccesses : Obligations.BankAccesses := by
  intro s f b row m op ecc
  dsimp only
  have done (t : EccResult) (active : ((s.field f).bank b).state = .active) : exec (.bankAccess f b row m op t) s =
      .next (s.bankDo f b ⟨m, op, row.toNat, t, false⟩).settle := by
    rw [exec_bankAccess, execBankAccess, active]
  refine ⟨fun active free sound => ?good, fun active locked => ?locked, fun active free reads => ⟨?corrected, ?uncorrectable⟩, fun waking => ?waking,
    fun refuses => ?refuses, rfl, fun active => ?scrub⟩
  case good =>
    have clean : (if opReads op then ecc else .clean) = .clean := by
      rcases sound with blind | clean
      · rw [if_neg (ne_true_of_eq_false blind)]
      · rw [clean, ite_self]
    rw [done ecc active, State.bankDo, if_neg (ne_true_of_eq_false free), clean]
  case locked => rw [done ecc active, State.bankDo, if_pos locked]
  case corrected => rw [done _ active, State.bankDo, if_neg (ne_true_of_eq_false free), if_pos reads]
  case uncorrectable => rw [done _ active, State.bankDo, if_neg (ne_true_of_eq_false free), if_pos reads]
  case waking => rw [exec_bankAccess, execBankAccess, waking]
  case refuses =>
    rw [exec_bankAccess, execBankAccess]
    rcases refuses with state | state | state <;> rw [state]
  case scrub =>
    rw [exec_scrubRead, execScrubRead]
    exact congrArg _ (if_pos active)

/-- Settles O24. -/
theorem bankStates : Obligations.BankStates := by
  intro s f b
  dsimp only
  have at_work {row : BitVec 16} (active : ((s.field f).bank b).state = .active) (locked : ((s.field f).bank b).locked.contains row.toNat = true) :
      ¬ ((!((s.field f).bank b).locked.contains row.toNat) = true ∨ ((s.field f).bank b).state ≠ .active) := by
    rw [locked]
    simp [active]
  refine ⟨fun retain due => ?scrub, fun off => ?disabled, fun draining => ?drained, fun waking => ?woken, fun other => ?notWaking,
    fun row l active locked copy => ?repaired, fun row active locked missing => ?missing⟩
  case scrub => rw [exec_retainScrubDue, execRetainScrubDue, if_pos ⟨retain, due⟩]
  case disabled => rw [exec_retainScrubDue, execRetainScrubDue, if_neg fun both => both.2 off]
  case drained =>
    rw [exec_bankDrained, execBankDrained]
    exact congrArg _ (if_pos draining)
  case woken =>
    rw [exec_bankWakeDone, execBankWakeDone, State.bankAwake, if_pos waking, if_pos waking]
  case notWaking =>
    rw [exec_bankWakeDone, execBankWakeDone]
    exact congrArg _ (if_neg other)
  case repaired =>
    rw [exec_rowRepair, execRowRepair]
    dsimp only
    rw [if_neg (at_work active locked), if_pos rfl, if_pos locked, copy]
  case missing =>
    rw [exec_rowRepair, execRowRepair]
    dsimp only
    rw [if_neg (at_work active locked), if_pos rfl, if_pos locked, missing]

end
end

section
/-! Digest passes, weight rewrites, test segments, diagnostic tests, probes and the reloads of a recovery (R384, R385, R388 to R390, R403 to R413,
R587). -/

namespace Sys2Proof.Machine

variable {s : State}

theorem foldl_fixed {α β : Type} {g : β → α → β} (l : List α) (fixed : ∀ t x, g t x = t) (t : β) : l.foldl g t = t := by
  induction l with
  | nil => rfl
  | cons x l ih => rw [List.foldl_cons, fixed, ih]

end Sys2Proof.Machine

/-! ### The statements -/

section
open Sys2Proof Sys2Proof.Machine

/-- Settles O25: a pass without RESIDENT banks has no digest to compare. -/
theorem digestsAndTests : Obligations.DigestsAndTests := by
  intro s f b
  dsimp only
  refine ⟨fun barred => ?barred, fun may none => ?passEnd, fun rewriting none => ?matched, fun first => ?mismatch, fun k second member => ?stopped,
    fun none r => ?idle, fun unit pattern none sound on may high => ?start, fun unit pattern off => ?off,
    fun unit pattern charged running sound high => ?ended, fun unit pattern charged running rerun high => ?rerun,
    fun unit pattern charged running last high => ?confirmed, fun none => ?overdue⟩
  case barred => rw [exec_digestPassEnd, execDigestPassEnd, if_pos ((Bool.not_eq_true' _).mpr barred)]
  case passEnd =>
    rw [exec_digestPassEnd, execDigestPassEnd, if_neg (mt (Bool.not_eq_true' _).mp (ne_false_of_eq_true may)), none]
    refine congrArg _ (congrArg State.settle ?_)
    exact foldl_fixed _ (fun _ _ => rfl) _
  case matched =>
    rw [exec_weightRewriteDone, execWeightRewriteDone]
    dsimp only
    rw [if_neg rewriting, none]
  case mismatch =>
    rw [exec_weightRewriteDone, execWeightRewriteDone]
    dsimp only
    rw [if_neg (by rw [first]; decide), if_pos first]
  case stopped =>
    rw [exec_weightRewriteDone, execWeightRewriteDone]
    dsimp only
    rw [if_neg (by rw [second]; decide), if_neg (by rw [second]; decide), member]
  case idle => exact congrArg _ (if_pos none)
  case start =>
    have first : s.rerunAllowed f unit.toNat pattern.toNat = false := by simp [State.rerunAllowed, sound]
    rw [exec_segmentStart, execSegmentStart, first]
    dsimp only
    rw [if_neg (show ¬ (s.tests.segment.isSome = true ∨ _) from not_or.2 ⟨by simp [none], on⟩), if_pos (.inr ⟨by rw [sound]; rfl, may⟩), if_neg (Nat.not_le.2 high)]
    rfl
  case off =>
    rw [exec_segmentStart, execSegmentStart]
    exact congrArg _ (if_pos (.inr off))
  case ended =>
    rw [exec_segmentEnd, execSegmentEnd, running]
    dsimp only
    rw [if_neg (not_not.2 rfl), if_neg (Nat.not_le.2 high), sound]
    rfl
  case rerun =>
    rw [exec_segmentEnd, execSegmentEnd, running]
    dsimp only
    rw [if_neg (not_not.2 rfl), if_neg (Nat.not_le.2 high), rerun]
    rfl
  case confirmed =>
    rw [exec_segmentEnd, execSegmentEnd, running]
    dsimp only
    rw [if_neg (not_not.2 rfl), if_neg (Nat.not_le.2 high), last]
    rfl
  case overdue => rw [exec_coverageOverdue, execCoverageOverdue, none]

/-- Settles O26. -/
theorem recoveries : Obligations.Recoveries := by
  intro s
  dsimp only
  refine ⟨fun u v located exists' => ⟨?found, ?nothing⟩, fun u found suspect => ?suspect, fun f probed => ?probe,
    fun k l g supervised paused spare stood => ⟨?spareMatches, ?spareMismatch⟩,
    fun k l i head bytes supervised paused plan headRead size imageRead good => ⟨?planMatches, ?planMismatch⟩⟩
  case found =>
    have hits : (([v] : List Word32).map (·.toNat)).filter unitExists = [v.toNat] := by simp [exists']
    rw [exec_diagnosticTestDone, execDiagnosticTestDone, hits, if_pos located, State.locatedDone, List.isEmpty_cons, if_neg Bool.false_ne_true]
    rfl
  case nothing =>
    rw [exec_diagnosticTestDone, execDiagnosticTestDone, if_pos located, State.locatedDone, if_pos (by rfl)]
  case suspect =>
    rw [exec_diagnosticTestDone, execDiagnosticTestDone, if_neg (ne_true_of_eq_false suspect)]
  case probe => rw [exec_probeTimeout, execProbeTimeout, if_pos probed]
  case spareMatches =>
    rw [exec_spareReloadDone]
    unfold execSpareReloadDone
    dsimp only
    rw [supervised, paused, spare, stood]
    rfl
  case spareMismatch =>
    rw [exec_spareReloadDone]
    unfold execSpareReloadDone
    dsimp only
    rw [supervised, paused, spare, stood]
    rfl
  case planMatches =>
    rw [exec_planReloadDone, execPlanReloadDone, supervised]
    dsimp only
    rw [paused, plan]
    dsimp only
    rw [headRead, Option.getD_some, if_pos size, imageRead, Option.getD_some, good]
    rfl
  case planMismatch =>
    rw [exec_planReloadDone, execPlanReloadDone, supervised]
    dsimp only
    rw [paused, plan]
    dsimp only
    rw [headRead, Option.getD_some, if_pos size, imageRead, Option.getD_some, good]
    rfl

end
end

section
/-! What arrives over the mesh: contributions, barriers, rows, signals, requests on memory and responses (R16, R51, R139, R158, R173, R182 to R186, R216,
R283 to R310, R379 to R381). -/

namespace Sys2Proof.Machine

variable {s u : State} {p : Pkt}

/-- A target refuses what it does not grant (R16, R284). -/
theorem State.atTarget_refuses {a n code : Nat} {right : Right} (current : addrRegion a = 8 → s.stale p = false) (failing : code ≠ 0)
    (refused : s.accessCode p.master.toNat p.span.toNat right a n = code) (c : Instr) (act : State → State) :
    s.atTarget c p right a n act = (s.refused p.master.toNat p.span.toNat right a n code).answer p tyNack code [] := by
  have fresh : ¬ (addrRegion a = 8 ∧ s.stale p = true) := fun h => by simp [current h.1] at h
  rw [State.atTarget, if_neg fresh, refused]
  exact if_neg failing

/-- A granted access that meets a WAKING bank waits there (R158). -/
theorem State.atTarget_sleeps {a n : Nat} {right : Right} (current : addrRegion a = 8 → s.stale p = false)
    (granted : s.accessCode p.master.toNat p.span.toNat right a n = 0) (asleep : s.windowAsleep a n = true) (c : Instr) (act : State → State) :
    s.atTarget c p right a n act = s.sleep c := by
  have fresh : ¬ (addrRegion a = 8 ∧ s.stale p = true) := fun h => by simp [current h.1] at h
  rw [State.atTarget, if_neg fresh]
  exact (if_pos granted).trans (if_pos asleep)

/-! ### Responses -/

/-- A failed request of a unit other than a supervisor (R193, R284, R295). -/
theorem State.requestFailed_reports {o : Outstanding} {code : Nat} {master tag : Nat} (open' : s.outstanding master tag = some o)
    (unit : o.master / 256 ≠ 5) (own : o.ahead = none) :
    let t := s.endRequest master tag
    s.requestFailed master tag code =
      (if o.write then t.modSeq o.field fun q => { q with writesOpen := q.writesOpen - 1 } else t).failed o.field (nackBit code) := by
  simp only [State.requestFailed, open', if_neg unit, own, Option.isSome_none, Bool.false_eq_true, if_false]

theorem State.requestFailed_ahead {o : Outstanding} {code x : Nat} {master tag : Nat} (open' : s.outstanding master tag = some o)
    (unit : o.master / 256 ≠ 5) (ahead : o.ahead = some x) :
    s.requestFailed master tag code = (s.endRequest master tag).dropAhead o.field fun a => a.tags.contains tag := by
  simp only [State.requestFailed, open', if_neg unit, ahead, Option.isSome_some, if_true]

end Sys2Proof.Machine

/-! ### The statements -/

section
open Sys2Proof Sys2Proof.Machine

/-- Settles O27. -/
theorem arrivals : Obligations.Arrivals := by
  intro u p f n delivered
  dsimp only
  intro fresh
  have stale := ne_true_of_eq_false fresh
  have own {t : State} (started : (t.span p.span.toNat).step ≠ none) (step : (t.span p.span.toNat).committed + 1 = p.step.toNat)
      (attempt : (t.span p.span.toNat).attempt = p.attempt.toNat) : ¬ ((t.span p.span.toNat).step.isNone = true ∨
        (t.span p.span.toNat).committed + 1 ≠ p.step.toNat ∨ (t.span p.span.toNat).attempt ≠ p.attempt.toNat) :=
    not_or.2 ⟨mt Option.isNone_iff_eq_none.mp started, not_or.2 ⟨not_not.2 step, not_not.2 attempt⟩⟩
  refine ⟨fun c l size calm opened => ⟨fun good => ?coll, fun bad => ?digest⟩, fun g q c size calm started step attempt =>
    ⟨fun fewer => ?arrive, fun root ms group all => ?release⟩, fun g q t size opened waits => ?released,
    fun chan => ⟨fun r l size granted => ⟨fun awake => ⟨?rows, fun g => ?mcast⟩, fun asleep => ?rowsWait⟩,
      fun size up calm power => ⟨fun opened => ?signal, fun closed => ?dropped⟩⟩⟩
  case coll =>
    subst size
    refine State.carried_acts delivered ?_ _
    rw [if_neg stale, if_neg (ne_true_of_eq_false calm), if_neg (not_not.2 opened)]
    exact if_pos good
  case digest =>
    subst size
    refine State.carried_acts delivered ?_ _
    rw [if_neg stale, if_neg (ne_true_of_eq_false calm), if_neg (not_not.2 opened)]
    exact if_neg bad
  case arrive =>
    subst size
    refine State.carried_acts delivered ?_ _
    rw [if_neg stale, if_neg (ne_true_of_eq_false calm), if_neg (own started step attempt), State.barrierArrive]
    exact if_neg (Nat.not_le.2 fewer)
  case release =>
    subst size
    refine State.carried_acts delivered ?_ _
    rw [if_neg stale, if_neg (ne_true_of_eq_false calm), if_neg (own started step attempt), State.barrierArrive, group]
    exact if_pos all
  case released =>
    subst size
    refine State.carried_acts delivered ?_ _
    rw [if_neg stale, if_neg (not_not.2 opened)]
    dsimp only
    rw [waits, List.find?_cons_of_pos (by simp)]
  case rows =>
    subst size
    refine State.carried_acts delivered ?_ _
    rw [atRows, State.rowsArrive, State.atTarget_grants (fun _ => fresh) granted awake]
  case mcast =>
    subst size
    refine State.carried_acts delivered ?_ _
    rw [atMcastData, State.rowsArrive, State.atTarget_grants (fun _ => fresh) granted awake]
  case rowsWait =>
    subst size
    refine State.carried_acts delivered ?_ _
    rw [atRows, State.rowsArrive, State.atTarget_sleeps (fun _ => fresh) granted asleep, State.sleep]
  case signal =>
    subst size
    refine State.carried_acts delivered ?_ _
    rw [if_neg stale, up, if_neg (by decide), if_neg (ne_true_of_eq_false calm), if_neg (not_not.2 power), if_neg (not_not.2 opened)]
  case dropped =>
    subst size
    refine State.carried_acts delivered ?_ _
    rw [if_neg stale, up, if_neg (by decide), if_neg (ne_true_of_eq_false calm), if_neg (not_not.2 power), if_pos closed]

/-- Settles O29. -/
theorem memoryRequests : Obligations.MemoryRequests := by
  intro u p addr l n delivered
  dsimp only
  intro memory fresh
  refine ⟨fun len size => ⟨fun granted => ?read, fun c failing refused => ?readRefused⟩, fun size granted awake op x y => ?atomic,
    fun granted awake => ⟨fun size => ?small, fun size => ?write⟩, fun c size failing refused => ?writeRefused,
    fun size granted line current awake => ?readback⟩
  case read =>
    subst size
    refine State.carried_acts delivered ?_ _
    rw [atRead, if_neg memory]
    by_cases asleep : (u.hauled p 1).windowAsleep addr.toNat len.toNat = true
    · rw [State.atTarget_sleeps fresh granted asleep, if_pos asleep, State.sleep]
    · rw [State.atTarget_grants fresh granted (Bool.eq_false_iff.2 asleep), if_neg asleep]
  case readRefused =>
    subst size
    refine State.carried_acts delivered ?_ _
    rw [atRead, if_neg memory, State.atTarget_refuses fresh failing refused]
  case atomic =>
    subst size
    refine State.carried_acts delivered ?_ _
    rw [atAtomic, if_neg memory, State.atTarget_grants fresh granted awake]
  case small =>
    subst size
    refine State.carried_acts delivered ?_ _
    rw [State.writeRequest_granted memory fresh granted awake]
    rfl
  case write =>
    subst size
    refine State.carried_acts delivered ?_ _
    rw [State.writeRequest_granted memory fresh granted awake]
    rfl
  case writeRefused =>
    subst size
    refine State.carried_acts delivered ?_ _
    rw [State.writeRequest, if_neg memory, State.atTarget_refuses fresh failing refused]
  case readback =>
    subst size
    refine State.carried_acts delivered ?_ _
    rw [atReadback, if_neg line, State.atTarget_grants current granted awake]

/-- Settles O31. -/
theorem responses : Obligations.Responses := by
  intro u p n delivered
  dsimp only
  intro fresh
  have stale := ne_true_of_eq_false fresh
  refine ⟨fun none => ⟨fun l size => ?noRead, fun w size => ?noAck⟩, fun o found => ⟨fun d l size dest => ?landed, fun w size serial => ?acked,
    fun c size unit own => ?failed, fun c x size unit ahead => ?aheadFailed, ?lost⟩, fun g f size => ⟨fun none => ⟨?noMcast, ?noReset⟩,
      fun m found => ⟨?credit, fun a b c target third => ?dropped⟩⟩, fun k g f => ⟨fun none => ?noTarget, fun m found => ?timedOut⟩⟩
  case noRead =>
    subst size
    refine State.carried_acts delivered ?_ _
    rw [atReadData, if_neg stale, none]
  case noAck =>
    subst size
    refine State.carried_acts delivered ?_ _
    rw [if_neg stale, none]
  case landed =>
    subst size
    refine State.carried_acts delivered ?_ _
    rw [atReadData, if_neg stale, found]
    dsimp only
    rw [dest]
    rfl
  case acked =>
    subst size
    refine State.carried_acts delivered ?_ _
    rw [if_neg stale, found]
    exact if_neg serial
  case failed =>
    subst size
    refine State.carried_acts delivered ?_ _
    rw [if_neg stale, State.requestFailed_reports found unit own]
  case aheadFailed =>
    subst size
    refine State.carried_acts delivered ?_ _
    rw [if_neg stale, State.requestFailed_ahead found unit ahead]
  case lost =>
    rw [exec_responseTimeout, execResponseTimeout, found]
    refine congrArg _ (if_neg ?_)
    rw [Option.isNone_some, Bool.and_false]
    exact Bool.false_ne_true
  case noMcast =>
    subst size
    refine State.carried_acts delivered ?_ _
    rw [if_neg stale, State.mcastAcked, none]
  case noReset =>
    subst size
    refine State.carried_acts delivered ?_ _
    rw [if_neg stale, State.mcastResend, none]
  case credit =>
    subst size
    refine State.carried_acts delivered ?_ _
    rw [if_neg stale, State.mcastAcked, found]
  case dropped =>
    subst size
    refine State.carried_acts delivered ?_ _
    rw [if_neg stale, State.mcastResend, found]
    dsimp only
    rw [target, Option.getD_some, if_pos third]
  case noTarget => rw [exec_mcastTargetTimeout, execMcastTargetTimeout, none]
  case timedOut => rw [exec_mcastTargetTimeout, execMcastTargetTimeout, found]

end
end

section
/-! The commands of a mover channel and its states (R51, R158, R321 to R347, R364). -/

namespace Sys2Proof.Machine

variable {s t : State} {p : Pkt}

/-- A write to a mover's window with the configure right: it is performed, or refused (R322). -/
theorem State.windowWrite_granted {f c : Nat} (fresh : t.stale p = false) (up : t.reachable f = true)
    (right : t.granted (targetMover f) p.master.toNat p.span.toNat .c [c] = true) (stream : Bool) (offset : Nat) (g : State → Option State) :
    t.windowWrite p stream f c offset g = match g t with
      | some u => u.performed p stream
      | none => t.answer p tyNack nackAccess [] := by
  unfold State.windowWrite
  exact (if_neg (ne_true_of_eq_false fresh)).trans ((if_neg (by simp [up])).trans (if_neg (by simp [right])))

/-- Without the configure right the write is a violation (R364). -/
theorem State.windowWrite_violates {f c : Nat} (fresh : t.stale p = false) (up : t.reachable f = true)
    (none : t.granted (targetMover f) p.master.toNat p.span.toNat .c [c] = false) (stream : Bool) (offset : Nat) (g : State → Option State) :
    t.windowWrite p stream f c offset g =
      (t.violation (targetMover f) p.master.toNat p.span.toNat .c offset).answer p tyNack nackAccess [] := by
  unfold State.windowWrite
  rw [if_neg (ne_true_of_eq_false fresh), up, if_neg (by decide), none, if_pos (by decide)]

/-- GO, ARM_SHADOW, STOP and CLEAR are writes to the control offset of the channel (R324). -/
theorem mover_command {f : FieldId} {ch : Idx16} {i : Instr} (command : i = .go p f ch ∨ i = .armShadow p f ch ∨ i = .stop p f ch ∨ i = .clear p f ch)
    (s : State) : ∃ g : State → Option State, exec i s =
      .next (s.carried tySmallWrite 1 p fun t => t.windowWrite p false f ch (windowOffset ch 0x80) g) := by
  rcases command with rfl | rfl | rfl | rfl <;> exact ⟨_, rfl⟩

/-- A write to the ACTIVE set is taken by a channel that is IDLE or in ERROR only (R325). -/
theorem moverSetWrite_active {f c offset : Nat} {l : List Byte} (taken : moverSetWrite f c false offset l s = some t) :
    (((s.field f).mover c).state = .idle ∨ ((s.field f).mover c).state = .error) ∧
      t = s.modMover f c fun x => { x with active := .ofBytes (splice ((s.field f).mover c).active.toBytes offset l) } := by
  unfold moverSetWrite at taken
  dsimp only at taken
  rw [if_neg Bool.false_ne_true, if_neg Bool.false_ne_true] at taken
  split_ifs at taken with bad rest
  exact ⟨rest, (Option.some.inj taken).symm⟩

/-- SHADOW takes no write while it is valid (R325). -/
theorem moverSetWrite_armed {f c : Nat} (valid : ((s.field f).mover c).shadowValid = true) (offset : Nat) (l : List Byte) :
    moverSetWrite f c true offset l s = none := by
  unfold moverSetWrite
  dsimp only
  rw [if_pos rfl, if_pos rfl, if_pos valid, ite_self]

end Sys2Proof.Machine

/-! ### The statements -/

section
open Sys2Proof Sys2Proof.Machine

/-- Settles O33. -/
theorem moverCommands : Obligations.MoverCommands := by
  intro s p f ch delivered
  dsimp only
  refine ⟨fun fresh up => ⟨fun right => ⟨?go, ?stop, ?clear, fun sound => ?arm, fun bad => ?armBad, fun b o l v taken => ?set,
    fun b o l refused => ?setBad⟩, fun none i command => ?violation⟩, fun old i command => ?stale, fun o l => ?mailbox⟩
  case go => exact State.carried_acts delivered (State.windowWrite_granted fresh up right _ _ _) _
  case stop => exact State.carried_acts delivered (State.windowWrite_granted fresh up right _ _ _) _
  case clear => exact State.carried_acts delivered (State.windowWrite_granted fresh up right _ _ _) _
  case arm =>
    refine State.carried_acts delivered ((State.windowWrite_granted fresh up right _ _ _).trans ?_) _
    rw [moverArm, if_pos sound]
    rfl
  case armBad =>
    refine State.carried_acts delivered ((State.windowWrite_granted fresh up right _ _ _).trans ?_) _
    rw [moverArm, if_neg (ne_true_of_eq_false bad)]
  case set =>
    refine State.carried_acts delivered ((State.windowWrite_granted fresh up right _ _ _).trans ?_) _
    rw [taken]
    rfl
  case setBad =>
    refine State.carried_acts delivered ((State.windowWrite_granted fresh up right _ _ _).trans ?_) _
    rw [refused]
  case violation =>
    obtain ⟨g, run⟩ := mover_command command s
    exact run.trans (State.carried_acts delivered (State.windowWrite_violates fresh up none _ _ g) _)
  case stale =>
    obtain ⟨g, run⟩ := mover_command command s
    exact run.trans (State.carried_acts delivered (State.windowWrite_stale old ..) _)
  case mailbox => exact State.carried_acts delivered rfl _

/-- Settles O34. -/
theorem moverStates : Obligations.MoverStates := by
  intro s f ch
  dsimp only
  refine ⟨fun armed timer beacon => ?timer, fun preempted highest => ?resume, fun running awake => ?last, fun running asleep => ?waits,
    fun completing quiet => ?done, fun completing irq => ?doneIrq, fun stopping t torn => ⟨fun fault => ?fault, fun clean own => ?halted,
      fun clean own => ?aborted⟩, fun other => ?goOther, fun idle bad => ?goBad, fun armed => ?stopArmed, fun work => ?stopWork,
    fun other => ?stopOther, fun other => ?clearOther, fun b o l t set active => ?set, fun o l valid => ?setValid⟩
  case timer =>
    rw [exec_moverTimer, execMoverTimer]
    exact congrArg _ (if_pos ⟨armed, timer, beacon⟩)
  case resume =>
    rw [exec_moverResume, execMoverResume]
    refine congrArg _ (if_pos ⟨preempted, (Bool.not_eq_true' _).mpr (List.any_eq_false.2 fun x mem => ?_)⟩)
    simp only [Bool.and_eq_true, Bool.or_eq_true, beq_iff_eq, Nat.blt_eq, not_and, not_lt]
    exact highest x mem
  case last =>
    rw [exec_moverLastWrite, execMoverLastWrite, atMoverLastWrite, if_neg (not_not.2 running), if_neg (ne_true_of_eq_false awake)]
  case waits => rw [exec_moverLastWrite, execMoverLastWrite, atMoverLastWrite, if_neg (not_not.2 running), if_pos asleep]
  case done =>
    rw [exec_moverComplete, execMoverComplete, if_pos completing, moverDone, if_neg (ne_true_of_eq_false quiet)]
  case doneIrq =>
    rw [exec_moverComplete, execMoverComplete, if_pos completing, moverDone, if_pos irq]
  case fault =>
    rw [exec_moverStopped, execMoverStopped, if_pos stopping, moverHalt, torn]
    exact congrArg _ (if_pos fault)
  case halted =>
    rw [exec_moverStopped, execMoverStopped, if_pos stopping, moverHalt, torn]
    refine congrArg _ ((if_neg (ne_true_of_eq_false clean)).trans (if_neg ?_))
    simp [own]
  case aborted =>
    rw [exec_moverStopped, execMoverStopped, if_pos stopping, moverHalt, torn]
    refine congrArg _ ((if_neg (ne_true_of_eq_false clean)).trans (if_pos ?_))
    exact Option.isSome_iff_ne_none.2 own
  case goOther => exact if_pos other
  case goBad =>
    refine (if_neg (not_not.2 idle)).trans (if_neg ?_)
    exact ne_true_of_eq_false bad
  case stopArmed => rw [moverStop, armed]
  case stopWork =>
    rw [moverStop]
    rcases work with state | state <;> rw [state]
  case stopOther =>
    rw [moverStop]
    rcases other with state | state | state | state <;> rw [state]
  case clearOther => exact if_neg other
  case set =>
    subst active
    exact moverSetWrite_active set
  case setValid => exact moverSetWrite_armed valid o l

end
end

section
/-! The recorder, the references, drawbridges, beacons and PTP (R422, R426, R431, R434 to R436, R441 to R455). -/

namespace Sys2Proof.Machine

/-- A change of a field depends on the field it finds only. -/
theorem State.modField_congr {s : State} {f : Nat} {g k : Field → Field} (e : g (s.field f) = k (s.field f)) : s.modField f g = s.modField f k := by
  unfold State.modField
  congr 1
  apply List.ext_getElem?
  intro i
  simp only [List.getElem?_modify]
  by_cases here : f = i
  · subst here
    cases found : s.fields[f]? with
    | none => rfl
    | some x =>
      have own : s.field f = x := by simp [State.field, List.getD_eq_getElem?_getD, found]
      rw [own] at e
      simp [e]
  · simp [here]

theorem State.modClock_congr {s : State} {f : Nat} {g k : FieldClock → FieldClock} (e : g (s.field f).clock = k (s.field f).clock) :
    s.modClock f g = s.modClock f k := State.modField_congr (congrArg (fun c => { s.field f with clock := c }) e)

/-- What a beacon leaves of a field's clock (R449 to R451). -/
def State.beaconed (s : State) (f : Nat) (sent : Int) : State :=
  s.modClock f fun c =>
    { c.beacon s.now (s.beaconError f sent) with delays := if s.clocks.refState = .holdover then (sent :: c.delays).take 16 else [] }

/-- A beacon of a running timebase that reaches its field. -/
theorem State.beacon_reaches {s : State} {f : FieldId} (running : s.clocks.running = true) (up : s.reachable f = true) (error : BitVec 64) :
    let c := (s.field f).clock
    let e := s.beaconError f error.toInt
    let t := s.beaconed f error.toInt
    let u := if c.errors ≠ [] ∧ (e ≤ -100 ∨ 100 ≤ e) then t.event (pierMaster f) 0x0208 [] else t
    exec (.beacon f error) s = .next (if c.errors = [] ∨ e ≤ -100 then u.timersTry f else u) := by
  have same : s.beaconed f error.toInt = s.modClock f fun x => { x.beacon s.now (s.beaconError f error.toInt) with
      delays := if s.clocks.refState = .holdover then (error.toInt :: (s.field f).clock.delays).take 16 else [] } := State.modClock_congr rfl
  dsimp only
  rw [exec_beacon, execBeacon, same]
  exact congrArg _ (if_neg (by simp [running, up]))

theorem copyPlace_other (c : RefCopy) : copyPlace c ≠ copyPlace ⟨c.b, !c.backup⟩ := by
  cases c with
  | mk b backup => cases b <;> cases backup <;> decide

end Sys2Proof.Machine

/-! ### The statements -/

section
open Sys2Proof Sys2Proof.Machine

/-- Settles O35. -/
theorem recorderEvents : Obligations.RecorderEvents := by
  intro s
  dsimp only
  refine ⟨fun src n started dark retired oldest => ⟨fun plain => ?accepted, fun counts => ?lost⟩, fun src none => ?none,
    fun pending tokens powered whole => ?page, fun nothing => ?noPage, fun powered => ?refill⟩
  case accepted =>
    rw [exec_eventNotice, execEventNotice, State.acceptNotice, if_neg, oldest]
    · dsimp only
      rw [if_neg plain]
    · simp [Nat.not_lt.2 started, dark, retired]
  case lost =>
    rw [exec_eventNotice, execEventNotice, State.acceptNotice, if_neg, oldest]
    · dsimp only
      rw [if_pos counts]
    · simp [Nat.not_lt.2 started, dark, retired]
  case none => rw [exec_eventNotice, execEventNotice, State.acceptNotice, none, ite_self]
  case page =>
    rw [exec_flashPageWrite, execFlashPageWrite, if_neg]
    · exact congrArg _ (if_pos whole)
    · simp [pending, tokens, powered]
  case noPage =>
    rw [exec_flashPageWrite, execFlashPageWrite]
    refine congrArg _ (if_pos ?_)
    exact nothing.imp_right (Or.imp_right (Bool.not_eq_true' _).mpr)
  case refill => rw [exec_pageBucketRefill, execPageBucketRefill, if_pos powered]

/-- Settles O37. -/
theorem references : Obligations.References := by
  intro s c
  dsimp only
  refine ⟨fun bad => ?bad, fun good => ⟨fun taken other backup => ?backup, fun taken other first => ?first, fun spare => ?spare, fun none => ?none⟩,
    fun b locked lost other => ?holdover, fun b locked lost other => ?switch, fun locked other => ?good, fun holdover => ?ends,
    fun revert locked good => ?revert⟩
  case bad => rw [exec_refCopyBad, execRefCopyBad, if_pos ((Bool.not_eq_true' _).mpr bad)]
  case backup =>
    rw [exec_refCopyBad, execRefCopyBad, if_neg (mt (Bool.not_eq_true' _).mp (ne_false_of_eq_true good))]
    dsimp only
    rw [if_pos ⟨taken, other⟩, if_pos backup, backup]
    rfl
  case first =>
    rw [exec_refCopyBad, execRefCopyBad, if_neg (mt (Bool.not_eq_true' _).mp (ne_false_of_eq_true good))]
    dsimp only
    rw [if_pos ⟨taken, other⟩, if_neg (ne_true_of_eq_false first), first]
    rfl
  case spare =>
    rw [exec_refCopyBad, execRefCopyBad, if_neg (mt (Bool.not_eq_true' _).mp (ne_false_of_eq_true good))]
    dsimp only
    rw [if_neg fun both => spare both.1]
  case none =>
    rw [exec_refCopyBad, execRefCopyBad, if_neg (mt (Bool.not_eq_true' _).mp (ne_false_of_eq_true good))]
    dsimp only
    rw [if_neg fun both => ne_true_of_eq_false none both.2]
  case holdover => rw [State.reselect, locked]; simp only [lost, other, Bool.false_eq_true, if_false]
  case switch => rw [State.reselect, locked]; simp only [lost, other, Bool.false_eq_true, if_false, if_true]
  case good =>
    rw [exec_refCopyGood, execRefCopyGood]
    refine congrArg _ ((if_neg locked).trans (if_pos ?_))
    rw [State.modClocks_clocks, List.getD_eq_getElem?_getD, List.getElem?_set_ne (copyPlace_other c), ← List.getD_eq_getElem?_getD]
    exact other
  case ends =>
    rw [exec_refCopyGood, execRefCopyGood]
    exact ⟨_, _, congrArg _ (if_pos holdover), rfl⟩
  case revert =>
    rw [exec_refRevert, execRefRevert]
    exact congrArg _ (if_pos ⟨revert, locked, good⟩)

/-- Settles O38. -/
theorem fieldClocks : Obligations.FieldClocks := by
  intro s f
  dsimp only
  refine ⟨fun p stands free due may => ?starts, fun stands free barred => ?waits, fun ready serving => ?notStanding, fun ns bridge own => ?ends,
    fun ns other => ⟨?noEnd, ?noTimeout⟩, fun bridge relocking => ?timeout, fun on => ?droop, fun n stretching => ⟨?stretched, ?quarter⟩,
    fun e running up => ⟨fun first => ?firstBeacon, fun later low high => ?small, fun later ahead => ?ahead, fun later behind => ?behind⟩,
    fun v running up => ?notice, fun on => ⟨fun d => ?delay, fun i => ?announce, fun live => ?lost, fun o live once near far => ?sync⟩⟩
  case starts =>
    have standing : ¬ ((s.field f).state ≠ .ready ∧ (s.field f).state ≠ .serving) := fun other => stands.elim other.1 other.2
    rw [exec_drawbridgeStart, execDrawbridgeStart]
    dsimp only
    rw [if_neg standing, if_neg (ne_true_of_eq_false free), due]
    exact congrArg _ (if_pos may)
  case waits =>
    have standing : ¬ ((s.field f).state ≠ .ready ∧ (s.field f).state ≠ .serving) := fun other => stands.elim other.1 other.2
    rw [exec_drawbridgeStart, execDrawbridgeStart]
    dsimp only
    rw [if_neg standing, if_neg (ne_true_of_eq_false free)]
    cases due : (s.field f).power.drawTo with
    | none => rfl
    | some p => exact congrArg _ (if_neg (ne_true_of_eq_false (barred p due)))
  case notStanding =>
    rw [exec_drawbridgeStart, execDrawbridgeStart]
    exact congrArg _ (if_pos ⟨ready, serving⟩)
  case ends =>
    rw [exec_drawbridgeEnd, execDrawbridgeEnd]
    dsimp only
    cases (s.field f).clock.toPoint with
    | none =>
      dsimp only
      rw [if_neg (not_not.2 bridge), if_neg (ne_true_of_eq_false own)]
    | some p =>
      dsimp only
      rw [if_neg (not_not.2 bridge), if_neg (ne_true_of_eq_false own)]
  case noEnd =>
    rw [exec_drawbridgeEnd, execDrawbridgeEnd]
    exact congrArg _ (if_pos other)
  case noTimeout =>
    rw [exec_pllLockTimeout, execPllLockTimeout]
    exact congrArg _ (if_neg fun both => other both.1)
  case timeout =>
    rw [exec_pllLockTimeout, execPllLockTimeout]
    exact congrArg _ (if_pos ⟨bridge, relocking⟩)
  case droop => rw [exec_droopDetect, execDroopDetect, if_pos on]
  case stretched => rw [exec_stretchEnd, execStretchEnd, if_pos stretching]; rfl
  case quarter => rw [exec_stretchEnd, execStretchEnd, if_pos stretching]; rfl
  case firstBeacon => rw [State.beacon_reaches running up, if_pos (.inl first), if_neg fun both => both.1 first]; rfl
  case small =>
    rw [State.beacon_reaches running up, if_neg (not_or.2 ⟨later, Int.not_le.2 low⟩),
      if_neg fun both => both.2.elim (Int.not_le.2 low) (Int.not_le.2 high)]
    rfl
  case ahead => rw [State.beacon_reaches running up, if_neg (not_or.2 ⟨later, by omega⟩), if_pos ⟨later, .inr ahead⟩]; rfl
  case behind => rw [State.beacon_reaches running up, if_pos (.inr behind), if_pos ⟨later, .inl behind⟩]; rfl
  case notice =>
    rw [exec_beaconNotice, execBeaconNotice, if_pos (by simp [running, up])]
  case delay => rw [exec_ptpDelayResponse, execPtpDelayResponse, if_pos on]
  case announce => rw [exec_ptpAnnounce, execPtpAnnounce, if_pos on]
  case lost => rw [exec_ptpAnnounceTimeout, execPtpAnnounceTimeout, if_pos (by simp [on, live])]
  case sync =>
    rw [exec_ptpSync, execPtpSync]
    dsimp only
    rw [if_neg (by simp [on, live]), once, Bool.not_true, if_neg Bool.false_ne_true, if_neg near, if_neg far]
    rfl

end
end

section
/-! Links, route changes and timetables (R283, R299 to R315). -/

namespace Sys2Proof.Machine

/-- A replay of an ONLINE link that calls for no repair (R299, R300). -/
theorem replays_spared {failed : Bool} {n : Nat} {marked : List Nat} (none : marked = [])
    (spared : failed = false ∨ n < 3) : ¬ ((failed = true ∧ 4 ≤ n + 1) ∨ marked ≠ []) := by
  rintro (⟨third, many⟩ | some)
  · rcases spared with sound | few
    · simp [sound] at third
    · omega
  · exact some none

end Sys2Proof.Machine

/-! ### The statement -/

section
open Sys2Proof Sys2Proof.Machine

/-- Settles O32. -/
theorem linksAndTimetables : Obligations.LinksAndTimetables := by
  intro s r d
  dsimp only
  refine ⟨fun ws failed online none spared => ?replay, fun ws failed other => ?noReplay, fun repairing => ⟨?retired, fun none => ?repaired⟩,
    fun holding => ?holdEnd, rfl, fun k => ⟨fun head l state read size image good => ?loaded, fun window closed => ?start, fun opened => ?windowEnd,
      fun f n a opened window whole => ⟨fun ready => ?slot, ?late⟩, fun p f span delivered fresh opened window whole => ?slip⟩⟩
  case replay =>
    rw [exec_linkReplay, execLinkReplay, if_neg (not_not.2 online)]
    exact congrArg _ (if_neg (replays_spared none spared))
  case noReplay =>
    rw [exec_linkReplay, execLinkReplay]
    exact congrArg _ (if_pos other)
  case retired => rw [exec_linkRepairDone, execLinkRepairDone, if_neg (not_not.2 repairing)]; rfl
  case repaired =>
    have sound : (s.router r).unrepairable s.opSeconds d = false := by simp [Router.unrepairable, none]
    rw [exec_linkRepairDone, execLinkRepairDone, if_neg (not_not.2 repairing), sound]
    dsimp only
    rw [none]
    rfl
  case holdEnd =>
    rw [exec_routeHoldEnd, execRouteHoldEnd, holding]
    rfl
  case loaded =>
    rw [exec_timetableLoad, execTimetableLoad, read]
    dsimp only
    rw [Option.getD_some, if_pos size, if_pos size, image, Option.getD_some]
    rcases state with state | state <;> rw [state] <;> exact congrArg (fun t : State => Host.Outcome.next t.settle) (if_pos good)
  case start =>
    rw [exec_timetableWindowStart, execTimetableWindowStart]
    refine congrArg _ (if_pos ⟨Option.isSome_iff_ne_none.2 window, (Bool.not_eq_true' _).mpr closed⟩)
  case windowEnd => rw [exec_timetableWindowEnd, execTimetableWindowEnd, if_pos opened]
  case slot =>
    rw [exec_timetableSlot, execTimetableSlot, opened]
    dsimp only
    rw [window, whole]
    exact congrArg _ ((if_neg Bool.false_ne_true).trans (if_pos ⟨rfl, ready⟩))
  case late =>
    rw [exec_timetableSlot, execTimetableSlot, opened]
    dsimp only
    rw [window, whole]
    exact congrArg _ ((if_neg Bool.false_ne_true).trans (if_neg fun both => Bool.false_ne_true both.1))
  case slip =>
    refine State.carried_acts delivered ?_ _
    rw [if_neg (ne_true_of_eq_false fresh), span, if_pos ⟨opened, Option.isSome_iff_ne_none.2 window, (Bool.not_eq_true' _).mpr whole⟩]

end
end

section
/-! The input, ALERT, the operating points, the cap controller, regulator cells, admission and heat (R458 to R479, R571 to R587). -/

namespace Sys2Proof.Machine

/-- The parts of the state that the cap controller's commands to the piers leave alone. -/
def State.besidesPiers (s : State) : Supply × Memory × List Span := (s.supply, s.mem, s.spans)

theorem State.pointMove_besidesPiers (s : State) (f p : Nat) : (s.pointMove f p).besidesPiers = s.besidesPiers := by
  simp only [State.pointMove, State.pointReached]
  split_ifs <;> rfl

theorem State.powerUpdate_besidesPiers (s : State) (f : Nat) : (s.powerUpdate f).besidesPiers = s.besidesPiers := by
  simp only [State.powerUpdate]
  split_ifs
  · rfl
  · rfl
  · exact State.pointMove_besidesPiers _ f _

theorem State.powerAll_besidesPiers (s : State) : s.powerAll.besidesPiers = s.besidesPiers :=
  foldl_keeps State.besidesPiers _ State.powerUpdate_besidesPiers _ s

theorem State.setCapLimit_besidesPiers (s : State) (p : Nat) : (s.setCapLimit p).besidesPiers = s.besidesPiers :=
  State.powerAll_besidesPiers _

theorem State.countBubbles_besidesPiers (s : State) (f : Nat) (b : Nat × Nat) : (s.countBubbles f b).besidesPiers = s.besidesPiers := by
  simp only [State.countBubbles]
  split_ifs <;> rfl

theorem State.setReg_besidesPiers (s : State) (o : Obj) (i v : Nat) : (s.setReg o i v).besidesPiers = s.besidesPiers := rfl

theorem State.lowering_besidesPiers (s : State) (p : Nat) :
    (((s.supEvent 0x0104 []).bump regCapLowerings 0 1).setCapLimit p).besidesPiers = s.besidesPiers :=
  (State.setCapLimit_besidesPiers _ p).trans rfl

/-- The currents that an interval measures, and its bubbles, leave the supply, memory and spans alone. -/
theorem State.currents_besidesPiers (s : State) (ma : List Nat) (b : Nat × Nat) : ((List.range 30).foldl (fun t f =>
    (t.setReg regRailCurrent f (ofLe (splice (leBytes 12 (t.reg regRailCurrent f)) 0 (leBytes 4 (f32Milli (ma.getD f 0)))))).countBubbles f b)
      s).besidesPiers = s.besidesPiers := by
  refine foldl_keeps State.besidesPiers _ (fun t f => ?_) _ s
  rw [State.countBubbles_besidesPiers, State.setReg_besidesPiers]

/-- The supply after an interval of the cap controller at fraction `b`, with its two counts of intervals (R471). -/
def State.intervalSupply (s : State) (b : Nat × Nat) (milliwatts above idle : Nat) : Supply :=
  { s.supply with bubble := b, capInForce := s.capNow, above := above, zero := idle, energy := s.supply.energy + 10 * milliwatts }

/-- What an interval of the cap controller leaves of the supply (R471). -/
theorem State.capControlInterval_powered {s : State} (powered : s.boot.powered = true) (p : BitVec 32) (ma : List (BitVec 32)) :
    let b := nextBubble s.supply.bubble (s.reg regCapGain 0) p.toNat s.capNow
    ∃ t above idle, exec (.capControlInterval p ma) s = .next t ∧ t.besidesPiers = (s.intervalSupply b p.toNat above idle, s.mem, s.spans) := by
  dsimp only
  rw [exec_capControlInterval, execCapControlInterval]
  dsimp only
  generalize nextBubble s.supply.bubble (s.reg regCapGain 0) p.toNat s.capNow = b
  generalize (if b.2 < 5 * b.1 then s.supply.above + 1 else 0) = above
  generalize (if b.1 = 0 ∧ (!s.forcedLow) = true then s.supply.zero + 1 else 0) = idle
  rw [if_neg (by simp [powered])]
  refine ⟨_, if above = 100 then 0 else above, if idle = 1000 then 0 else idle, rfl, ?_⟩
  have counted (u : Supply) (n m : Nat) (v w : Nat) : (((s.modSupply fun _ => u).setReg regInputPower n v).setReg regBubbleFraction m w).besidesPiers =
      (u, s.mem, s.spans) := rfl
  by_cases lower : above = 100 ∧ 0 < s.reg regCapLimit 0
  · rw [if_pos lower, State.lowering_besidesPiers, State.currents_besidesPiers]
    exact counted _ 0 0 _ _
  · rw [if_neg lower]
    rw [apply_ite State.besidesPiers, State.setCapLimit_besidesPiers, State.currents_besidesPiers, ite_self]
    exact counted _ 0 0 _ _

end Sys2Proof.Machine

/-! ### The statements -/

section
open Sys2Proof Sys2Proof.Machine

/-- Settles O43. -/
theorem supplyEvents : Obligations.SupplyEvents := by
  intro s f
  refine ⟨fun powered => ⟨fun mv above => ?under, fun mv => ?overvolt, fun quiet => ?alert, ?loss, ?reset, ?persist, fun dry => ?leak,
      fun i o w => ?coolant⟩,
    fun under => ?underEnds, fun alert => ?alertEnds, fun holding quiet above => ?hold, fun mhz powered lower => ⟨fun low => ?aged, fun enough => ?ceiling⟩,
    fun mv slewing => ?slew, fun held on => ?phase, fun rail mv powered old below => ?noMinimum, fun rail mv powered first within => ?minimum,
    fun p ma => ⟨fun down => ?down, fun powered => ?interval⟩⟩
  case under => rw [exec_inputUndervoltage, execInputUndervoltage]; exact congrArg _ (if_neg (by simp [powered, above]))
  case overvolt => rw [exec_inputOvervoltage, execInputOvervoltage]; exact congrArg _ (if_pos powered)
  case alert => rw [exec_alertAssert, execAlertAssert, if_neg (by simp [powered, quiet])]
  case loss => rw [exec_powerLoss, execPowerLoss, if_pos powered]
  case reset => rw [exec_modResetN, execModResetN, if_pos powered]
  case persist => rw [exec_persistCounts, execPersistCounts, if_pos powered]
  case leak => rw [exec_leakDetect, execLeakDetect, if_neg (by simp [powered, dry])]
  case coolant => rw [exec_coolantSample, execCoolantSample]; exact congrArg _ (if_neg (by simp [powered]))
  case underEnds => rw [exec_undervoltageRelease, execUndervoltageRelease, if_pos under]
  case alertEnds => rw [exec_alertRelease, execAlertRelease, if_pos alert]
  case hold => rw [exec_alertHoldExpiry, execAlertHoldExpiry, if_pos (by simp [holding, quiet, above])]
  case aged =>
    rw [exec_ageingCheck, execAgeingCheck]
    exact congrArg _ ((if_neg (by simpa [powered] using lower)).trans (if_pos low))
  case ceiling =>
    rw [exec_ageingCheck, execAgeingCheck]
    exact congrArg _ ((if_neg (by simpa [powered] using lower)).trans (if_neg (Nat.not_lt.2 enough)))
  case slew => rw [exec_voltageSlewDone, execVoltageSlewDone, slewing]
  case phase => rw [exec_phaseHoldExpiry, execPhaseHoldExpiry]; exact congrArg _ (if_pos ⟨held, on⟩)
  case noMinimum => rw [exec_vminSample, execVminSample]; exact congrArg _ (if_pos (.inr ⟨old, below⟩))
  case minimum =>
    rw [exec_vminSample, execVminSample]
    exact congrArg _ ((if_neg (by simp [powered, first])).trans (if_neg fun due => by omega))
  case down => rw [exec_capControlInterval, execCapControlInterval]; exact congrArg _ (if_pos ((Bool.not_eq_true' _).mpr down))
  case interval =>
    obtain ⟨t, above, idle, ran, left⟩ := State.capControlInterval_powered powered p ma
    obtain ⟨supply, mem, spans⟩ : t.supply = _ ∧ t.mem = s.mem ∧ t.spans = s.spans := by simpa [State.besidesPiers] using left
    exact ⟨t, ran, by rw [supply]; rfl, by rw [supply]; rfl, by rw [supply]; rfl, mem, spans⟩

/-- Settles O44. -/
theorem cellsAndHeat : Obligations.CellsAndHeat := by
  intro s f
  dsimp only
  refine ⟨fun c powered good up => ?trip, fun c powered out kept lit here => ?restart, fun g d powered calibrated small => ?contact,
    fun l powered fresh => ?calibration, fun ma => ⟨fun deferred fits => ?admitted, fun other => ?measured, fun off => ?rechecked⟩,
    fun deferred => ?timeout, fun staging still => ⟨fun early => ?stage, fun last => ?on⟩,
    fun c powered here up => ⟨fun hot => ?hot, fun cold cool below => ?cool⟩, fun heat cooled => ?release, fun k g r running first => ?keystone,
    fun k member swaps paused held kept heat => ?swap, fun dark hot powered cells => ?fieldRelease⟩
  case trip =>
    rw [exec_regCellTrip, execRegCellTrip]
    exact congrArg _ (if_neg (by simp [powered, good, up]))
  case restart =>
    rw [exec_regCellRestart, execRegCellRestart]
    exact congrArg _ ((if_neg (by simp [powered, out, kept])).trans ((if_neg lit).trans (if_neg here)))
  case contact =>
    rw [exec_contactCheck, execContactCheck]
    exact congrArg _ ((if_neg (by simp [powered, calibrated])).trans (if_pos (.inr small)))
  case calibration => rw [exec_contactCalibration, execContactCalibration, if_pos (by simp [powered, fresh])]
  case admitted => rw [exec_admissionCheck, execAdmissionCheck]; exact congrArg _ (if_pos ⟨deferred, fits⟩)
  case measured => rw [exec_admissionCheck, execAdmissionCheck]; exact congrArg _ (if_neg fun both => other both.1)
  case rechecked => rw [exec_admissionRecheck, execAdmissionRecheck]; exact congrArg _ (if_pos (.inl off))
  case timeout => rw [exec_admissionTimeout, execAdmissionTimeout, if_pos deferred]
  case stage =>
    rw [exec_pierStageDone, execPierStageDone]
    exact congrArg _ ((if_neg (by simp [staging, still])).trans (if_pos early))
  case on =>
    rw [exec_pierStageDone, execPierStageDone]
    exact congrArg _ ((if_neg (by simp [staging, still])).trans (if_neg (Nat.not_lt.2 last)))
  case hot =>
    rw [exec_junctionSample, execJunctionSample]
    exact congrArg _ ((if_neg (by simp [powered, here])).trans ((if_neg (by simp [up])).trans (if_pos hot)))
  case cool =>
    rw [exec_junctionSample, execJunctionSample]
    refine congrArg _ ((if_neg (by simp [powered, here])).trans ((if_neg (by simp [up])).trans ((if_neg (Int.not_le.2 cold)).trans ?_)))
    dsimp only
    rw [if_neg (Int.not_le.2 cool), if_neg fun all => Int.not_le.2 below all.1]
  case release => rw [exec_thermalRelease, execThermalRelease]; exact congrArg _ (if_pos ⟨heat, cooled⟩)
  case keystone => rw [exec_heatKeystoneTimeout]; unfold execHeatKeystoneTimeout; dsimp only; rw [running, first]
  case swap =>
    rw [exec_heatSwapExpiry, execHeatSwapExpiry, member]
    exact congrArg _ (if_pos ⟨swaps, paused, held, (Bool.not_eq_true' _).mpr kept, .inl heat⟩)
  case fieldRelease =>
    rw [exec_fieldHeatRelease, execFieldHeatRelease]
    exact congrArg _ ((if_pos ⟨dark, hot, powered⟩).trans (if_neg (Nat.pos_iff_ne_zero.1 cells)))

end
end

section
/-! Bring-up, the supervisors and the activation of firmware (R351, R361, R371, R478, R482 to R506). -/

/-! ### The statements -/

section
open Sys2Proof Sys2Proof.Machine

/-- Settles O45. -/
theorem bringupEvents : Obligations.BringupEvents := by
  intro s f
  dsimp only
  refine ⟨fun down => ?begins, fun powered => ?running,
    fun flash powered => ⟨fun first boots => ?firmware, fun third => ?timebase, fun fault late found => ?fuses⟩,
    fun waking whole early => ?fieldUp, fun waking whole here => ⟨fun fresh => ?retry, fun tried => ?dark⟩, fun p powered late off ready => ?link,
    fun powered standby => ⟨?heartbeat, fun idle => ?takeover, fun first a => ?otherStarts⟩,
    fun k d used other => ⟨fun several => ⟨?loaded, fun v => ?seed⟩, ?lost⟩⟩
  case begins => rw [exec_powerGood, execPowerGood]; exact congrArg _ (if_neg (ne_true_of_eq_false down))
  case running => rw [exec_powerGood, execPowerGood, if_pos powered]
  case firmware =>
    rw [exec_bringupStepDone]
    unfold execBringupStepDone
    dsimp only
    rw [if_neg (by simp [powered, first]), first]
    exact congrArg (fun t => Host.Outcome.next (State.showPins t s)) (if_neg (ne_true_of_eq_false boots))
  case timebase =>
    rw [exec_bringupStepDone]
    unfold execBringupStepDone
    dsimp only
    rw [if_neg (by simp [powered, third]), third]
    rfl
  case fuses =>
    rw [exec_bringupStepDone]
    unfold execBringupStepDone
    exact congrArg _ (if_pos (.inr ⟨fault, late⟩))
  case fieldUp =>
    rw [exec_fieldUp, execFieldUp]
    exact congrArg _ ((if_neg (by simp [waking, whole])).trans (if_pos early))
  case retry =>
    rw [exec_fieldWakeTimeout, execFieldWakeTimeout]
    exact congrArg _ ((if_neg (by simp [waking, whole])).trans ((if_neg here).trans (if_pos fresh)))
  case dark =>
    rw [exec_fieldWakeTimeout, execFieldWakeTimeout]
    exact congrArg _ ((if_neg (by simp [waking, whole])).trans ((if_neg here).trans (if_neg tried)))
  case link =>
    rw [exec_spanlinkRetry, execSpanlinkRetry]
    exact congrArg _ (if_pos (by simp [powered, late, off, ready]))
  case heartbeat => rw [exec_heartbeat, execHeartbeat, if_pos ⟨powered, standby⟩]
  case takeover =>
    rw [exec_heartbeatTimeout, execHeartbeatTimeout, if_neg (by simp [powered, standby])]
    dsimp only
    rw [idle]
  case otherStarts => rw [exec_supervisorStartTimeout, execSupervisorStartTimeout, if_pos (by simp [powered, a, standby, first])]
  case loaded =>
    rw [exec_supervisorControlPacket, execSupervisorControlPacket]
    exact congrArg _ (if_neg (by simp [used, other, several]))
  case seed =>
    rw [exec_supervisorControlPacket, execSupervisorControlPacket]
    exact congrArg _ (if_neg (by simp [used, other, several]))
  case lost =>
    rw [exec_bridgedTakeoverTimeout, execBridgedTakeoverTimeout]
    exact congrArg _ (if_neg (by simp [used, other]))

/-- Settles O46. -/
theorem activation : Obligations.Activation := by
  intro s f
  refine ⟨fun scheduled => ?start, fun free activating next => ?restart, fun busy => ?busy, fun k hand member running => ?keystone,
    fun restarting hand => ⟨fun activating => ?late, fun back => ?lateAgain, fun back loose free saved => ?done⟩, fun swapping alone => ?single,
    fun swapping standby other active => ?switch, fun powered => ⟨fun o l => ?window, ?token⟩⟩
  case start => rw [exec_activationStart, execActivationStart, if_pos scheduled]
  case restart =>
    rw [exec_fieldRestart, execFieldRestart, free, activating, next]
    exact congrArg _ (if_pos (beq_self_eq_true f.val))
  case busy => rw [exec_fieldRestart, execFieldRestart, if_pos (Option.isSome_iff_ne_none.2 busy)]
  case keystone => rw [exec_restartKeystoneTimeout, execRestartKeystoneTimeout, hand]; exact congrArg _ (if_pos ⟨member, running⟩)
  case late =>
    rw [exec_fieldRestartTimeout, execFieldRestartTimeout]
    exact congrArg _ ((if_neg (by simp [restarting, hand])).trans (if_neg (by simp [activating])))
  case lateAgain =>
    rw [exec_fieldRestartTimeout, execFieldRestartTimeout]
    exact congrArg _ ((if_neg (by simp [restarting, hand])).trans (if_pos back))
  case done =>
    rw [exec_fieldRestartDone, execFieldRestartDone]
    refine congrArg _ ((if_neg (by simp [restarting, hand])).trans ?_)
    dsimp only
    rw [free, loose, back, saved]
    rfl
  case single =>
    rw [exec_supervisorRestartDone, execSupervisorRestartDone, swapping]
    exact congrArg _ (if_pos ((Bool.not_eq_true' _).mpr alone))
  case switch =>
    rw [exec_supervisorRestartDone, execSupervisorRestartDone, swapping]
    exact congrArg _ ((if_neg (by simp [standby])).trans (if_pos (by simp [other, active])))
  case window => rw [exec_stagingWindowWrite, execStagingWindowWrite, if_pos powered]
  case token => rw [exec_attestTokenRefill, execAttestTokenRefill, if_pos powered]

end
end

section
/-! The tower channels: accesses, scrub, replays, training, tests and fills (R246 to R274). -/

/-! ### The statements -/

open Sys2Proof Sys2Proof.Machine

/-- Settles O47. -/
theorem towerAccesses : Obligations.TowerAccesses := by
  intro s c g errs
  refine ⟨fun online => ⟨?read, fun l => ?write, fun off l => fun good found => ?narrow, ?aged, ?scrub⟩,
    fun off => ⟨fun op => ?offAccess, ?offAged, ?offScrub⟩, fun t v powered cool => ?temperature⟩
  case read => rw [exec_towerAccess, execTowerAccess]; exact congrArg _ (if_neg (not_not_intro online))
  case write => rw [exec_towerAccess, execTowerAccess]; exact congrArg _ (if_neg (not_not_intro online))
  case narrow =>
    rw [exec_towerAccess, execTowerAccess]
    dsimp only
    rw [if_neg (not_not_intro online), good, beq_false_of_ne found, Bool.or_self, if_neg Bool.false_ne_true, apply_ite State.settle]
  case aged => rw [exec_towerAccessAged, execTowerAccessAged, if_pos online]
  case scrub => rw [exec_patrolScrub, execPatrolScrub]; exact congrArg _ (if_neg (not_not_intro online))
  case offAccess => rw [exec_towerAccess, execTowerAccess]; exact congrArg _ (if_pos off)
  case offAged => rw [exec_towerAccessAged, execTowerAccessAged, if_neg off]
  case offScrub => rw [exec_patrolScrub, execPatrolScrub]; exact congrArg _ (if_pos off)
  case temperature =>
    have low (m : Int) (h : 90000 ≤ m) : ¬ m ≤ v.toInt := by omega
    rw [exec_towerDieTemperatureSample, execTowerDieTemperatureSample]
    refine congrArg _ ((if_neg (by simp [powered])).trans ?_)
    dsimp only
    rw [if_neg fun both => low 105000 (by decide) both.1, if_neg fun both => low 95000 (by decide) both.1]
    simp only [low 95000 (by decide), low 105000 (by decide), cool, show v.toInt < 100000 by omega, if_true, if_false]

/-- Settles O49. -/
theorem towerChannels : Obligations.TowerChannels := by
  intro s c t k
  refine ⟨fun online => ⟨fun early => ?again, ?ends, fun fourth => ?retrains⟩, fun off failed => ?noReplay,
    fun retraining => ⟨fun us => ?retrained, fun early => ?nextTry, fun late => ?retires⟩, fun other => ⟨fun us => ?noRetrain, ?noTry⟩,
    fun training => ⟨fun early => ?tested, fun late => ?testedLate, ?untrained⟩, fun other passed => ?noTraining,
    fun testing => ⟨?passes, ?fails⟩, fun other passed => ?noTest, ?remap, ?refill⟩
  case again =>
    rw [exec_edcReplay, execEdcReplay]
    exact congrArg _ ((if_neg (not_not_intro online)).trans (if_pos ⟨rfl, early⟩))
  case ends =>
    rw [exec_edcReplay, execEdcReplay]
    exact congrArg _ ((if_neg (not_not_intro online)).trans ((if_neg fun both => Bool.false_ne_true both.1).trans (if_neg Bool.false_ne_true)))
  case retrains =>
    rw [exec_edcReplay, execEdcReplay]
    exact congrArg _ ((if_neg (not_not_intro online)).trans ((if_neg fun both => Nat.not_lt.2 fourth both.2).trans (if_pos rfl)))
  case noReplay => rw [exec_edcReplay, execEdcReplay]; exact congrArg _ (if_pos off)
  case retrained => rw [exec_retrainDone, execRetrainDone, if_pos retraining]
  case nextTry =>
    rw [exec_retrainTryTimeout, execRetrainTryTimeout]
    exact congrArg _ ((if_neg (not_not_intro retraining)).trans (if_pos early))
  case retires =>
    rw [exec_retrainTryTimeout, execRetrainTryTimeout]
    exact congrArg _ ((if_neg (not_not_intro retraining)).trans (if_neg (Nat.not_lt.2 late)))
  case noRetrain => rw [exec_retrainDone, execRetrainDone, if_neg other]
  case noTry => rw [exec_retrainTryTimeout, execRetrainTryTimeout]; exact congrArg _ (if_pos other)
  case tested =>
    rw [exec_channelTrainingDone, execChannelTrainingDone]
    exact congrArg _ ((if_neg (not_not_intro training)).trans ((if_pos rfl).trans (if_neg (Nat.not_le.2 early))))
  case testedLate =>
    rw [exec_channelTrainingDone, execChannelTrainingDone]
    exact congrArg _ ((if_neg (not_not_intro training)).trans ((if_pos rfl).trans (if_pos late)))
  case untrained =>
    rw [exec_channelTrainingDone, execChannelTrainingDone]
    exact congrArg _ ((if_neg (not_not_intro training)).trans (if_neg Bool.false_ne_true))
  case noTraining => rw [exec_channelTrainingDone, execChannelTrainingDone, if_pos other]
  case passes =>
    rw [exec_towerTestDone, execTowerTestDone]
    exact congrArg _ (if_neg (not_not_intro testing))
  case fails =>
    rw [exec_towerTestDone, execTowerTestDone]
    exact congrArg _ (if_neg (not_not_intro testing))
  case noTest => rw [exec_towerTestDone, execTowerTestDone]; exact congrArg _ (if_pos other)
  case remap => simp only [exec_remapFill, execRemapFill, Bool.not_eq_true']
  case refill => rw [exec_reserveRefill, execReserveRefill]

end

section
/-! The spanlinks, the Ethernet ports, the media streams and JTAG (R532 to R563, R574). -/

namespace Sys2Proof.Machine

/-- A good request is taken by the span it names (R543). -/
theorem State.requestIn_taken {s : State} {d : Datagram} (up : s.ethUp d.port = true) (named : leAt d.payload 4 1 < 8)
    (admitted : s.admitted (leAt d.payload 4 1) d.srcAddr.toNat = true) (good : requestBad d.payload = false)
    (serves : (s.span (leAt d.payload 4 1)).state = .ready ∨ (s.span (leAt d.payload 4 1)).state = .running ∨
      (s.span (leAt d.payload 4 1)).state = .paused)
    (fits : 1 + (leAt d.payload 6 2 - 224 + 255) / 256 ≤ (s.span (leAt d.payload 4 1)).queueFree) :
    s.requestIn d = (s.bump regFramesRx d.port 1).requestTaken (leAt d.payload 4 1) d (1 + (leAt d.payload 6 2 - 224 + 255) / 256) := by
  have open_ : ¬ ((s.span (leAt d.payload 4 1)).state ≠ .ready ∧ (s.span (leAt d.payload 4 1)).state ≠ .running ∧
      (s.span (leAt d.payload 4 1)).state ≠ .paused) := by
    rintro ⟨ready, running, paused⟩
    exact serves.elim ready fun rest => rest.elim running paused
  unfold State.requestIn
  dsimp only
  rw [if_neg (by simp [up]), if_neg (Nat.not_le.2 named), if_neg (by simp [admitted]), if_neg (ne_true_of_eq_false good), if_neg open_,
    if_neg (Nat.not_lt.2 fits)]

/-- EXTEST and CLAMP take effect in the diagnostic mode of a module without spans (R574). -/
theorem State.jtagFree_of_unused {s : State} (diag : s.reg regJtagDiag 0 = 1) (unused : ∀ k : SpanId, (s.span k).state = .unused) :
    s.jtagFree = true := by
  simp only [State.jtagFree, diag, beq_self_eq_true, Bool.true_and, List.all_eq_true, List.mem_range, beq_iff_eq]
  exact fun k less => unused ⟨k, less⟩

theorem State.jtagFree_of_normal {s : State} (normal : s.reg regJtagDiag 0 ≠ 1) : s.jtagFree = false := by
  simp [State.jtagFree, normal]

end Sys2Proof.Machine

/-! ### The statements -/

section
open Sys2Proof Sys2Proof.Machine

/-- Settles O50. -/
theorem spanlinks : Obligations.Spanlinks := by
  intro s p
  refine ⟨fun good serial peer cross training => ⟨?trained, ?silent⟩, fun good serial peer cross retraining => ?retrained, fun retraining => ?lost,
    fun up => ⟨?replayed, fun early => ?again, fun fourth => ?fourth, ?fault, ?narrowed, ?retired, fun ty k a => ?inbound,
      fun ty k a delivers => ⟨fun bad => ?absent, fun may right => ?leaves, fun may request without => ?violates⟩⟩,
    fun down => ⟨?noFault, fun b ty k a => ?noPacket⟩⟩
  case trained => rw [exec_spanlinkTrainingDone]; unfold execSpanlinkTrainingDone; rw [training]
  case silent => rw [exec_spanlinkTrainingDone]; unfold execSpanlinkTrainingDone; rw [training]
  case retrained => rw [exec_spanlinkTrainingDone]; unfold execSpanlinkTrainingDone; rw [retraining]
  case lost => rw [exec_spanlinkRetrainTimeout, execSpanlinkRetrainTimeout, if_pos retraining]
  case replayed =>
    rw [exec_spanlinkFlitReplay, execSpanlinkFlitReplay]
    exact congrArg _ ((if_neg (not_not_intro up)).trans (if_pos rfl))
  case again =>
    rw [exec_spanlinkFlitReplay, execSpanlinkFlitReplay]
    exact congrArg _ ((if_neg (not_not_intro up)).trans ((if_neg Bool.false_ne_true).trans (if_neg (Nat.not_le.2 early))))
  case fourth =>
    rw [exec_spanlinkFlitReplay, execSpanlinkFlitReplay]
    exact congrArg _ ((if_neg (not_not_intro up)).trans ((if_neg Bool.false_ne_true).trans (if_pos fourth)))
  case fault => rw [exec_spanlinkFault, execSpanlinkFault, if_pos up]
  case narrowed =>
    rw [exec_spanlinkPeerNotice, execSpanlinkPeerNotice]
    exact congrArg _ ((if_neg Bool.false_ne_true).trans (if_pos up))
  case retired =>
    rw [exec_spanlinkPeerNotice, execSpanlinkPeerNotice]
    exact congrArg _ ((if_pos rfl).trans (if_neg (by simp [up])))
  case inbound =>
    rw [exec_spanlinkPacket, execSpanlinkPacket]
    exact congrArg _ ((if_neg (not_not_intro up)).trans (if_pos rfl))
  case absent =>
    rw [exec_spanlinkPacket, execSpanlinkPacket, State.carried_delivers delivers]
    exact congrArg _ ((if_neg (not_not_intro up)).trans ((if_neg Bool.false_ne_true).trans (if_pos ((Bool.not_eq_true' _).mpr bad))))
  case leaves =>
    rw [exec_spanlinkPacket, execSpanlinkPacket, State.carried_delivers delivers]
    refine congrArg _ ((if_neg (not_not_intro up)).trans ((if_neg Bool.false_ne_true).trans ?_))
    unfold State.cross
    dsimp only
    rw [if_neg Bool.false_ne_true, if_neg (by simp [may]), if_neg]
    rcases right with response | granted
    · simp [response]
    · simp [granted]
  case violates =>
    rw [exec_spanlinkPacket, execSpanlinkPacket, State.carried_delivers delivers]
    refine congrArg _ ((if_neg (not_not_intro up)).trans ((if_neg Bool.false_ne_true).trans ?_))
    unfold State.cross
    dsimp only
    rw [if_neg Bool.false_ne_true, if_neg (by simp [may]), if_pos (by simp [request, without])]
  case noFault => rw [exec_spanlinkFault, execSpanlinkFault, if_neg down]
  case noPacket => rw [exec_spanlinkPacket, execSpanlinkPacket]; exact congrArg _ (if_pos down)

/-- Settles O51. -/
theorem portEvents : Obligations.PortEvents := by
  intro s e p
  refine ⟨fun training => ?linkUp, fun up => ⟨?linkDown, ?arp, ?pause⟩, fun up => ?badTag, fun powered enabled lit => ⟨?plca, ?csma, ?down⟩,
    fun d => fun up named admitted good serves fits => ?taken, fun d up named admitted bad => ?rejected⟩
  case linkUp => rw [exec_ethLinkUp, execEthLinkUp, if_pos training]
  case linkDown => rw [exec_ethLinkDown, execEthLinkDown]; exact congrArg _ (if_pos up)
  case arp =>
    rw [exec_frameReceived, execFrameReceived]
    exact congrArg _ (if_neg (by simp [up]))
  case pause =>
    rw [exec_frameReceived, execFrameReceived]
    exact congrArg _ (if_neg (by simp [up]))
  case badTag =>
    rw [exec_frameReceived, execFrameReceived]
    exact congrArg _ (if_neg up)
  case plca => rw [exec_t1sLinkChange, execT1sLinkChange, powered, enabled, lit]; rfl
  case csma => rw [exec_t1sLinkChange, execT1sLinkChange, powered, enabled, lit]; rfl
  case down => rw [exec_t1sLinkChange, execT1sLinkChange, if_neg fun both => Bool.false_ne_true both.1]
  case taken =>
    rw [exec_start, exec_append, exec_endSeq, exec_cancel, execStart, execAppend, execEndSeq, execCancel,
      State.requestIn_taken up named admitted good serves fits]
    exact ⟨rfl, rfl, rfl, rfl⟩
  case rejected =>
    rw [exec_start, execStart, State.requestIn]
    exact congrArg _ ((if_neg (by simp [up])).trans ((if_neg (Nat.not_le.2 named)).trans ((if_neg (by simp [admitted])).trans (if_pos bad))))

/-- Settles O52. -/
theorem mediaEvents : Obligations.MediaEvents := by
  intro s st g
  refine ⟨fun unused => ⟨fun p => ?noPacket, fun r => ?noReport, ?noSilence⟩,
    fun x active => ⟨fun p up receives type source some => ?packet, fun r up => ?report, fun silent => ?stillSilent,
      fun u heard receives noted soon => ?silence⟩,
    fun e => ?interval, fun off => ⟨?noTick, ?noSend⟩, fun on empty ring => ?tick, fun on ring => ?send⟩
  case noPacket => rw [exec_rtpPacket, execRtpPacket, unused]
  case noReport => rw [exec_rtcpPacket, execRtcpPacket, unused]
  case noSilence => rw [exec_streamTimeout, execStreamTimeout, unused]
  case packet =>
    rw [exec_rtpPacket, execRtpPacket, active]
    refine congrArg _ ((if_neg (by simp [up])).trans ((if_neg (by simp [receives])).trans ((if_neg ?_).trans (if_neg (not_not_intro type)))))
    rw [if_neg some]
    exact not_not_intro source
  case report => rw [exec_rtcpPacket, execRtcpPacket, active]; exact congrArg _ (if_pos up)
  case stillSilent => rw [exec_streamTimeout, execStreamTimeout, active]; exact congrArg _ (if_pos (.inl silent))
  case silence =>
    rw [exec_streamTimeout, execStreamTimeout, active]
    refine congrArg _ ((if_neg (by simp [heard, receives])).trans ?_)
    dsimp only
    rw [noted]
    exact if_neg (by simpa using soon)
  case interval => rw [exec_rtcpIntervalTimer, execRtcpIntervalTimer]
  case noTick => rw [exec_mediaTick, execMediaTick]; exact congrArg _ (if_pos off)
  case noSend => rw [exec_txSendPoint, execTxSendPoint]; exact congrArg _ (if_pos (.inl off))
  case tick =>
    have same (x : Stream) (mem : x ∈ s.ports.streams) : ¬ leAt x.desc 5 1 = g := by
      simpa using List.filter_eq_nil_iff.1 empty x mem
    have kept (h : Stream → Stream) : (s.ports.streams.map fun x => if leAt x.desc 5 1 = g then h x else x) = s.ports.streams :=
      (List.map_congr_left fun x mem => if_neg (same x mem)).trans (List.map_id' _)
    rw [exec_mediaTick, execMediaTick]
    refine congrArg _ ((if_neg on).trans ?_)
    dsimp only
    rw [empty]
    rw [List.filter_nil, List.map_nil, List.filter_nil, List.foldl_nil, List.foldl_nil, if_pos ring]
    exact congrArg (fun l => ({ s with ports := { s.ports with ticks := s.ports.ticks.set g (s.ports.ticks.getD g 0 + 1), streams := l } } :
      State).moverMediaEvent true g) (kept _)
  case send =>
    rw [exec_txSendPoint, execTxSendPoint]
    refine congrArg _ ((if_neg (not_or.2 ⟨on, ring⟩)).trans ?_)
    dsimp only
    congr 2
    funext u x
    unfold State.streamSent
    by_cases covered : x.released.contains (s.ports.ticks.getD g 0) = true
    · by_cases up : s.ethUp (leAt x.desc 4 1) = true
      · simp only [covered, up, Bool.and_self, if_true]
      · simp only [covered, up, Bool.and_false, Bool.false_eq_true, if_true, if_false]
    · simp only [covered, Bool.false_and, Bool.false_eq_true, if_false]

/-- Settles O53. -/
theorem jtagInstructions : Obligations.JtagInstructions := by
  intro s
  refine ⟨exec_bypass s, exec_idcode s, fun v => exec_samplePreload s _, exec_samplePreload s _, fun diag unused => ⟨?extest, ?clamp⟩,
    fun normal => ⟨?noExtest, ?noClamp⟩⟩
  case extest => rw [exec_extest, execExtest, if_pos (State.jtagFree_of_unused diag unused)]
  case clamp => rw [exec_clamp, execClamp, if_pos (State.jtagFree_of_unused diag unused)]
  case noExtest => rw [exec_extest, execExtest, if_neg (ne_true_of_eq_false (State.jtagFree_of_normal normal)), exec_bypass, execBypass]
  case noClamp => rw [exec_clamp, execClamp, if_neg (ne_true_of_eq_false (State.jtagFree_of_normal normal)), exec_bypass, execBypass]

end
end

section
/-! The paths to the dictionary: slots, the PCIe function, handshakes and timers (R511, R519, R522 to R538, R574). -/

/-! ### The statements -/

open Sys2Proof Sys2Proof.Machine

/-- Settles O42. -/
theorem dictionaryPaths : Obligations.DictionaryPaths := by
  intro s
  refine ⟨fun i req up => ?submit, fun up => ?summary, fun m up => ?clear, ?reset, fun rate w powered lit => ?trained, fun q powered diag good => ?diag,
    fun p slot nc nd n powered up serves free => ?hello, fun n tag nc nd begun powered up serves => ⟨fun right => ?opens, fun wrong => ?fails⟩,
    fun n reached ready sound kept => ?close, fun m => ⟨?timeout, ?expiry⟩, fun n opened => ?idle, fun k locked => ?unlock⟩
  case submit => rw [exec_submit, execSubmit]; exact congrArg _ (if_pos ⟨up, rfl⟩)
  case summary => rw [exec_summaryCmd, execSummaryCmd, if_pos up]
  case clear => rw [exec_irqStatusClear, execIrqStatusClear, if_pos up]
  case reset => rw [exec_pcieFunctionReset, execPcieFunctionReset]
  case trained => rw [exec_pcieLinkTrained, execPcieLinkTrained, if_pos ⟨powered, lit⟩]
  case diag => rw [exec_diag, execDiag]; exact congrArg _ (if_neg (by simp [powered, diag, good]))
  case hello =>
    rw [exec_hello, execHello]
    refine congrArg _ ((if_neg (by simp [powered, up])).trans ((if_neg (not_not_intro serves)).trans ?_))
    rw [free]
  case opens =>
    rw [exec_auth, execAuth, begun]
    exact congrArg _ ((if_neg (by simp [powered, up])).trans ((if_neg (not_not_intro serves)).trans (if_pos right)))
  case fails =>
    rw [exec_auth, execAuth, begun]
    exact congrArg _ ((if_neg (by simp [powered, up])).trans ((if_neg (not_not_intro serves)).trans (if_neg wrong)))
  case close =>
    rw [exec_close, execClose]
    exact congrArg _ ((if_neg (by simp [reached])).trans ((if_neg (by simp [ready, sound])).trans (if_neg (ne_true_of_eq_false kept))))
  case timeout => rw [exec_txTimeout, execTxTimeout]
  case expiry => rw [exec_frozenCopyExpiry, execFrozenCopyExpiry]
  case idle => rw [exec_sessionIdleTimeout, execSessionIdleTimeout, if_pos opened]
  case unlock => rw [exec_keySlotUnlock, execKeySlotUnlock, if_pos locked]

end

section
/-! The dictionary server: reads, direct writes, transactions and their commits (R427, R430, R508 to R519). -/

namespace Sys2Proof.Machine

/-! ### The answer to a request (R512 to R519, R535) -/

/-- What it means that a request is served. -/
theorem State.serves_iff {s : State} {q : DReq} : s.serves q = true ↔ s.boot.powered = true ∧ s.supervised = true ∧ q.master / 256 ≠ 4 ∧
    s.dictReady = true ∧ s.boot.fuseFault = false ∧ q.own = true ∧ s.control.expired.contains q.master = false := by
  simp only [State.serves, Bool.and_eq_true, bne_iff_ne, ne_eq, Bool.not_eq_true']
  tauto

/-- A request that is served is answered as it is performed, and sessions of a key slot just written end. -/
theorem State.ask_performs {s t : State} {q : DReq} {st : Nat} {l : List Byte} (served : s.serves q = true) (done : s.perform q = t.reply st l) :
    s.ask q = if st = stOk then (t.answered q st l).endKeySessions (s.keysWritten q) else t.answered q st l := by
  obtain ⟨powered, supervised, plain, ready, sound, own, fresh⟩ := State.serves_iff.1 served
  have reaches : s.reaches q.master = true := by simp [State.reaches, powered, supervised, plain]
  have first : s.answerFirst q = t.reply st l := by
    rw [State.answerFirst, if_neg (by simp [ready, sound]), if_neg (by simp only [own, fresh, Bool.false_eq_true, and_false, not_false_eq_true]), done]
  have uncounted : s.sessionFrame q.master = s := if_neg plain
  have unkept : s.kept q = none := if_neg plain
  rw [State.ask, if_pos reaches, State.respond, uncounted, unkept]
  simp only [State.serve, first, State.keepReply, if_neg plain, State.reply]
  rfl

/-- A request that writes no key is answered as it is performed. -/
theorem State.ask_answers {s t : State} {q : DReq} {st : Nat} {l : List Byte} (served : s.serves q = true) (done : s.perform q = t.reply st l)
    (keyless : s.keysWritten q = []) : s.ask q = t.answered q st l := by
  rw [State.ask_performs served done, keyless]
  exact ite_self _

theorem State.keysWritten_none {s : State} {q : DReq} {op : Nat} (is : q.op = op) (write : op ≠ 2) (commit : op ≠ 4) : s.keysWritten q = [] := by
  simp [State.keysWritten, is, write, commit]

theorem State.keysWritten_staged {s : State} {q : DReq} (write : q.op = 2) (staged : q.tx = true) : s.keysWritten q = [] := by
  simp [State.keysWritten, write, staged]

/-! ### Reads (R508, R511, R513) -/

/-- A read of an object that exists and may be read. -/
theorem State.serveRead_reads {s : State} {q : DReq} {o : Obj} {i j : Nat} (found : findObj q.index q.sub = some (o, i, j)) (readable : o.access ≠ .wo)
    (may : s.dictMay q .r = true) : s.serveRead q = s.readObj q o i j := by
  unfold State.serveRead
  rw [found]
  dsimp only
  rw [if_neg readable, if_pos may]

/-- From its start, an object is read under the generation in force; a long one is frozen. -/
theorem State.readObj_start {s : State} {q : DReq} (o : Obj) (i j : Nat) (start : q.offset = 0) (long : Bool)
    (kind : (o.type == .blob || o.type == .str) = long) : s.readObj q o i j =
      ((if long then s.freeze q o (s.readValue q o i j) else s).nextFree).reply stOk ((s.readValue q o i j).take (min q.length (payloadCap q.master))) := by
  unfold State.readObj
  dsimp only
  rw [if_neg (not_not_intro start), kind]

/-! ### Writes (R509, R510, R513, R516 to R518) -/

/-- The generation that a write of an object leaves (R58). -/
def State.counted (s : State) (o : Obj) : State := s.setReg regGeneration 0 ((s.reg regGeneration 0 + boolNat (!o.own)) % 2 ^ 64)

/-- The value of one write in place; a set's descriptor clears the map. -/
def State.valued (s : State) (q : DReq) (o : Obj) (i j : Nat) : State :=
  if o.same regSetDesc then (s.applyWrite q.master o i j q.payload).mapCleared else s.applyWrite q.master o i j q.payload

/-- The effect of a write in a commit of its own: its value in place, and its command. -/
def State.effect (s : State) (q : DReq) (o : Obj) (i j : Nat) : State :=
  if o.acts then ((s.valued q o i j).command o i q.payload).1 else s.valued q o i j

/-- What the commit of one write leaves, when `t` has its effect (R58, R510, R518). -/
def State.committedAs (s : State) (q : DReq) (o : Obj) (t : State) : State :=
  let u := ((t.commitRest s).noteNv [(q.key, q.payload)]).setReg regGeneration 0 ((s.reg regGeneration 0 + boolNat (!o.own)) % 2 ^ 64)
  if o.own then u else u.vector 3

/-- A request names its object by its key. -/
theorem keyObj_key {q : DReq} {x : Obj × Nat × Nat} (sub : q.sub < 256) (found : findObj q.index q.sub = some x) : keyObj q.key = some x := by
  rw [keyObj, DReq.key, show (q.index * 256 + q.sub) / 256 = q.index by omega, show (q.index * 256 + q.sub) % 256 = q.sub by omega, found]

theorem State.applyAll_one {s : State} {q : DReq} {o : Obj} {i j : Nat} (named : keyObj q.key = some (o, i, j)) :
    s.applyAll q.master [(q.key, q.payload)] = s.valued q o i j := by
  unfold State.applyAll State.valued
  simp only [List.foldl_cons, List.foldl_nil, List.any_cons, List.any_nil, named, Option.any_some, Bool.or_false]
  cases o.own <;> rfl

theorem countsChange_one {q : DReq} {o : Obj} {i j : Nat} (named : keyObj q.key = some (o, i, j)) :
    countsChange [(q.key, q.payload)] = !o.own := by
  simp [countsChange, named]

/-- The checks of a commit of one write that keeps the rules, and whose command succeeds. -/
theorem State.checkAll_one {s t : State} {q : DReq} {o : Obj} {i j : Nat} (named : keyObj q.key = some (o, i, j))
    (rules : s.ruleStatus t q.master o i j q.payload = stOk) (does : o.acts = true → (t.command o i q.payload).2 = stOk) :
    s.checkAll t q.master [(q.key, q.payload)] t = .ok (if o.acts then (t.command o i q.payload).1 else t) := by
  simp only [State.checkAll, named, rules, ne_eq, not_true_eq_false, if_false]
  split_ifs with acts failed
  · rfl
  · exact absurd (does acts) failed
  · rfl

/-- A commit of one write that keeps the rules. -/
theorem State.commitWrites_one {s : State} {q : DReq} {o : Obj} {i j : Nat} (named : keyObj q.key = some (o, i, j))
    (rules : s.ruleStatus (s.placed q o) q.master o i j q.payload = stOk)
    (does : o.acts = true → ((s.placed q o).command o i q.payload).2 = stOk) :
    s.commitWrites q.master [(q.key, q.payload)] = (s.committedAs q o ((s.counted o).effect q o i j), none) := by
  have placed : s.placed q o = (s.counted o).valued q o i j := State.applyAll_one named
  unfold State.commitWrites
  simp only [countsChange_one named]
  rw [show (s.setReg regGeneration 0 ((s.reg regGeneration 0 + boolNat (!o.own)) % 2 ^ 64)).applyAll q.master [(q.key, q.payload)] =
    s.placed q o from rfl, State.checkAll_one named rules does, placed]
  simp only [State.committedAs, State.effect]
  cases o.own <;> rfl

/-- The objects that requests name are those of the dictionary (R508). -/
theorem findObj_mem {index sub : Nat} {o : Obj} {i j : Nat} (found : findObj index sub = some (o, i, j)) : o ∈ catalogue := by
  unfold findObj at found
  split at found
  case h_1 => cases found
  case h_2 x there =>
    split_ifs at found
    cases found
    exact List.mem_of_find?_eq_some there

/-- Descriptors of sets are written in transactions only (R253). -/
theorem setDesc_transacted {o : Obj} (mem : o ∈ catalogue) (same : o.same regSetDesc = true) : o.access = .rwt := by
  have all : (catalogue.all fun x => !x.same regSetDesc || x.access == .rwt) = true := by
    simp only [catalogue, List.all_append, Bool.and_eq_true]
    refine ⟨⟨⟨⟨⟨⟨⟨⟨?_, ?_⟩, ?_⟩, ?_⟩, ?_⟩, ?_⟩, ?_⟩, ?_⟩, ?_⟩ <;> decide
  simpa [same] using List.all_eq_true.1 all o mem

/-- A write that makes its own transaction names an object that needs none. -/
theorem State.accepts_direct {s : State} {q : DReq} {o : Obj} {i j : Nat} (accepted : s.accepts q o i j = true) :
    findObj q.index q.sub = some (o, i, j) ∧ o.same regSetDesc = false := by
  simp only [State.accepts, Bool.and_eq_true, beq_iff_eq, Bool.or_eq_true] at accepted
  obtain ⟨⟨⟨⟨⟨⟨⟨⟨⟨-, found⟩, kind⟩, -⟩, -⟩, -⟩, -⟩, -⟩, -⟩, -⟩ := accepted
  refine ⟨found, Bool.eq_false_iff.2 fun same => ?_⟩
  rw [setDesc_transacted (findObj_mem found) same] at kind
  exact kind.elim (by decide) (by decide)

/-- The effect of an accepted value. -/
theorem State.effect_value {s : State} {q : DReq} {o : Obj} {i j : Nat} (accepted : s.accepts q o i j = true) (stores : o.acts = false) (t : State) :
    t.effect q o i j = t.applyWrite q.master o i j q.payload := by
  simp only [State.effect, stores, State.valued, (State.accepts_direct accepted).2, Bool.false_eq_true, if_false]

/-- The effect of an accepted command, which succeeds. -/
theorem State.effect_command {s : State} {q : DReq} {o : Obj} {i j : Nat} (accepted : s.accepts q o i j = true) (acts : o.acts = true) (t : State) :
    t.effect q o i j = (t.command o i q.payload).1 := by
  simp only [State.effect, acts, State.valued, (State.accepts_direct accepted).2, Bool.false_eq_true, if_false, if_true, State.applyWrite]

/-- An accepted command succeeds. -/
theorem State.command_succeeds {s : State} {q : DReq} {o : Obj} {i j : Nat} (sub : q.sub < 256) (accepted : s.accepts q o i j = true)
    (acts : o.acts = true) : ((s.counted o).command o i q.payload).2 = stOk := by
  obtain ⟨found, plain⟩ := State.accepts_direct accepted
  have placed : s.placed q o = s.counted o := by
    refine (State.applyAll_one (s := s.counted o) (keyObj_key sub found)).trans ?_
    simp only [State.valued, plain, State.applyWrite, acts, Bool.false_eq_true, if_false, if_true]
  simp only [State.accepts, Bool.and_eq_true, beq_iff_eq, Bool.or_eq_true] at accepted
  exact placed ▸ accepted.2.resolve_left (by simp [acts])

/-- An accepted write that makes its own transaction (R510, R518). -/
theorem State.ask_accepted {s : State} {q : DReq} {o : Obj} {i j : Nat} {act : State → State} (sub : q.sub < 256) (accepted : s.accepts q o i j = true)
    (acts : act (s.counted o) = (s.counted o).effect q o i j) : s.ask q = s.afterWrite q o act := by
  simp only [State.accepts, Bool.and_eq_true, beq_iff_eq, Bool.not_eq_true', Bool.or_eq_true] at accepted
  obtain ⟨⟨⟨⟨⟨⟨⟨⟨⟨⟨⟨served, write⟩, alone⟩, found⟩, kind⟩, may⟩, control⟩, value⟩, unclaimed⟩, room⟩, rules⟩, does⟩ := accepted
  obtain ⟨-, -, -, -, -, own, -⟩ := State.serves_iff.1 served
  have named := keyObj_key sub found
  have committed := State.commitWrites_one named rules fun yes => does.resolve_left (by simp [yes])
  have done : s.perform q = (s.committedAs q o ((s.counted o).effect q o i j)).reply stOk [] := by
    have wrote : s.writeObj q o i j = (s.committedAs q o ((s.counted o).effect q o i j)).reply stOk [] := by
      unfold State.writeObj
      simp only [value, alone, unclaimed, room, Bool.false_eq_true, and_false, if_false, ne_eq, not_true_eq_false, or_self, committed]
    unfold State.perform State.serveWrite
    rw [if_neg (by simp [write]), if_pos write, found]
    dsimp only
    rw [if_neg, if_neg (by simp [alone]), if_neg, if_neg (by simp [may]), if_neg, wrote]
    · rcases control with free | granted
      · simp [free]
      · simp [granted]
    · rcases kind with rw | wo <;> simp [*]
    · rcases kind with rw | wo <;> simp [*]
  rw [State.ask_performs served done, if_pos rfl, ← acts]
  rfl

/-- An accepted command that makes its own transaction: it succeeds, and acts. -/
theorem State.ask_commands {s : State} {q : DReq} {o : Obj} {i j : Nat} {act : State → State} (acts : o.acts = true) (sub : q.sub < 256)
    (accepted : s.accepts q o i j = true) (does : ∀ t : State, (t.command o i q.payload).2 = stOk → (t.command o i q.payload).1 = act t) :
    s.ask q = s.afterWrite q o act :=
  State.ask_accepted sub accepted
    ((does _ (State.command_succeeds sub accepted acts)).symm.trans (State.effect_command accepted acts _).symm)

/-- A command whose value is a BOOL that is 1 acts (R508). -/
theorem State.command_bool {t : State} {o : Obj} {i : Nat} {v : List Byte} {x y : State × Nat} (kind : o.type = .bool) (sets : ofLe v ≠ 0)
    (is : t.command o i v = if o.type ≠ .bool ∨ ofLe v = 0 then x else y) : t.command o i v = y :=
  is.trans (if_neg fun bad => bad.elim (fun other => other kind) sets)

/-- A value of GUARD_BAND (R468). -/
theorem State.guardBand_written (t : State) (m : Nat) (v : List Byte) : t.applyWrite m regGuardBand 0 0 v = t.guardWrite (ofLe v) := by
  unfold State.applyWrite
  rw [if_neg (by decide), if_neg (by decide), if_neg (by decide), if_neg (by decide), if_neg (by decide), if_neg (by decide), if_neg (by decide),
    if_pos (by decide)]

/-- What a CREATE that succeeds leaves (R355). -/
theorem State.spanCommand_creates {t : State} {k : Nat} (done : (t.spanCommand k 1).2 = stOk) : (t.spanCommand k 1).1 = t.createSpan k := by
  simp only [State.spanCommand, if_true] at done ⊢
  by_cases used : (t.span k).state ≠ .unused
  · rw [if_pos used] at done
    exact absurd (show stAccess = stOk from done) (by decide)
  · rw [if_neg used] at done ⊢
    by_cases good : t.createRefusal k = 0
    · rw [if_pos good]
    · rw [if_neg good] at done
      exact absurd (show stValue = stOk from done) (by decide)

/-- What a RESET that succeeds leaves (R358). -/
theorem State.spanCommand_resets {t : State} {k : Nat} (done : (t.spanCommand k 2).2 = stOk) : (t.spanCommand k 2).1 = t.resetSpan k := by
  unfold State.spanCommand at done ⊢
  dsimp only at done ⊢
  rw [if_neg (by decide)] at done ⊢
  by_cases used : (t.span k).state ≠ .unused
  · rw [if_pos ⟨rfl, used⟩]
  · rw [if_neg fun both => used both.2, if_neg fun both => absurd both.1 (by decide)] at done
    exact absurd (show stAccess = stOk from done) (by decide)

/-- What a DELETE that succeeds leaves (R358). -/
theorem State.spanCommand_deletes {t : State} {k : Nat} (done : (t.spanCommand k 3).2 = stOk) :
    (t.spanCommand k 3).1 = (t.deleteSpan k).settle := by
  unfold State.spanCommand at done ⊢
  dsimp only at done ⊢
  rw [if_neg (by decide), if_neg fun both => absurd both.1 (by decide)] at done ⊢
  by_cases rests : (t.span k).state = .ready ∨ (t.span k).state = .paused ∨ (t.span k).state = .stopped
  · rw [if_pos ⟨rfl, rests⟩]
  · rw [if_neg fun both => rests both.2] at done
    exact absurd (show stAccess = stOk from done) (by decide)

/-- What a retirement that succeeds leaves (R401). -/
theorem State.retireCommand_retires {t : State} {u : Nat} (done : (t.retireCommand u).2 = stOk) :
    (t.retireCommand u).1 = (t.declare u 1 false).settle := by
  unfold State.retireCommand at done ⊢
  by_cases good : t.retireStatus u = stOk
  · rw [if_pos good]
  · rw [if_neg good] at done
    exact absurd done good

/-- What a swap of supervisors that succeeds leaves (R351). -/
theorem State.swapCommand_swaps {t : State} {v : List Byte} (sets : ofLe v ≠ 0) (done : (t.command regSupervisorSwap 0 v).2 = stOk) :
    (t.command regSupervisorSwap 0 v).1 = t.switchSupervisor := by
  have acts : t.command regSupervisorSwap 0 v = if t.control.standby then (t.switchSupervisor, stOk) else (t, stAccess) :=
    State.command_bool rfl sets rfl
  rw [acts] at done ⊢
  by_cases standby : t.control.standby = true
  · rw [if_pos standby]
  · rw [if_neg standby] at done
    exact absurd (show stAccess = stOk from done) (by decide)

/-- A commit that succeeds is answered with the commit time (R518). -/
theorem State.serveCommit_commits {s u : State} {q : DReq} {t : Transaction} (active : s.txOf q = some t)
    (done : (s.endTx q.master).commitWrites q.master t.staged = (u, none)) : s.serveCommit q = u.reply stOk (leBytes 8 u.now) := by
  unfold State.serveCommit
  rw [active]
  dsimp only
  rw [done]

/-- A commit that fails is answered with the object that failed (R518). -/
theorem State.serveCommit_refuses {s u : State} {q : DReq} {t : Transaction} {k st : Nat} (active : s.txOf q = some t)
    (failed : (s.endTx q.master).commitWrites q.master t.staged = (u, some (k, st))) :
    s.serveCommit q = u.reply st (leBytes 2 (k / 256) ++ leBytes 1 (k % 256)) := by
  unfold State.serveCommit
  rw [active]
  dsimp only
  rw [failed]

/-- A write that is staged in the open transaction of its master (R516). -/
theorem State.ask_stages {s : State} {q : DReq} {o : Obj} {i j : Nat} {t : Transaction} (stages : s.stages q o i j t = true) :
    s.ask q = (s.setTx (t.staging q)).answered q stOk [] := by
  simp only [State.stages, Bool.and_eq_true, beq_iff_eq, Bool.not_eq_true', Bool.or_eq_true, bne_iff_ne, Nat.blt_eq, Nat.ble_eq] at stages
  obtain ⟨⟨⟨⟨⟨⟨⟨⟨⟨⟨⟨⟨⟨served, write⟩, within⟩, active⟩, found⟩, writable⟩, may⟩, control⟩, value⟩, rules⟩, unclaimed⟩, free⟩, few⟩, small⟩ := stages
  obtain ⟨-, -, -, -, -, own, -⟩ := State.serves_iff.1 served
  refine State.ask_answers served ?_ (State.keysWritten_staged write within)
  have wrote : s.writeObj q o i j = (s.setTx (t.staging q)).reply stOk [] := by
    unfold State.writeObj
    simp only [value, within, active, rules, unclaimed, free, Bool.false_eq_true, and_self, if_true, if_false, ne_eq, not_true_eq_false, or_self]
    unfold State.stage
    exact if_neg (by omega)
  unfold State.perform State.serveWrite
  rw [if_neg (by simp [write]), if_pos write, found]
  dsimp only
  rw [if_neg (by simp [writable, own]), if_neg (by simp [active]), if_neg (by simp [within]), if_neg (by simp [may]), if_neg, wrote]
  rcases control with plain | granted
  · simp [plain]
  · simp [granted]

/-- What the writes that only a transaction may make have in common (R508): the request, its object's access, and the effect of its value. -/
theorem transacted_writes {i : Instr} {r : Req} {q : DReq} {o : Obj} {a b : Nat} {act : State → State} (is : i.transacted = some (r, q, o, a, b, act)) :
    (∃ index sub v, q = writeReq r index sub v) ∧ q.sub < 256 ∧ o.access = .rwt ∧ o.acts = false ∧ (∀ s, exec i s = .next (s.ask q)) ∧
      ∀ t, act t = t.valued q o a b := by
  unfold Instr.transacted at is
  split at is <;> cases is
  case h_5 n e v =>
    have sub : e.val + 1 < 256 := by omega
    exact ⟨⟨_, _, _, rfl⟩, sub, rfl, by decide, fun _ => rfl, fun _ => rfl⟩
  all_goals exact ⟨⟨_, _, _, rfl⟩, by simp [writeReq], rfl, by decide, fun _ => rfl, fun _ => rfl⟩

/-- A commit of the one write that a transaction holds (R518). -/
theorem State.ask_commits {s : State} {r : Req} {index sub : Nat} {v : List Byte} {o : Obj} {i j : Nat} {act : State → State}
    (less : sub < 256) (acts : ∀ t : State, act t = t.valued (writeReq r index sub v) o i j) (commits : s.commits (writeReq r index sub v) o i j = true) :
    s.ask (opReq r 4) = s.afterCommit r (writeReq r index sub v) o act := by
  simp only [State.commits, Bool.and_eq_true, beq_iff_eq, Bool.not_eq_true', Option.map_eq_some_iff] at commits
  obtain ⟨⟨⟨⟨served, t, active, holds⟩, found⟩, stores⟩, rules⟩ := commits
  have done := State.commitWrites_one (keyObj_key less found) rules fun yes => absurd yes (ne_true_of_eq_false stores)
  rw [← holds] at done
  refine ((State.ask_performs (q := opReq r 4) served (State.serveCommit_commits active done)).trans (if_pos rfl)).trans ?_
  unfold State.afterCommit
  dsimp only
  rw [acts]
  simp only [State.effect, stores, Bool.false_eq_true, if_false]
  rfl

/-- Outside a transaction a write that only a transaction may make is refused (R508). -/
theorem State.ask_refuses {s : State} {q : DReq} {o : Obj} {i j : Nat} (served : s.serves q = true) (write : q.op = 2) (alone : q.tx = false)
    (found : findObj q.index q.sub = some (o, i, j)) (transacted : o.access = .rwt) : s.ask q = s.answered q stAccess [] := by
  obtain ⟨-, -, -, -, -, own, -⟩ := State.serves_iff.1 served
  refine (State.ask_performs (st := stAccess) served ?_).trans (if_neg (by decide))
  unfold State.perform State.serveWrite
  rw [if_neg (by simp [write]), if_pos write, found]
  dsimp only
  rw [if_neg (by simp [transacted, own]), if_neg (by simp [alone]), if_pos (by simp [transacted, alone])]

end Sys2Proof.Machine

/-! ### The statements -/

section
open Sys2Proof Sys2Proof.Machine

/-- Settles O39. -/
theorem dictionaryRequests : Obligations.DictionaryRequests := by
  intro s r served
  have serves (q : DReq) (master : q.master = r.master.toNat) (own : q.own = true) : s.serves q = true := by
    simpa [State.serves, master, own, opReq] using served
  refine ⟨fun idx sub len o i j => fun found readable may blob str => ?read, fun len o i j => fun found readable may blob window => ?summary,
    fun o i j => fun found readable may blob => ?window, fun idx sub v o i j => fun alone stores accepted => ?write,
    fun idx sub v o i j t => fun stages => ?stage, fun idle => ⟨?begins, ?noCommit, ?noAbort⟩,
    fun t active => ⟨?again, ?aborts, fun u done => ?commits, fun u k st bad failed => ?refused⟩,
    fun idx sub o i j => fun found may entry => ?describe, ?nop⟩
  case read =>
    refine congrArg _ (State.ask_answers (serves _ rfl rfl) ?_ (State.keysWritten_none (op := 1) rfl (by decide) (by decide)))
    exact (State.serveRead_reads found readable may).trans (State.readObj_start o i j rfl false (by simp [blob, str]))
  case summary =>
    refine congrArg _ (State.ask_answers (serves _ rfl rfl) ?_ (State.keysWritten_none (op := 6) rfl (by decide) (by decide)))
    exact (State.serveRead_reads found readable may).trans (State.readObj_start o i j rfl true (by simp [blob]))
  case window =>
    refine congrArg _ (State.ask_answers (serves _ rfl rfl) ?_ (State.keysWritten_none (op := 1) rfl (by decide) (by decide)))
    exact (State.serveRead_reads found readable may).trans (State.readObj_start o i j rfl true (by simp [blob]))
  case write =>
    exact congrArg _ (State.ask_accepted sub.isLt accepted (State.effect_value accepted stores _).symm)
  case stage => exact congrArg _ (State.ask_stages stages)
  case begins =>
    refine congrArg _ (State.ask_answers (serves _ rfl rfl) ?_ (State.keysWritten_none (op := 3) rfl (by decide) (by decide)))
    show s.serveBegin (opReq r 3) = _
    rw [State.serveBegin, if_neg (by simp [opReq]), if_neg (by simp [idle])]
    rfl
  case noCommit =>
    refine congrArg _ ((State.ask_performs (serves _ rfl rfl) (st := stTx) ?_).trans (if_neg (by decide)))
    show s.serveCommit (opReq r 4) = _
    unfold State.serveCommit
    rw [show s.txOf (opReq r 4) = none from idle]
  case noAbort =>
    refine congrArg _ (State.ask_answers (serves _ rfl rfl) ?_ (State.keysWritten_none (op := 5) rfl (by decide) (by decide)))
    show s.serveAbort (opReq r 5) = _
    unfold State.serveAbort
    rw [show s.txOf (opReq r 5) = none from idle]
  case again =>
    refine congrArg _ (State.ask_answers (serves _ rfl rfl) ?_ (State.keysWritten_none (op := 3) rfl (by decide) (by decide)))
    show s.serveBegin (opReq r 3) = _
    rw [State.serveBegin, if_neg (by simp [opReq]), if_pos (by simp [active])]
  case aborts =>
    refine congrArg _ (State.ask_answers (serves _ rfl rfl) ?_ (State.keysWritten_none (op := 5) rfl (by decide) (by decide)))
    show s.serveAbort (opReq r 5) = _
    unfold State.serveAbort
    rw [show s.txOf (opReq r 5) = some t from active]
    rfl
  case commits =>
    refine congrArg _ ((State.ask_performs (serves _ rfl rfl) ?_).trans (if_pos rfl))
    exact State.serveCommit_commits active done
  case refused =>
    refine congrArg _ ((State.ask_performs (serves _ rfl rfl) ?_).trans (if_neg bad))
    exact State.serveCommit_refuses active failed
  case describe =>
    refine congrArg _ (State.ask_answers (serves _ rfl rfl) ?_ (State.keysWritten_none (op := 7) rfl (by decide) (by decide)))
    show s.serveDescribe _ = _
    unfold State.serveDescribe
    rw [found]
    dsimp only
    rw [if_pos may, entry, Bool.false_and, Bool.not_false, Bool.and_true]
  case nop => exact congrArg _ (State.ask_answers (serves _ rfl rfl) rfl (State.keysWritten_none (op := 8) rfl (by decide) (by decide)))

/-- Settles O40. -/
theorem directWrites : Obligations.DirectWrites := by
  intro s r k f v alone
  refine ⟨fun sets accepted => ?swap, fun accepted => ?create, fun accepted => ?reset, fun accepted => ?delete, fun sets accepted => ?predictor,
    fun accepted => ?spin, fun accepted => ?retire, fun sets accepted => ?history, fun sets accepted => ?minima, fun accepted => ?guard,
    fun accepted => ?cap, fun accepted => ?stageOpen, fun accepted => ?stageVerify, fun accepted => ?stageAbort, fun accepted => ?chunk,
    fun sets accepted => ?links, fun m accepted => ?key⟩
  case swap =>
    exact congrArg _ (State.ask_commands (by decide) (show 2 < 256 by decide) accepted fun t done => State.swapCommand_swaps sets done)
  case create => exact congrArg _ (State.ask_commands (by decide) (show 0x25 < 256 by decide) accepted fun t => State.spanCommand_creates)
  case reset => exact congrArg _ (State.ask_commands (by decide) (show 0x25 < 256 by decide) accepted fun t => State.spanCommand_resets)
  case delete => exact congrArg _ (State.ask_commands (by decide) (show 0x25 < 256 by decide) accepted fun t => State.spanCommand_deletes)
  case predictor =>
    exact congrArg _ (State.ask_commands (by decide) (show 0x20 < 256 by decide) accepted fun t _ =>
      congrArg Prod.fst (State.command_bool (o := regPredReset) rfl sets rfl))
  case spin => exact congrArg _ (State.ask_accepted (show 0x20 < 256 by decide) accepted (State.effect_value accepted (by decide) _).symm)
  case retire => exact congrArg _ (State.ask_commands (by decide) (show 4 < 256 by decide) accepted fun t => State.retireCommand_retires)
  case history =>
    exact congrArg _ (State.ask_commands (by decide) (show 7 < 256 by decide) accepted fun t _ =>
      congrArg Prod.fst (State.command_bool (o := regClear) rfl sets rfl))
  case minima =>
    exact congrArg _ (State.ask_commands (by decide) (show 0xC7 < 256 by decide) accepted fun t _ =>
      congrArg Prod.fst (State.command_bool (o := regVminClear) rfl sets rfl))
  case guard =>
    refine congrArg _ (State.ask_accepted (show 3 < 256 by decide) accepted ((State.effect_value accepted (by decide) _).trans ?_).symm)
    exact State.guardBand_written _ _ v
  case cap => exact congrArg _ (State.ask_accepted (show 1 < 256 by decide) accepted (State.effect_value accepted (by decide) _).symm)
  case stageOpen => exact congrArg _ (State.ask_commands (by decide) (show 2 < 256 by decide) accepted fun _ _ => rfl)
  case stageVerify => exact congrArg _ (State.ask_commands (by decide) (show 2 < 256 by decide) accepted fun _ _ => rfl)
  case stageAbort => exact congrArg _ (State.ask_commands (by decide) (show 2 < 256 by decide) accepted fun _ _ => rfl)
  case chunk => exact congrArg _ (State.ask_commands (by decide) (show 4 < 256 by decide) accepted fun _ _ => rfl)
  case links =>
    exact congrArg _ (State.ask_commands (by decide) (show 8 < 256 by decide) accepted fun t _ =>
      congrArg Prod.fst (State.command_bool (o := regLinkSavedClear) rfl sets rfl))
  case key =>
    have sub : m.val + 1 < 256 := by omega
    exact congrArg _ (State.ask_accepted sub accepted (State.effect_value accepted (by decide) _).symm)

/-- Settles O41. -/
theorem transactedWrites : Obligations.TransactedWrites := by
  intro i r q o a b act s is
  obtain ⟨⟨index, sub, v, rfl⟩, less, transacted, stores, asks, acts⟩ := transacted_writes is
  refine ⟨fun t stages => ?staged, fun commits => ?committed, fun alone served found => ?refused⟩
  case staged => rw [asks, State.ask_stages stages]
  case committed => exact congrArg _ (State.ask_commits less acts commits)
  case refused => rw [asks, State.ask_refuses served rfl alone found transacted]

end

end

section
/-! What the vector and turn units leave alone (R153, R179, R200). -/

namespace Sys2Proof.Machine

/-! ### A change of one pier alone -/

/-- The parts of the state outside memory and the fields that no unit of a pier changes. -/
def State.beyondPiers (s : State) :=
  (s.spans, s.towers, s.channels, s.sets, s.ports, s.clocks, s.supply, s.boot, s.control, s.faults, s.tests, s.jtag)

/-- `t` is `s` but for what the vector and turn units of field `f` may change: the scratchpad of its pier, its field, though not the state of its
sequencer, and counters, events and packets. -/
structure State.Within (f : Nat) (s t : State) : Prop where
  bytes : ∀ a, a < scratchKey f 0 0 ∨ scratchKey f 64 0 ≤ a → t.mem.byte a = s.mem.byte a
  others : ∀ g, g ≠ f → t.field g = s.field g
  own : (t.field f).seq.state = (s.field f).seq.state
  beyond : t.beyondPiers = s.beyondPiers

variable {f : Nat} {s t u : State}

theorem State.Within.refl (f : Nat) (s : State) : State.Within f s s := ⟨fun _ _ => rfl, fun _ _ => rfl, rfl, rfl⟩

theorem State.Within.trans (first : State.Within f s t) (next : State.Within f t u) : State.Within f s u where
  bytes a out := (next.bytes a out).trans (first.bytes a out)
  others g other := (next.others g other).trans (first.others g other)
  own := next.own.trans first.own
  beyond := next.beyond.trans first.beyond

/-- A state that differs in none of these. -/
theorem State.within_same (mem : t.mem = s.mem) (fields : t.fields = s.fields) (beyond : t.beyondPiers = s.beyondPiers) : State.Within f s t where
  bytes _ _ := by rw [mem]
  others _ _ := by rw [State.field, State.field, fields]
  own := by rw [State.field, State.field, fields]
  beyond := beyond

/-- A change of the field itself that keeps the state of its sequencer. -/
theorem State.within_modField (s : State) {g : Field → Field} (keeps : ∀ x, (g x).seq.state = x.seq.state) : State.Within f s (s.modField f g) where
  bytes _ _ := rfl
  others e other := State.field_modField_other s f e g other.symm
  own := by
    simp only [State.field, State.modField, List.getD_eq_getElem?_getD, List.getElem?_modify]
    cases s.fields[f]? <;> simp [keeps]
  beyond := rfl

theorem State.within_modSeq (s : State) {g : Sequencer → Sequencer} (keeps : ∀ q, (g q).state = q.state) : State.Within f s (s.modSeq f g) :=
  State.within_modField s fun _ => keeps _

theorem State.within_bump (s : State) (o : Obj) (i n : Nat) : State.Within f s (s.bump o i n) := State.within_same rfl rfl rfl

theorem State.within_setReg (s : State) (o : Obj) (i v : Nat) : State.Within f s (s.setReg o i v) := State.within_same rfl rfl rfl

theorem State.within_modMesh (s : State) (g : Mesh → Mesh) : State.Within f s (s.modMesh g) := State.within_same rfl rfl rfl

theorem State.within_event (s : State) (m c : Nat) (l : List Byte) : State.Within f s (s.event m c l) := State.within_same rfl rfl rfl

theorem State.within_send (s : State) (m ty k n a : Nat) (d : Dest) (st : Nat) (l : List Nat) : State.Within f s (s.send m ty k n a d st l) :=
  State.within_same rfl rfl rfl

/-- A change on a condition. -/
theorem State.within_ite {c : Prop} [Decidable c] (yes : State.Within f s t) (no : State.Within f s u) : State.Within f s (if c then t else u) := by
  split
  · exact yes
  · exact no

/-- A sequence of changes. -/
theorem State.within_foldl {α : Type} {g : State → α → State} (step : ∀ t x, State.Within f t (g t x)) (l : List α) (s : State) :
    State.Within f s (l.foldl g s) := by
  induction l generalizing s with
  | nil => exact .refl f s
  | cons x r ih => exact (step s x).trans (ih _)

/-! ### The scratchpad -/

/-- A row of a pier lies in its scratchpad. -/
theorem rowKey_bounds (f p n : Nat) : scratchKey f 0 0 ≤ rowKey f (rowAfter p n) ∧ rowKey f (rowAfter p n) + 512 ≤ scratchKey f 64 0 := by
  have less : rowAfter p n < 2 ^ 22 := Nat.mod_lt _ (by decide)
  generalize rowAfter p n = q at less
  simp only [rowKey, scratchKey, addrBank, addrRow]
  omega

/-- A write of at most a row. -/
theorem State.within_write (s : State) (p n : Nat) {l : List Byte} (short : l.length ≤ 512) :
    State.Within f s (s.write (rowKey f (rowAfter p n)) l) where
  bytes a out := by
    have := rowKey_bounds f p n
    exact Memory.byte_write_out _ _ _ _ (by omega)
  others _ _ := rfl
  own := rfl
  beyond := rfl

theorem State.within_rowWritten (s : State) (p : Nat) : State.Within f s (s.rowWritten f p) := by
  have dropped (t : State) (c : AheadFetch → Bool) : State.Within f t (t.dropAhead f c) := by
    unfold State.dropAhead
    dsimp only
    refine .trans (.trans (State.within_modSeq t ?_) (State.within_modMesh _ _)) (State.within_bump _ _ _ _)
    exact fun _ => rfl
  unfold State.rowWritten
  dsimp only
  split_ifs
  · refine .trans (State.within_modField s ?_) (dropped _ _)
    exact fun _ => rfl
  · exact State.within_modField s fun _ => rfl
  · exact dropped _ _
  · exact .refl f s

theorem State.within_putRows (s : State) (p : Nat) (l : List Byte) : State.Within f s (s.putRows f p l) := by
  unfold State.putRows
  dsimp only
  refine .trans (t := if l.length / 512 < (l.length + 511) / 512 then _ else _) ?_ (State.within_foldl (fun t r => State.within_rowWritten t r) _ _)
  have whole : State.Within f s ((List.range (l.length / 512)).foldl (fun t i => t.setRow f (rowAfter p i) (slice (512 * i) 512 l)) s) :=
    State.within_foldl (fun t i => State.within_write t p i (padTo_length _ _).le) _ s
  split_ifs
  · exact whole.trans ((State.within_write _ _ _ (by rw [List.length_drop]; omega)).trans (State.within_bump _ _ _ _))
  · exact whole

theorem State.within_tagRows (s : State) (rows scales : List Nat) : State.Within f s (s.tagRows f rows scales) := by
  unfold State.tagRows
  split_ifs
  · exact .refl f s
  · exact State.within_modField s fun _ => rfl

theorem State.within_copyRows (s : State) (a b n : Nat) : State.Within f s (s.copyRows f a b n) := by
  have copied (c : Nat) (l : List Byte) : State.Within f s ((List.range n).foldl (fun t i =>
      t.tagRows f [rowAfter b i] (s.scalesAt f (rowAfter a i))) (({ s with freeCount := c } : State).putRows f b l)) := by
    refine .trans (.trans ?_ (State.within_putRows _ _ _)) (State.within_foldl (fun t i => State.within_tagRows t _ _) _ _)
    exact State.within_same rfl rfl rfl
  exact copied _ _

/-! ### What every instruction does -/

/-- A failure outside PROLOGUE is reported to the attempt (R32). -/
theorem State.within_failed (status : Nat) (live : (s.field f).seq.state ≠ .prologue) : State.Within f s (s.failed f status) := by
  rw [State.failed, if_neg live]
  unfold State.reportFail
  split
  · exact .refl f s
  · refine .trans (State.within_modSeq s ?_) (State.within_send _ _ _ _ _ _ _ _ _)
    exact fun _ => rfl

/-- An instruction whose operands are bad, or whose rows wait or are refused (R158, R175). -/
theorem State.within_withRows (operands rows : List Nat) {act : State → State} (live : (s.field f).seq.state ≠ .prologue)
    (acts : State.Within f s (act s)) : State.Within f s (s.withRows f operands rows act) := by
  have fails {t : State} (status : Nat) (same : State.Within f s t) : State.Within f s (t.failed f status) :=
    same.trans (State.within_failed status (same.own ▸ live))
  unfold State.withRows State.operandFault State.unissue
  dsimp only
  split_ifs
  · exact fails _ (State.within_same rfl rfl rfl)
  · exact State.within_modSeq s fun _ => rfl
  · exact acts
  · exact fails _ (State.within_same rfl rfl rfl)
  · exact fails _ (State.within_same rfl rfl rfl)
  · exact fails _ (.refl f s)

theorem Sequencer.setToken_state (q : Sequencer) (t : Option Nat) (b : Bool) : (q.setToken t b).state = q.state := by
  cases t <;> rfl

theorem State.within_launch (s : State) (h : Hdr) (u : PierUnit) (c n : Nat) (l : List Nat) : State.Within h.field s (s.launch h u c n l) :=
  State.within_modSeq s fun _ => Sequencer.setToken_state _ _ _

theorem State.within_advanced (s : State) (h : Hdr) : State.Within h.field s (s.advanced h) := State.within_modSeq s fun _ => rfl

/-- An instruction that issues has its effect on the state with the instruction index moved past it. -/
theorem State.within_issue {h : Hdr} {w : Nat} {x : Option PierUnit} {act : State → State} (issues : s.issues h w x = true)
    (live : (s.field h.field).seq.state ≠ .prologue)
    (acts : ∀ t : State, (t.field h.field).seq.state ≠ .prologue → State.Within h.field t (act t)) : State.Within h.field s (s.issue h w x act) := by
  have moved := State.within_advanced s h
  rw [State.issue_runs issues]
  exact moved.trans (acts _ (moved.own ▸ live))

/-! ### The vector unit -/

theorem State.within_nextFree (s : State) : State.Within f s s.nextFree := State.within_same rfl rfl rfl

theorem State.within_vecCount (s : State) (n m : Nat) : State.Within f s (s.vecCount f n m) := by
  have counted : State.Within f s ((s.bump regVecNonfinite f n).bump regVecSaturations f m) :=
    (State.within_bump _ _ _ _).trans (State.within_bump _ _ _ _)
  unfold State.vecCount
  dsimp only
  split_ifs
  · refine counted.trans (.trans (State.within_event _ _ _ _) (State.within_modSeq _ ?_))
    exact fun _ => rfl
  · exact counted

theorem State.within_vecStalls (s : State) (rows : List Nat) : State.Within f s (s.vecStalls f rows) := by
  unfold State.vecStalls
  split_ifs
  · exact .refl f s
  · exact (State.within_bump _ _ _ _).trans (State.within_nextFree _)

theorem State.within_vecLaunch (s : State) (h : Hdr) (check : VecCheck) : State.Within h.field s (s.vecLaunch h check) := by
  unfold State.vecLaunch
  dsimp only
  refine .trans (State.within_modSeq s ?_) (State.within_launch _ _ _ _ _ _)
  exact fun _ => rfl

theorem State.within_putVectors (s : State) (dst fmt sigma : Nat) (tail : Nat → Nat) (vs : List (List FV)) :
    State.Within f s (s.putVectors f dst fmt sigma tail vs) := by
  unfold State.putVectors
  exact (State.within_foldl (fun t _ => State.within_putRows t _ _) _ s).trans (State.within_vecCount _ _ _)

theorem State.within_softmaxRun (s : State) (x : SoftHeld) : State.Within f s (s.softmaxRun f x) := by
  unfold State.softmaxRun
  exact (State.within_putVectors _ _ _ _ _ _).trans (State.within_vecCount _ _ _)

/-- An operation of the vector unit whose effect stays within its pier. -/
theorem State.within_vecIssue {op : Nat} {h : Hdr} {o : VecOp} {check : VecCheck} {plan : State → VecDesc → VecPlan} {act : VecDesc → State → State}
    (issues : s.issues h (vecWord op h o) (some .vector) = true) (live : (s.field h.field).seq.state ≠ .prologue)
    (acts : ∀ d t, State.Within h.field t (act d t)) : State.Within h.field s (s.vecIssue op h o check plan act) :=
  State.within_issue issues live fun _ live => State.within_withRows _ _ live
    ((acts _ _).trans ((State.within_vecStalls _ _).trans (State.within_vecLaunch _ _ _)))

/-- An operation that maps vectors to vectors. -/
theorem State.within_vecMap {op : Nat} {h : Hdr} {o : VecOp} {outLen : VecDesc → Nat} {extra : State → VecDesc → List (List Nat)}
    {g : State → VecDesc → Nat → List FV → List FV} (issues : s.issues h (vecWord op h o) (some .vector) = true)
    (live : (s.field h.field).seq.state ≠ .prologue) : State.Within h.field s (s.vecMap op h o outLen extra g) := by
  unfold State.vecMap
  refine State.within_vecIssue issues live fun d t => ?_
  exact (State.within_putVectors _ _ _ _ _ _).trans (State.within_vecCount _ _ _)

/-- TREEMASK writes its two rows, or reports a tree that R208 does not admit. -/
theorem State.within_vecTreemask {h : Hdr} {o : VecOp} (issues : s.issues h (vecWord 0x28 h o) (some .vector) = true)
    (live : (s.field h.field).seq.state ≠ .prologue) (ran : execVecTreemask h o s = .next t) : State.Within h.field s t := by
  unfold execVecTreemask at ran
  cases ran
  refine State.within_issue issues live fun u live => State.within_withRows _ _ live ?_
  dsimp only
  split
  · exact .trans (.trans (State.within_event _ _ _ _) (State.within_setReg _ _ _ _)) (State.within_failed _ live)
  · exact (State.within_putRows _ _ _).trans ((State.within_vecStalls _ _).trans (State.within_vecLaunch _ _ _))

/-! ### The turn unit -/

theorem State.within_transposed (s : State) (a b n k w : Nat) : State.Within f s (s.transposed f a b n k w) :=
  State.within_foldl (fun t _ => State.within_putRows t _ _) _ s

/-- A TURN without a fault of its unit. -/
theorem State.within_moveTurn {h : Hdr} {n : BitVec 12} {e : Fin 4} {src dst : Opnd}
    (issues : s.issues h (moveWord 1 h n e.val (opndWord src) dst) (some .turn) = true) (live : (s.field h.field).seq.state ≠ .prologue)
    (ran : execMoveTurn h n e src dst [] s = .next t) : State.Within h.field s t := by
  unfold execMoveTurn at ran
  cases ran
  refine State.within_issue issues live fun u live => State.within_withRows _ _ live ?_
  rw [State.turn_sound]
  exact (State.within_transposed _ _ _ _ _ _).trans (State.within_launch _ _ _ _ _ _)

/-- What an instruction of the vector or turn unit changes. -/
theorem unit_within {i : Instr} {h : Hdr} {w : Nat} {x : PierUnit} (is : i.issued = some (h, w, some x)) (unit : x = .vector ∨ x = .turn)
    (loud : ∀ o l, i ≠ .vecNotify h o l) (sound : ∀ n e a b l, i = .moveTurn h n e a b l → l = []) (issues : s.issues h w (some x) = true)
    (live : (s.field h.field).seq.state ≠ .prologue) (ran : exec i s = .next t) : State.Within h.field s t := by
  have effect {r : State} (same : exec i s = .next r) (kept : State.Within h.field s r) : State.Within h.field s t := by
    rw [same] at ran
    cases ran
    exact kept
  unfold Instr.issued at is
  split at is <;> cases is
  case h_2 => exact effect rfl (State.within_vecMap issues live)
  case h_3 => exact effect rfl (State.within_vecMap issues live)
  case h_4 => exact effect rfl (State.within_vecMap issues live)
  case h_5 => exact effect rfl (State.within_vecMap issues live)
  case h_7 => exact effect rfl (State.within_vecMap issues live)
  case h_9 => exact effect rfl (State.within_vecMap issues live)
  case h_10 => exact effect rfl (State.within_vecMap issues live)
  case h_11 => exact effect rfl (State.within_vecMap issues live)
  case h_6 =>
    refine effect rfl (State.within_vecIssue issues live fun d u => ?_)
    exact (State.within_putVectors _ _ _ _ _ _).trans ((State.within_putVectors _ _ _ _ _ _).trans (State.within_vecCount _ _ _))
  case h_8 =>
    refine effect rfl (State.within_vecIssue issues live fun d u => State.within_ite (State.within_modSeq _ ?_) (State.within_softmaxRun _ _))
    exact fun _ => rfl
  case h_12 => exact State.within_vecTreemask issues live ran
  case h_13 =>
    refine effect rfl (State.within_vecIssue issues live fun d u => ?_)
    exact (State.within_putRows _ _ _).trans (State.within_vecCount _ _ _)
  case h_14 =>
    refine effect rfl (State.within_vecIssue issues live fun d u => ?_)
    exact (State.within_ite (State.within_bump _ _ _ _) (.refl _ _)).trans (State.within_putRows _ _ _)
  case h_15 =>
    refine effect rfl (State.within_vecIssue issues live fun d u => ?_)
    exact State.within_ite ((State.within_bump _ _ _ _).trans ((State.within_putRows _ _ _).trans (State.within_vecCount _ _ _)))
      ((State.within_bump _ _ _ _).trans ((State.within_putVectors _ _ _ _ _ _).trans (State.within_vecCount _ _ _)))
  case h_16 => exact absurd rfl (loud _ _)
  case h_17 =>
    refine effect rfl (State.within_issue issues live fun u live => State.within_withRows _ _ live ?_)
    exact (State.within_copyRows _ _ _ _).trans (State.within_launch _ _ _ _ _ _)
  case h_18 =>
    cases sound _ _ _ _ _ rfl
    exact State.within_moveTurn issues live ran
  case h_19 =>
    refine effect rfl (State.within_issue issues live fun u live => State.within_withRows _ _ live ?_)
    exact (State.within_putRows _ _ _).trans (State.within_launch _ _ _ _ _ _)
  all_goals exact absurd unit (by decide)

end Sys2Proof.Machine

/-! ### The statements -/

section
open Sys2Proof Sys2Proof.Machine

/-- Settles O58. -/
theorem unitFrames : Obligations.UnitFrames := by
  intro i h w x s t is unit loud sound issues live ran
  obtain ⟨bytes, others, -, beyond⟩ := unit_within is unit loud sound issues live ran
  simp only [State.beyondPiers, Prod.mk.injEq] at beyond
  exact ⟨bytes, fun g other => others g fun same => other (Fin.ext same), beyond⟩

end

end
